-- ==== Sys2Proof/Word.lean ====
section
/-! DEFINITION. The words of the Thanar 8E: a byte, a 32-bit element register, a 64-bit uniform register, and the
256-bit element mask of a predicate or a PC slot (R8, R30, R67). -/

namespace Sys2Proof

/-- A byte. -/
abbrev Byte := BitVec 8
/-- The bits of one vector register in one element. -/
abbrev Word32 := BitVec 32
/-- A uniform register or a control register. -/
abbrev Word64 := BitVec 64
/-- One bit per element: a predicate register or the mask of a PC slot (R8). -/
abbrev Mask := BitVec 256

end Sys2Proof
end

