-- ==== Sys2Proof/Syntax.lean ====
section
/-! DEFINITION. The instruction set as syntax: one constructor for every row of spec/opcode_table.json. The encoded
forms carry the fields of R60 to R64 with the field letters of the table, lowest bit first. The rows without an
encoding are the steps that the part takes beside its instructions (spec file 95); they carry what the step acts on
and what the outside brings to it (log 1). -/

namespace Sys2Proof

/-- The second source of the V3 majors of R63: minor[3] = 0 names a vector register, minor[3] = 1 a uniform one. -/
inductive VSrc where
  | v (r : Fin 128)
  | s (r : Fin 64)
  deriving DecidableEq, Repr

/-- The AtomicOps that a host port completes (R397), with their width in bytes (4 or 8) and operands. -/
inductive HostAtomic where
  | fetchAdd (wide : Bool) (x : BitVec 64)
  | swap (wide : Bool) (x : BitVec 64)
  | cas (wide : Bool) (compare new : BitVec 64)
  deriving DecidableEq, Repr

/-- A request of a peer device for this device's memory (R401, R236, R344). -/
inductive PeerReq where
  | read (len : Nat)
  | write (data : List Byte)
  | atomic (op : Fin 16) (x y : BitVec 64)
  deriving DecidableEq, Repr

/-- What the far side answers to one unit of an rput or rget (R401, R416). -/
inductive FeReply where
  | done
  | refused
  deriving DecidableEq, Repr

/-- An exact accumulator of R51: VALUE in two's complement (bits [2239:0]), the flag bits and COUNT. -/
structure Xa where
  value : BitVec 2240
  pinf : Bool
  ninf : Bool
  nans : Bool
  range : Bool
  count : BitVec 48
  deriving DecidableEq, Repr

/-- What one step of a ring sends for an element: a value in the collective's type, an exact sum as a CXF
(bytes of R54), or the member set that MEANVAR, QUANT and RANKH collect (R405 to R409). -/
inductive CttPart where
  | value (bits : BitVec 64)
  | exact (cxf : List Byte)
  | members (xs : List (BitVec 32))
  deriving DecidableEq, Repr

/-- The parameters that READY carries (R405); the ring list stands for its hash. -/
structure CttReady where
  gid : Nat
  op : Nat
  type : Nat
  count : Nat
  nrank : Nat
  mpr : Nat
  k : Nat
  xin : Bool
  xout : Bool
  ring : List Nat
  deriving DecidableEq, Repr

/-- The failures of R411 that a fired entry meets by itself. -/
inductive CttFail where
  | routeLost
  | translation (va : Nat)
  deriving DecidableEq, Repr

/-- The settings that firmware brings from its configuration at step 5 of R448. -/
structure BootConfig where
  devId : Nat
  routes : List (Nat × Nat)
  exports : List (BitVec 64 × BitVec 64)
  pwgt : List (Nat × Nat × Nat)
  vbts : List (Nat × Nat × Nat)
  deriving DecidableEq, Repr

/-- What firmware does on a policy request (R449): refuse it, or change one of its settings. -/
inductive PolicyChange where
  | refuse
  | devId (id : Nat)
  | route (peer mask : Nat)
  | exportEntry (n : Nat) (w0 w1 : BitVec 64)
  | pwgt (port few lsw : Nat)
  | govCap (watts : Nat)
  deriving DecidableEq, Repr

/-- Every row of spec/opcode_table.json. The rows without fields and the rows of majors 0x37 and 0x39 stand behind the
other encoded rows because Lean's compiled code can build no object of a constructor past number 243 (log 3). -/
inductive Instr where
  /-- R294. Adds 32-bit elements modulo 2^32. -/
  | vaddI32 (d : Fin 128) (a : Fin 128) (b : VSrc)
  /-- R294. Subtracts 32-bit elements modulo 2^32. -/
  | vsubI32 (d : Fin 128) (a : Fin 128) (b : VSrc)
  /-- R294. Low 32 bits of the element product. -/
  | vmulI32 (d : Fin 128) (a : Fin 128) (b : VSrc)
  /-- R294. High 32 bits of the signed element product. -/
  | vmulhI32 (d : Fin 128) (a : Fin 128) (b : VSrc)
  /-- R294. High 32 bits of the unsigned element product. -/
  | vmulhN32 (d : Fin 128) (a : Fin 128) (b : VSrc)
  /-- R294. Signed element minimum. -/
  | vminI32 (d : Fin 128) (a : Fin 128) (b : VSrc)
  /-- R294. Signed element maximum. -/
  | vmaxI32 (d : Fin 128) (a : Fin 128) (b : VSrc)
  /-- R296. Adds 64-bit register pairs modulo 2^64. -/
  | vaddI64 (d : Fin 128) (a : Fin 128) (b : VSrc)
  /-- R294. Shifts elements left by the low 5 bits of the second source. -/
  | vshl (d : Fin 128) (a : Fin 128) (b : VSrc)
  /-- R294. Logical right shift of elements. -/
  | vshr (d : Fin 128) (a : Fin 128) (b : VSrc)
  /-- R294. Arithmetic right shift of elements. -/
  | vsar (d : Fin 128) (a : Fin 128) (b : VSrc)
  /-- R294. Bitwise AND of elements. -/
  | vand (d : Fin 128) (a : Fin 128) (b : VSrc)
  /-- R294. Bitwise OR of elements. -/
  | vor (d : Fin 128) (a : Fin 128) (b : VSrc)
  /-- R294. Bitwise XOR of elements. -/
  | vxor (d : Fin 128) (a : Fin 128) (b : VSrc)
  /-- R295. Extracts a signed or unsigned bit field from each element. -/
  | vbfx (d : Fin 128) (a : Fin 128) (b : VSrc)
  /-- R296. Subtracts 64-bit register pairs modulo 2^64. -/
  | vsubI64 (d : Fin 128) (a : Fin 128) (b : VSrc)
  /-- R299. Sets predicate bits where 32-bit elements are equal. -/
  | vcmpEqI32 (p : Fin 8) (a : Fin 128) (b : VSrc)
  /-- R299. Sets predicate bits where 32-bit elements differ. -/
  | vcmpNeI32 (p : Fin 8) (a : Fin 128) (b : VSrc)
  /-- R299. Signed less-than compare into a predicate. -/
  | vcmpLtI32 (p : Fin 8) (a : Fin 128) (b : VSrc)
  /-- R299. Signed less-or-equal compare into a predicate. -/
  | vcmpLeI32 (p : Fin 8) (a : Fin 128) (b : VSrc)
  /-- R299. Unsigned less-than compare into a predicate. -/
  | vcmpLtN32 (p : Fin 8) (a : Fin 128) (b : VSrc)
  /-- R299. Unsigned less-or-equal compare into a predicate. -/
  | vcmpLeN32 (p : Fin 8) (a : Fin 128) (b : VSrc)
  /-- R299. Equality compare of 64-bit pairs into a predicate. -/
  | vcmpEqI64 (p : Fin 8) (a : Fin 128) (b : VSrc)
  /-- R299. Signed less-than compare of 64-bit pairs into a predicate. -/
  | vcmpLtI64 (p : Fin 8) (a : Fin 128) (b : VSrc)
  /-- R298. Adds a sign-extended 11-bit immediate to each element. -/
  | vaddi (d : Fin 128) (a : Fin 128) (i : BitVec 11)
  /-- R298. ANDs each element with a sign-extended 9-bit immediate. -/
  | vandi (d : Fin 128) (a : Fin 128) (i : BitVec 9)
  /-- R298. ORs each element with a sign-extended 9-bit immediate. -/
  | vori (d : Fin 128) (a : Fin 128) (i : BitVec 9)
  /-- R298. XORs each element with a sign-extended 9-bit immediate. -/
  | vxori (d : Fin 128) (a : Fin 128) (i : BitVec 9)
  /-- R298. Shifts elements left by an immediate amount. -/
  | vshli (d : Fin 128) (a : Fin 128) (n : Fin 32)
  /-- R298. Logical right shift by an immediate amount. -/
  | vshri (d : Fin 128) (a : Fin 128) (n : Fin 32)
  /-- R298. Arithmetic right shift by an immediate amount. -/
  | vsari (d : Fin 128) (a : Fin 128) (n : Fin 32)
  /-- R298. Rotates elements left by an immediate amount. -/
  | vroli (d : Fin 128) (a : Fin 128) (n : Fin 32)
  /-- R298. Counts the 1 bits of each element. -/
  | vpopc (d : Fin 128) (a : Fin 128)
  /-- R298. Counts the leading zero bits of each element. -/
  | vclz (d : Fin 128) (a : Fin 128)
  /-- R298. Reverses the bit order of each element. -/
  | vbrev (d : Fin 128) (a : Fin 128)
  /-- R300. Compares elements for equality with an 8-bit immediate. -/
  | vcmpiEq (p : Fin 8) (a : Fin 128) (i : BitVec 8)
  /-- R300. Compares elements for inequality with an 8-bit immediate. -/
  | vcmpiNe (p : Fin 8) (a : Fin 128) (i : BitVec 8)
  /-- R300. Signed less-than compare with an immediate. -/
  | vcmpiLtI32 (p : Fin 8) (a : Fin 128) (i : BitVec 8)
  /-- R300. Signed less-or-equal compare with an immediate. -/
  | vcmpiLeI32 (p : Fin 8) (a : Fin 128) (i : BitVec 8)
  /-- R300. Signed greater-than compare with an immediate. -/
  | vcmpiGtI32 (p : Fin 8) (a : Fin 128) (i : BitVec 8)
  /-- R300. Signed greater-or-equal compare with an immediate. -/
  | vcmpiGeI32 (p : Fin 8) (a : Fin 128) (i : BitVec 8)
  /-- R300. Unsigned less-than compare with an immediate. -/
  | vcmpiLtN32 (p : Fin 8) (a : Fin 128) (i : BitVec 8)
  /-- R300. Unsigned greater-or-equal compare with an immediate. -/
  | vcmpiGeN32 (p : Fin 8) (a : Fin 128) (i : BitVec 8)
  /-- R315. Adds f32 elements with one RNE rounding. -/
  | faddF32 (d : Fin 128) (a : Fin 128) (b : VSrc)
  /-- R315. Subtracts f32 elements with one RNE rounding. -/
  | fsubF32 (d : Fin 128) (a : Fin 128) (b : VSrc)
  /-- R315. Multiplies f32 elements with one RNE rounding. -/
  | fmulF32 (d : Fin 128) (a : Fin 128) (b : VSrc)
  /-- R315. f32 minimumNumber of elements. -/
  | fminF32 (d : Fin 128) (a : Fin 128) (b : VSrc)
  /-- R315. f32 maximumNumber of elements. -/
  | fmaxF32 (d : Fin 128) (a : Fin 128) (b : VSrc)
  /-- R315. f32 minimum with NaN propagated. -/
  | fminNanF32 (d : Fin 128) (a : Fin 128) (b : VSrc)
  /-- R315. f32 maximum with NaN propagated. -/
  | fmaxNanF32 (d : Fin 128) (a : Fin 128) (b : VSrc)
  /-- R315. Copies the sign of the second f32 operand onto the first. -/
  | fcpsgnF32 (d : Fin 128) (a : Fin 128) (b : VSrc)
  /-- R315. Adds f64 pairs with one RNE rounding. -/
  | faddF64 (d : Fin 128) (a : Fin 128) (b : VSrc)
  /-- R315. Subtracts f64 pairs with one RNE rounding. -/
  | fsubF64 (d : Fin 128) (a : Fin 128) (b : VSrc)
  /-- R315. Multiplies f64 pairs with one RNE rounding. -/
  | fmulF64 (d : Fin 128) (a : Fin 128) (b : VSrc)
  /-- R315. f64 minimumNumber of pairs. -/
  | fminF64 (d : Fin 128) (a : Fin 128) (b : VSrc)
  /-- R315. f64 maximumNumber of pairs. -/
  | fmaxF64 (d : Fin 128) (a : Fin 128) (b : VSrc)
  /-- R315. f64 minimum with NaN propagated. -/
  | fminNanF64 (d : Fin 128) (a : Fin 128) (b : VSrc)
  /-- R315. f64 maximum with NaN propagated. -/
  | fmaxNanF64 (d : Fin 128) (a : Fin 128) (b : VSrc)
  /-- R315. Copies the sign of the second f64 operand onto the first. -/
  | fcpsgnF64 (d : Fin 128) (a : Fin 128) (b : VSrc)
  /-- R317. Adds the two bf16 or f16 halves of each element. -/
  | faddH2 (t : Fin 2) (d : Fin 128) (a : Fin 128) (b : VSrc)
  /-- R317. Subtracts the two bf16 or f16 halves of each element. -/
  | fsubH2 (t : Fin 2) (d : Fin 128) (a : Fin 128) (b : VSrc)
  /-- R317. Multiplies the two bf16 or f16 halves of each element. -/
  | fmulH2 (t : Fin 2) (d : Fin 128) (a : Fin 128) (b : VSrc)
  /-- R317. Fused multiply-add on each half, with the destination as addend. -/
  | fmaH2 (t : Fin 2) (d : Fin 128) (a : Fin 128) (b : VSrc)
  /-- R318. Sets predicate bits where f32 operands are equal and not NaN. -/
  | fcmpEqF32 (p : Fin 8) (a : Fin 128) (b : VSrc)
  /-- R318. f32 less-than compare into a predicate. -/
  | fcmpLtF32 (p : Fin 8) (a : Fin 128) (b : VSrc)
  /-- R318. f32 less-or-equal compare into a predicate. -/
  | fcmpLeF32 (p : Fin 8) (a : Fin 128) (b : VSrc)
  /-- R318. Sets predicate bits where either f32 operand is NaN. -/
  | fcmpUnF32 (p : Fin 8) (a : Fin 128) (b : VSrc)
  /-- R318. f64 equality compare into a predicate. -/
  | fcmpEqF64 (p : Fin 8) (a : Fin 128) (b : VSrc)
  /-- R318. f64 less-than compare into a predicate. -/
  | fcmpLtF64 (p : Fin 8) (a : Fin 128) (b : VSrc)
  /-- R318. f64 less-or-equal compare into a predicate. -/
  | fcmpLeF64 (p : Fin 8) (a : Fin 128) (b : VSrc)
  /-- R318. f64 unordered compare into a predicate. -/
  | fcmpUnF64 (p : Fin 8) (a : Fin 128) (b : VSrc)
  /-- R319. f32 fused multiply-add with one rounding in the given mode. -/
  | fmaF32 (r : Fin 4) (d : Fin 128) (a : Fin 128) (b : Fin 128)
  /-- R319. f32 negated fused multiply-add with one rounding. -/
  | fnmaF32 (r : Fin 4) (d : Fin 128) (a : Fin 128) (b : Fin 128)
  /-- R319. f64 fused multiply-add with one rounding. -/
  | fmaF64 (r : Fin 4) (d : Fin 128) (a : Fin 128) (b : Fin 128)
  /-- R319. f64 negated fused multiply-add with one rounding. -/
  | fnmaF64 (r : Fin 4) (d : Fin 128) (a : Fin 128) (b : Fin 128)
  /-- R321. Converts each element between types through the conversion queue. -/
  | cvt (r : Fin 4) (d : Fin 128) (a : Fin 128) (s : Fin 16) (t : Fin 16)
  /-- R323. Correctly rounded f32 reciprocal in the special-function queue. -/
  | frcpF32 (d : Fin 128) (a : Fin 128)
  /-- R323. Correctly rounded f32 reciprocal square root. -/
  | frsqrtF32 (d : Fin 128) (a : Fin 128)
  /-- R323. Correctly rounded f32 square root. -/
  | fsqrtF32 (d : Fin 128) (a : Fin 128)
  /-- R323. Correctly rounded f32 division. -/
  | fdivF32 (d : Fin 128) (a : Fin 128) (b : Fin 128)
  /-- R323. Correctly rounded f32 power of two. -/
  | fexp2F32 (d : Fin 128) (a : Fin 128)
  /-- R323. Correctly rounded f32 base-2 logarithm. -/
  | flog2F32 (d : Fin 128) (a : Fin 128)
  /-- R323. Correctly rounded f32 sine. -/
  | fsinF32 (d : Fin 128) (a : Fin 128)
  /-- R323. Correctly rounded f32 cosine. -/
  | fcosF32 (d : Fin 128) (a : Fin 128)
  /-- R323. Correctly rounded f64 square root. -/
  | fsqrtF64 (d : Fin 128) (a : Fin 128)
  /-- R323. Correctly rounded f64 division. -/
  | fdivF64 (d : Fin 128) (a : Fin 128) (b : Fin 128)
  /-- R323. Correctly rounded f64 reciprocal. -/
  | frcpF64 (d : Fin 128) (a : Fin 128)
  /-- R323. Correctly rounded f32 hyperbolic tangent. -/
  | ftanhF32 (d : Fin 128) (a : Fin 128)
  /-- R325. Writes a one-hot class word for each f32 element. -/
  | fclassF32 (d : Fin 128) (a : Fin 128)
  /-- R325. Writes a one-hot class word for each f64 pair. -/
  | fclassF64 (d : Fin 128) (a : Fin 128)
  /-- R326. Rounds f32 elements to an integral value in the given mode. -/
  | froundF32 (d : Fin 128) (a : Fin 128) (r : Fin 4)
  /-- R326. Rounds f64 pairs to an integral value in the given mode. -/
  | froundF64 (d : Fin 128) (a : Fin 128) (r : Fin 4)
  /-- R327. Reads from the lane that each element's index names, within its member. -/
  | shflIdx (d : Fin 128) (a : Fin 128) (b : Fin 128)
  /-- R327. Reads from the lane d below, within the member. -/
  | shflUp (d : Fin 128) (a : Fin 128) (b : Fin 64)
  /-- R327. Reads from the lane d above, within the member. -/
  | shflDown (d : Fin 128) (a : Fin 128) (b : Fin 64)
  /-- R327. Reads from the lane l XOR d, within the member. -/
  | shflXor (d : Fin 128) (a : Fin 128) (b : Fin 64)
  /-- R327. Reads the same lane of another member. -/
  | mshfl (d : Fin 128) (a : Fin 128) (b : Fin 128)
  /-- R327. Copies one element of a vector register into a uniform register. -/
  | vmovs (d : Fin 64) (a : Fin 128) (b : Fin 64)
  /-- R327. Broadcasts one lane across each member. -/
  | vlane (d : Fin 128) (a : Fin 128) (b : Fin 64)
  /-- R329. Exact f32 mean of each lane over its active members. -/
  | mstatMeanF32 (d : Fin 128) (a : Fin 128)
  /-- R329. Exact f32 population variance of each lane over its members. -/
  | mstatVarF32 (d : Fin 128) (a : Fin 128)
  /-- R329. Exact f64 mean of each lane over its members. -/
  | mstatMeanF64 (d : Fin 128) (a : Fin 128)
  /-- R329. Exact f64 variance of each lane over its members. -/
  | mstatVarF64 (d : Fin 128) (a : Fin 128)
  /-- R330. Selects the k-th ordered member value of each lane. -/
  | mstatQuantF32 (d : Fin 128) (a : Fin 128) (b : Fin 64)
  /-- R331. Counts members below and equal to each element's observation. -/
  | mstatRankF32 (d : Fin 128) (a : Fin 128) (b : Fin 128)
  /-- R329. Minimum of each lane over its members. -/
  | mstatMinF32 (d : Fin 128) (a : Fin 128)
  /-- R329. Maximum of each lane over its members. -/
  | mstatMaxF32 (d : Fin 128) (a : Fin 128)
  /-- R301. Adds uniform registers modulo 2^64. -/
  | sadd (d : Fin 64) (a : Fin 64) (b : Fin 64)
  /-- R301. Subtracts uniform registers modulo 2^64. -/
  | ssub (d : Fin 64) (a : Fin 64) (b : Fin 64)
  /-- R301. Low 64 bits of the uniform product. -/
  | smul (d : Fin 64) (a : Fin 64) (b : Fin 64)
  /-- R301. High 64 bits of the signed uniform product. -/
  | smulhI64 (d : Fin 64) (a : Fin 64) (b : Fin 64)
  /-- R301. High 64 bits of the unsigned uniform product. -/
  | smulhN64 (d : Fin 64) (a : Fin 64) (b : Fin 64)
  /-- R301. Uniform bitwise AND. -/
  | sand (d : Fin 64) (a : Fin 64) (b : Fin 64)
  /-- R301. Uniform bitwise OR. -/
  | sor (d : Fin 64) (a : Fin 64) (b : Fin 64)
  /-- R301. Uniform bitwise XOR. -/
  | sxor (d : Fin 64) (a : Fin 64) (b : Fin 64)
  /-- R301. Uniform left shift by a register amount. -/
  | sshl (d : Fin 64) (a : Fin 64) (b : Fin 64)
  /-- R301. Uniform logical right shift by a register amount. -/
  | sshr (d : Fin 64) (a : Fin 64) (b : Fin 64)
  /-- R301. Uniform arithmetic right shift by a register amount. -/
  | ssar (d : Fin 64) (a : Fin 64) (b : Fin 64)
  /-- R301. Uniform signed minimum. -/
  | sminI64 (d : Fin 64) (a : Fin 64) (b : Fin 64)
  /-- R301. Uniform signed maximum. -/
  | smaxI64 (d : Fin 64) (a : Fin 64) (b : Fin 64)
  /-- R301. Uniform unsigned minimum. -/
  | sminN64 (d : Fin 64) (a : Fin 64) (b : Fin 64)
  /-- R301. Uniform unsigned maximum. -/
  | smaxN64 (d : Fin 64) (a : Fin 64) (b : Fin 64)
  /-- R301. Copies a uniform register. -/
  | smov (d : Fin 64) (a : Fin 64)
  /-- R301. Counts the 1 bits of a uniform register. -/
  | spopc (d : Fin 64) (a : Fin 64)
  /-- R301. Counts leading zeros of a uniform register. -/
  | sclz (d : Fin 64) (a : Fin 64)
  /-- R302. Signed uniform division truncating toward zero, never trapping. -/
  | sdivI64 (d : Fin 64) (a : Fin 64) (b : Fin 64)
  /-- R302. Unsigned uniform division, never trapping. -/
  | sdivN64 (d : Fin 64) (a : Fin 64) (b : Fin 64)
  /-- R302. Signed uniform remainder. -/
  | sremI64 (d : Fin 64) (a : Fin 64) (b : Fin 64)
  /-- R302. Unsigned uniform remainder. -/
  | sremN64 (d : Fin 64) (a : Fin 64) (b : Fin 64)
  /-- R301. Uniform left shift by an immediate. -/
  | sshli (d : Fin 64) (a : Fin 64) (n : Fin 64)
  /-- R301. Uniform logical right shift by an immediate. -/
  | sshri (d : Fin 64) (a : Fin 64) (n : Fin 64)
  /-- R301. Uniform arithmetic right shift by an immediate. -/
  | ssari (d : Fin 64) (a : Fin 64) (n : Fin 64)
  /-- R303. Adds a signed 11-bit immediate to a uniform register. -/
  | saddi (d : Fin 64) (a : Fin 64) (i : BitVec 11)
  /-- R303. ANDs a uniform register with a signed immediate. -/
  | sandi (d : Fin 64) (a : Fin 64) (i : BitVec 11)
  /-- R303. ORs a uniform register with a signed immediate. -/
  | sori (d : Fin 64) (a : Fin 64) (i : BitVec 11)
  /-- R303. XORs a uniform register with a signed immediate. -/
  | sxori (d : Fin 64) (a : Fin 64) (i : BitVec 11)
  /-- R304. Loads a sign-extended 18-bit immediate into a uniform register. -/
  | sli (d : Fin 64) (i : BitVec 18)
  /-- R304. Shifts a uniform register left 18 bits and inserts an immediate. -/
  | slih (d : Fin 64) (i : BitVec 18)
  /-- R305. Compares two uniform registers into UCOND. -/
  | scmp (a : Fin 64) (b : Fin 64)
  /-- R305. Compares a uniform register with a 6-bit immediate into UCOND. -/
  | scmpi (a : Fin 64) (i : BitVec 6)
  /-- R305. Tests the AND of two uniform registers for zero into UCOND. -/
  | stest (a : Fin 64) (b : Fin 64)
  /-- R306. ANDs predicate bits of active elements. -/
  | pand (d : Fin 8) (a : Fin 8) (b : Fin 8)
  /-- R306. ORs predicate bits of active elements. -/
  | por (d : Fin 8) (a : Fin 8) (b : Fin 8)
  /-- R306. XORs predicate bits of active elements. -/
  | pxor (d : Fin 8) (a : Fin 8) (b : Fin 8)
  /-- R306. AND-NOT of predicate bits of active elements. -/
  | pandn (d : Fin 8) (a : Fin 8) (b : Fin 8)
  /-- R306. Inverts predicate bits of active elements. -/
  | pnot (d : Fin 8) (a : Fin 8)
  /-- R306. Sets predicate bits of active elements. -/
  | pset (d : Fin 8)
  /-- R306. Clears predicate bits of active elements. -/
  | pclr (d : Fin 8)
  /-- R306. Counts set predicate bits of active elements into a uniform register. -/
  | ppopc (d : Fin 64) (a : Fin 8)
  /-- R308. Selects per element between two registers by predicate pN. -/
  | vsel (n : Fin 8) (d : Fin 128) (a : Fin 128) (b : Fin 128)
  /-- R308. Copies a vector register in active elements. -/
  | vmov (d : Fin 128) (a : Fin 128)
  /-- R308. Broadcasts the low 32 bits of a uniform register to active elements. -/
  | vbcast (d : Fin 128) (a : Fin 64)
  /-- R308. Copies predicate bits of active elements. -/
  | pmov (d : Fin 8) (a : Fin 8)
  /-- R308. Extracts one 64-bit word of a predicate into a uniform register. -/
  | pext (d : Fin 64) (a : Fin 8) (q : Fin 4)
  /-- R308. Inserts a uniform register into one predicate word for active elements. -/
  | pins (d : Fin 8) (a : Fin 64) (q : Fin 4)
  /-- R308. Writes 0 or 1 per element from a predicate. -/
  | vmovp (d : Fin 128) (a : Fin 8)
  /-- R308. Sets predicate bits where a vector element is nonzero. -/
  | pmovv (d : Fin 8) (a : Fin 128)
  /-- R60. 16-bit form of fadd.f32 with the destination as first source. -/
  | faddF32Compact (d : Fin 64) (s : Fin 32)
  /-- R60. 16-bit form of fsub.f32. -/
  | fsubF32Compact (d : Fin 64) (s : Fin 32)
  /-- R60. 16-bit form of fmul.f32. -/
  | fmulF32Compact (d : Fin 64) (s : Fin 32)
  /-- R60. 16-bit form of fmax.f32. -/
  | fmaxF32Compact (d : Fin 64) (s : Fin 32)
  /-- R60. 16-bit form of fmin.f32. -/
  | fminF32Compact (d : Fin 64) (s : Fin 32)
  /-- R60. 16-bit form of vadd.i32. -/
  | vaddI32Compact (d : Fin 64) (s : Fin 32)
  /-- R60. 16-bit form of vsub.i32. -/
  | vsubI32Compact (d : Fin 64) (s : Fin 32)
  /-- R60. 16-bit form of vmul.i32. -/
  | vmulI32Compact (d : Fin 64) (s : Fin 32)
  /-- R60. 16-bit form of vand. -/
  | vandCompact (d : Fin 64) (s : Fin 32)
  /-- R60. 16-bit form of vor. -/
  | vorCompact (d : Fin 64) (s : Fin 32)
  /-- R60. 16-bit form of vxor. -/
  | vxorCompact (d : Fin 64) (s : Fin 32)
  /-- R60. 16-bit form of vshl. -/
  | vshlCompact (d : Fin 64) (s : Fin 32)
  /-- R60. 16-bit form of vshr. -/
  | vshrCompact (d : Fin 64) (s : Fin 32)
  /-- R60. 16-bit form of vsar. -/
  | vsarCompact (d : Fin 64) (s : Fin 32)
  /-- R60. 16-bit form of vmov. -/
  | vmovCompact (d : Fin 64) (s : Fin 32)
  /-- R60. 16-bit form of vxori with immediate -1. -/
  | vnotCompact (d : Fin 64) (s : Fin 32)
  /-- R170. Moves the issuing slot by a signed halfword offset. -/
  | bra (o : BitVec 21)
  /-- R170. Moves the issuing slot when UCOND or p0 meets the condition. -/
  | brc (c : Fin 16) (o : BitVec 21)
  /-- R171. Divergent branch by predicate, pushing a join entry. -/
  | brd (n : Fin 8) (j : Fin 1024) (o : BitVec 11)
  /-- R172. Pushes a call entry and branches. -/
  | call (o : BitVec 21)
  /-- R172. Jumps the slot to the address in a uniform register. -/
  | jmpi (a : Fin 64)
  /-- R173. Decrements a counter register and branches while nonzero. -/
  | loop (n : Fin 16) (o : BitVec 21)
  /-- R181. Raises SOFTWARE_TRAP with code k. -/
  | trap (k : Fin 64)
  /-- R181. Ends a handler, restoring the frozen slots and releasing held groups. -/
  | tret (k : Fin 64)
  /-- R185. Ends the pre-emption handler and writes the group save record. -/
  | yield (a : Fin 64) (b : Fin 64)
  /-- R182. Reads one item of a group of the workgroup from a handler. -/
  | ginsp (d : Fin 64) (a : Fin 64) (b : Fin 64)
  /-- R183. Releases a held group before the handler's tret. -/
  | gresume (a : Fin 64) (b : Fin 64)
  /-- R132. Publishes a launch record into a device-produced queue. -/
  | enq (d : Fin 64) (a : Fin 64) (b : Fin 64)
  /-- R109. Reads a control register into a uniform register. -/
  | mfcr (d : Fin 64) (c : Fin 64)
  /-- R109. Writes a control register from a uniform register where allowed. -/
  | mtcr (c : Fin 64) (a : Fin 64)
  /-- R110. Waits for earlier register results, then reads CLOCK. -/
  | clock (d : Fin 64)
  /-- R111. Reads the context word or the region word. -/
  | mode (d : Fin 64) (k : Fin 64)
  /-- R191. Sets the regroup key of each member. -/
  | mkey (a : Fin 64)
  /-- R192. Sorts the workgroup's member slots by key once every group arrives. -/
  | mregroup (a : Fin 64) (b : Fin 64)
  /-- R193. Inverts the active regroup once every group arrives. -/
  | mrestore (a : Fin 64)
  /-- R337. Loads each active element from memory, raw or decoding by page format. -/
  | ld (t : Fin 16) (d : Fin 128) (b : Fin 64) (i : Option (Fin 128))
  /-- R337. Stores each active element to memory, raw or encoding by page format. -/
  | st (t : Fin 16) (d : Fin 128) (b : Fin 64) (i : Option (Fin 128))
  /-- R340. Loads from cluster SRAM by offset. -/
  | lds (t : Fin 8) (d : Fin 128) (b : Fin 64) (i : Option (Fin 128))
  /-- R340. Stores to cluster SRAM by offset. -/
  | sts (t : Fin 8) (d : Fin 128) (b : Fin 64) (i : Option (Fin 128))
  /-- R341. Headnote load returning a local copy and creating a watch entry. -/
  | ldHn (t : Fin 16) (d : Fin 128) (b : Fin 64) (i : Option (Fin 128))
  /-- R342. Waits for the selected watch entries, frees them and branches if any was struck. -/
  | hnchk (a : Fin 64) (o : BitVec 15)
  /-- R344. Atomic read-modify-write per element, returning the old value. -/
  | atom (o : Fin 16) (d : Fin 128) (b : Fin 64) (i : Fin 16) (s : Fin 16)
  /-- R344. Atomic reduction per element with no returned value. -/
  | red (o : Fin 16) (d : Fin 128) (b : Fin 64) (i : Fin 16) (s : Fin 16)
  /-- R250. Acquire fence at a scope. -/
  | fenceAcq (s : Fin 16)
  /-- R250. Release fence at a scope, discarding writes toward unreachable peers. -/
  | fenceRel (s : Fin 16)
  /-- R250. Release then acquire fence at a scope. -/
  | fenceFull (s : Fin 16)
  /-- R348. Prefetches lines into L1 and die L2, or die L2 only, never trapping. -/
  | pfetch (l : Fin 128) (b : Fin 64) (i : Option (Fin 128))
  /-- R349. Privileged write-back and drop of LLC lines of a range. -/
  | llcflush (l : Fin 64) (b : Fin 64)
  /-- R352. Hands a linear copy command to the cluster copy engine. -/
  | cpy (a : Fin 64)
  /-- R353. Hands a two-dimensional copy command to the copy engine. -/
  | cpy2 (a : Fin 64)
  /-- R354. Hands a halo edge-strip copy command to the copy engine. -/
  | hcpy (a : Fin 64)
  /-- R285. Initialises a barrier object, or leaves a matching valid one unchanged. -/
  | binit (a : Fin 64) (b : Fin 64)
  /-- R286. Releases and arrives at a barrier for a phase. -/
  | barr (s : Fin 16) (a : Fin 64) (b : Fin 64)
  /-- R287. Adds expected bytes to a barrier phase. -/
  | bexp (a : Fin 64) (b : Fin 64)
  /-- R288. Waits for a barrier phase to pass and acquires. -/
  | bwait (s : Fin 16) (a : Fin 64) (b : Fin 64)
  /-- R289. Tests a barrier phase without waiting. -/
  | btest (d : Fin 64) (a : Fin 64) (b : Fin 64)
  /-- R290. Makes a barrier object invalid. -/
  | binval (a : Fin 64)
  /-- R416. Starts an FE transfer from local memory to a peer. -/
  | rput (a : Fin 64)
  /-- R416. Starts an FE transfer from a peer to local memory. -/
  | rget (a : Fin 64)
  /-- R417. Arms a CTT entry from a collective descriptor. -/
  | ctarm (d : Fin 64) (a : Fin 64) (b : Fin 64)
  /-- R418. Frees a CTT entry, aborting a fired collective. -/
  | ctdisarm (d : Fin 64) (a : Fin 64)
  /-- R419. Reads a CTT entry state, a link status or a peer route word. -/
  | ctquery (d : Fin 64) (a : Fin 64) (b : Fin 64)
  /-- R214. Probes a translation without faulting. -/
  | xlate (d : Fin 64) (a : Fin 64) (b : Fin 64)
  /-- R215. Privileged TLB invalidation or fault resolution. -/
  | tlbinv (d : Fin 64) (a : Fin 64) (b : Fin 64)
  /-- R372. Claims a tile slot name for the workgroup. -/
  | tclaim (n : Fin 64)
  /-- R372. Releases an owned tile slot after its operations complete. -/
  | trel (n : Fin 64)
  /-- R374. Batched load of memory rows into a tile slot. -/
  | tld (n : Fin 64) (a : Fin 64) (c : Fin 64)
  /-- R372. Batched zeroing of a tile slot. -/
  | tzero (n : Fin 64)
  /-- R372. Allocates banks to an accumulator handle. -/
  | aballoc (n : Fin 64) (b : Fin 64)
  /-- R372. Frees an owned accumulator handle after its operations complete. -/
  | abfree (n : Fin 64)
  /-- R372. Batched zeroing of a handle's banks. -/
  | abzero (n : Fin 64)
  /-- R376. Batched matrix multiply-accumulate into a handle. -/
  | mma (s : Fin 32) (a : Fin 16) (b : Fin 16) (c : Fin 16) (t : Fin 16)
  /-- R376. Batched matrix multiply from a zero accumulator. -/
  | mmaZ (s : Fin 32) (a : Fin 16) (b : Fin 16) (c : Fin 16) (t : Fin 16)
  /-- R379. Batched sparse matrix multiply-accumulate after the swizzle check. -/
  | mmas (s : Fin 32) (a : Fin 16) (b : Fin 16) (c : Fin 16) (t : Fin 16)
  /-- R379. Batched sparse matrix multiply from zero. -/
  | mmasZ (s : Fin 32) (a : Fin 16) (b : Fin 16) (c : Fin 16) (t : Fin 16)
  /-- R377. Applies one left tile to each member's right tile. -/
  | mmaMb (s : Fin 32) (a : Fin 16) (b : Fin 16) (c : Fin 16) (t : Fin 16)
  /-- R377. Per-member matrix multiply from zero. -/
  | mmaMbZ (s : Fin 32) (a : Fin 16) (b : Fin 16) (c : Fin 16) (t : Fin 16)
  /-- R381. Closes the open batch and returns its number. -/
  | mfence (d : Fin 64)
  /-- R381. Waits for batches up to a number and acquires their results. -/
  | mwait (a : Fin 64)
  /-- R383. Batched load of memory into bank rows. -/
  | acld (a : Fin 64) (w : Fin 64) (c : Fin 16)
  /-- R383. Batched store of bank rows into memory. -/
  | acst (a : Fin 64) (w : Fin 64) (c : Fin 16)
  /-- R385. Zeroes an XA slot. -/
  | xinit (c : Fin 16) (k : Fin 8)
  /-- R385. Exactly adds f64 elements into an XA slot. -/
  | xaddF64 (v : Fin 128) (c : Fin 16) (k : Fin 8)
  /-- R385. Exactly adds f32 elements into an XA slot. -/
  | xaddF32 (v : Fin 128) (c : Fin 16) (k : Fin 8)
  /-- R385. Exactly adds f32 element products into an XA slot. -/
  | xaddpF32 (a : Fin 128) (c : Fin 16) (k : Fin 8) (b : Fin 128)
  /-- R385. Merges one XA slot into another. -/
  | xmerge (c : Fin 16) (k : Fin 8) (m : Fin 16) (j : Fin 8)
  /-- R385. Rounds an XA slot once to f64 into a vector pair. -/
  | xroundF64 (r : Fin 4) (d : Fin 128) (c : Fin 16) (k : Fin 8)
  /-- R380. Batched row sum of a tile into column 0 of a handle. -/
  | mred (s : Fin 8) (a : Fin 16) (c : Fin 16) (t : Fin 16)
  /-- R385. Rounds an XA slot once to f32 into a vector register. -/
  | xroundF32 (r : Fin 4) (d : Fin 128) (c : Fin 16) (k : Fin 8)
  /-- R387. Writes an XA slot to memory in compressed exact form. -/
  | xpack (c : Fin 16) (k : Fin 8) (a : Fin 64)
  /-- R387. Reads a compressed exact form from memory into an XA slot. -/
  | xunpack (c : Fin 16) (k : Fin 8) (a : Fin 64)
  /-- R387. Batched copy of 288 bytes from memory into an XA slot. -/
  | xld (c : Fin 16) (k : Fin 8) (a : Fin 64)
  /-- R387. Batched copy of an XA slot into 288 bytes of memory. -/
  | xst (c : Fin 16) (k : Fin 8) (a : Fin 64)
  /-- R166. Arrives at the slot's reconvergence frame and settles it. -/
  | join
  /-- R172. Returns through the slot's innermost call entry. -/
  | ret
  /-- R174. Advances the issuing slot's PC only. -/
  | nop
  /-- R155. Ends the issuing slot, or the group when it is the last live slot. -/
  | exit
  /-- R156. Ends the group and hands its slot and inherited state to the successor kernel. -/
  | exitSucc
  /-- R71. Fetch of an unassigned encoding raises ILLEGAL_INSN precisely. -/
  | illegalEncoding (raw : BitVec 32)
  /-- R95. Rereads CONS at least every 2^16 cycles while a record is held. -/
  | faultQueueConsPoll (ctx : Nat)
  /-- R312. A special-function queue entry writes its result and ORs its flags. -/
  | sfqEntryComplete (core : Nat)
  /-- R312. A conversion queue entry writes its result and ORs its flags. -/
  | cvtqEntryComplete (core : Nat)
  /-- R246. A load's value returns from its serving copy and writes the register. -/
  | loadReturn (core slot k line : Nat)
  /-- R364. Every operation of an ME batch has written its results, releasing waiting mwaits. -/
  | batchComplete (core slot k : Nat)
  /-- R192. The RGU finishes moving registers and the groups resume. -/
  | regroupMoveComplete (unit index : Nat)
  /-- R460. Write of CTXCMD word 0 queues the command or drops it setting CMDOVF. -/
  | ctxcmdSubmit (port : Nat) (word : BitVec 64)
  /-- R86. Creates a context from a valid descriptor and returns its id. -/
  | create
  /-- R86. Moves a context to DRAINING, cancelling launches and killing groups. -/
  | destroy
  /-- R93. Fences the subtree of the named region. -/
  | fence
  /-- R93. Reopens a fenced subtree whose dump is complete, killing the dumped groups. -/
  | resume
  /-- R88. Rereads one region control block. -/
  | rupdate
  /-- R112. Binds a queue from its descriptor and starts walking. -/
  | qbind
  /-- R113. Releases a drained queue id. -/
  | qunbind
  /-- R116. Restarts a STOPPED queue at PARSED. -/
  | qstart
  /-- R113. Completes every unstarted record of a queue with CANCELLED. -/
  | qcancel
  /-- R209. Resolves a pending fault entry by RETRY or FAIL. -/
  | fresolve
  /-- R212. Host TLB invalidation of a range or a whole context. -/
  | tlbinvCommand
  /-- R86. When scrubbing and shootdown end, writes DESTROY status and frees the id. -/
  | contextDrainComplete (ctx : Nat)
  /-- R115. Doorbell write makes the walker reread WPTR of the named queue. -/
  | qdoorbell (port queue : Nat)
  /-- R115. Walker rereads WPTR of an ACTIVE queue at least every 2^16 cycles. -/
  | wptrPoll (queue : Nat)
  /-- R120. Walker parses the next published record into the launch table. -/
  | walkerParse (queue : Nat)
  /-- R124. Scheduler places ready workgroups in priority and parse order when resources change. -/
  | selectionPass
  /-- R124. A launch unplaced for 2^20 scheduler cycles becomes reserving. -/
  | launchReserving (launch : Nat)
  /-- R184. A group takes PREEMPT at its first instruction boundary after its queues drain. -/
  | preempt (core slot : Nat)
  /-- R186. After 4,096 handler instructions without yield the group is saved whole. -/
  | phandlerLimit (core slot : Nat)
  /-- R138. A RETIRING unit's in-flight work ends and its resources are scrubbed and released. -/
  | unitRetire (unit : Nat)
  /-- R122. Releases, writes the status and completion, decrements successors and advances RETIRED. -/
  | launchComplete (launch : Nat)
  /-- R93. Outstanding operations of a fencing subtree complete and the dump begins. -/
  | fenceOutstandingComplete (ctx region : Nat)
  /-- R93. The dump is written; running launches complete REGION_FENCED and RCBs are marked. -/
  | fenceDumpComplete (ctx region : Nat)
  /-- R97. The counter reaches HANGLIM: writes the hang report and delivers HANG. -/
  | hangDetectorExpiry (ctx : Nat)
  /-- R101. Rotation wraps; ROUND increments and pending external events are admitted and logged. -/
  | drydownRoundBoundary (core : Nat)
  /-- R221. A home slice applies a store, forwards it to sharers and acknowledges. -/
  | storeAtHomeSlice (core slot k line : Nat)
  /-- R221. An L1 evicts a line and the home slice clears its sharer bit. -/
  | l1Eviction (core line : Nat)
  /-- R223. The LLC recalls a held line and the holder writes it back. -/
  | llcRecall (line : Nat)
  /-- R223. A holder die L2 evicts a line and writes it back. -/
  | dieL2Eviction (die line : Nat)
  /-- R226. The LLC evicts a line record and sends a shadow kill to all dies. -/
  | llcRecordEviction (line : Nat)
  /-- R226. A die discards its shadow and strikes watch lines naming the line. -/
  | shadowKill (die line : Nat)
  /-- R225. A shadow 2^20 die cycles old is discarded. -/
  | shadowExpiry (die line : Nat)
  /-- R247. A peer line copy 2^20 die cycles old is dropped. -/
  | peerCopyExpiry (die peer line : Nat)
  /-- R232. The LLC home or holder compares a watch line's version and confirms or strikes. -/
  | headnoteCheck (core slot entry line : Nat)
  /-- R233. A confirm or strike updates the watch entry's state. -/
  | headnoteCheckAnswer (core slot entry line : Nat)
  /-- R239. A bank ALU recalls the line if held and applies an atomic or xadd. -/
  | bankAluAtomic (core slot k : Nat)
  /-- R244. Each die discards dead stamps at least every 2^24 cycles. -/
  | stampSweep (die : Nat)
  /-- R241. An uncorrectable directory entry makes every core a sharer of the line. -/
  | directoryError (die line : Nat)
  /-- R242. An uncorrectable holder record recalls the line from all dies and restarts its version. -/
  | holderRecordError (line : Nat)
  /-- R455. A line's data error marks it poisoned in the LLC and HBM. -/
  | uncorrectableDataError (line : Nat)
  /-- R228. A CXL host takes a 64-byte half of a device line. -/
  | hostTakesHalf (port line : Nat) (high : Bool)
  /-- R228. The host answers a back-invalidate and the waiting device access proceeds. -/
  | backInvalidateResponse (port line : Nat) (high : Bool) (data : Option (List Byte))
  /-- R228. A host writes back or drops a half it held. -/
  | hostWriteback (port line : Nat) (high : Bool) (data : Option (List Byte))
  /-- R229. A host that does not answer within the retrain window has its port declared DOWN. -/
  | backInvalidateTimeout (port line : Nat) (high : Bool)
  /-- R397. A host read or write through BAR2 served at the LLC home. -/
  | hostBar2Access (port pa len : Nat) (data : Option (List Byte))
  /-- R397. A host AtomicOp executed at the bank ALU at host scope. -/
  | hostAtomicop (port pa : Nat) (op : HostAtomic)
  /-- R356. The copy engine starts an accepted command, up to 8 at once. -/
  | ceCommandStart (cmd : Nat)
  /-- R356. The CE writes one destination unit and counts its bytes. -/
  | ceUnitWrite (cmd row part : Nat)
  /-- R357. A CE retranslation fails; V=0 pauses the command, other failures end it. -/
  | cePageFault (cmd row part : Nat)
  /-- R356. A CE command has written and counted all its units. -/
  | ceCommandComplete (cmd : Nat)
  /-- R277. The barrier unit counts an applied unit's bytes into a phase and settles. -/
  | byteCount (k : Nat)
  /-- R416. The FE applies an rput or rget unit and counts it. -/
  | feUnitDeliver (cmd part : Nat) (reply : FeReply)
  /-- R401. An inbound peer access is checked against the export table and applied or refused. -/
  | peerAccessInbound (peer pa : Nat) (req : PeerReq)
  /-- R403. The flag reaches FIREVAL; the entry acquires and sends READY. -/
  | cttFire (entry : Nat)
  /-- R405. READY from the successor arrives; data may flow or parameters mismatch. -/
  | cttReadyReceive (entry : Nat) (ready : CttReady)
  /-- R405. A collective chunk arrives and is reduced or gathered. -/
  | cttDataReceive (entry element : Nat) (gather : Bool) (part : CttPart)
  /-- R405. The FE writes and counts a result unit; the last makes the entry DONE. -/
  | cttResultDeliver (entry part : Nat)
  /-- R411. ABORT from a ring neighbour makes the entry FAILED. -/
  | cttAbortReceive (entry : Nat)
  /-- R411. A route loss, fault or malformed CXF makes a fired entry FAILED. -/
  | cttFailure (entry : Nat) (why : CttFail)
  /-- R390. A link finishes training and enters UP or DEGRADED. -/
  | linkTrained (link width rate : Nat)
  /-- R390. Eight failed training attempts take a link DOWN. -/
  | linkTrainingFailed (link : Nat)
  /-- R390. A 16-fold replay, lane failure or error threshold starts RETRAINING. -/
  | linkErrorRetrain (link : Nat)
  /-- R390. The retrain window expires; the link goes DOWN and discards unacknowledged flits. -/
  | retwinExpiry (link : Nat) (applied : List Nat)
  /-- R392. A received flit is corrected, checked and accepted in order or NAKed. -/
  | flitReceive (port : Nat) (flit : List Byte)
  /-- R392. A NAK makes the sender resend from the named SEQ. -/
  | nakReceive (port expected : Nat)
  /-- R395. A destination applies end-to-end packets in sequence order and drops duplicates. -/
  | packetReceive (flow seq : Nat)
  /-- R390. Firmware command taking a DOWN link back to TRAINING. -/
  | enable (link : Nat)
  /-- R390. Firmware command taking a link to RETRAINING. -/
  | retrain (link : Nat)
  /-- R390. Firmware command retiring a link. -/
  | retire (link : Nat)
  /-- R393. Firmware write of a bus's rate or trim, applied through its retraining. -/
  | vbtWrite (bus : Nat) (word : BitVec 64)
  /-- R395. Firmware switches routing tables and sends DRAIN to an elevator router. -/
  | routerRetire (router : Nat)
  /-- R395. The draining router reports empty and is closed without replay. -/
  | routerDrainEmpty (router : Nat)
  /-- R395. No empty report within 2^16 cycles: close and replay unacknowledged packets. -/
  | routerDrainTimeout (router : Nat)
  /-- R26. Every 2 us the governor moves budget tokens and sets link caps. -/
  | governorTick (me link : Nat) (caps : List (Nat × Nat))
  /-- R26. A hardware current or temperature limit throttles matrix issue, then links. -/
  | safetyLimit (core : Nat)
  /-- R446. Supplies reach their limits; the whole device resets and boots. -/
  | powerOnReset
  /-- R447. Write of DEVRST.GO resets the device when allowed, else sets RSTREF. -/
  | devrst (port : Nat) (word : BitVec 64)
  /-- R446. FLR or hot reset drains the port's contexts and resets its registers. -/
  | portReset (port : Nat)
  /-- R448. After scrubbing, DEVSTAT becomes READY or FATAL and ports accept commands. -/
  | bootReady (config : BootConfig)
  /-- R451. The firmware watchdog expires and the device enters FATAL. -/
  | watchdogExpiry
  /-- R450. FWSTAGE.COMMIT verifies a staged image and writes the inactive slot. -/
  | firmwareCommit
  /-- R453. Write of ATTREQ word 0 queues an attestation request or drops it. -/
  | attestationSubmit (port : Nat) (word : BitVec 64)
  /-- R453. The device writes a signed report and the status word for a queued request. -/
  | attestationReport
  /-- R449. Firmware applies or refuses a POLREQ request and logs the outcome. -/
  | policyRequest (request : Nat) (change : PolicyChange)
  /-- R459. Host write of a management register with no behaviour of its own. -/
  | registerWrite (port offset : Nat) (word : BitVec 64)
  /-- R454. A single-bit ECC error is detected and corrected, and a corrected record of kind 1 is logged. -/
  | singleBitEcc (unit addr : Nat)
  /-- R91. An uncorrectable error in registers, tile slots, accumulator banks or scratch owned by a region's groups fences its fault domain whatever FPOL holds. -/
  | uncorrectableStateError (core slot : Nat)
  /-- R454. An uncorrectable error in walker, scheduler or barrier-unit state puts the device in FATAL. -/
  | uncorrectableControlStateError (unit : Nat)
  /-- R208. An rput or rget transfer that retranslates a page after a shootdown meets V=0 or another failure and writes a fault record with ENGINE and FE set. -/
  | feTransferFault (cmd part : Nat)
  /-- R263. A host acknowledges an earlier device write to host memory, letting a fence at .ho or .sy complete. -/
  | hostWriteAcknowledged (port k : Nat)
  /-- R349. The last named LLC line is written back to HBM and the waiting llcflush group resumes. -/
  | llcflushWritebackComplete (core slot : Nat)
  /-- R230. A host sends a CXL.cache snoop for a host line that a die L2 caches, and the device answers and drops or downgrades it. -/
  | cxlCacheSnoop (port line : Nat) (drop : Bool)
  deriving DecidableEq, Repr

end Sys2Proof
end

