-- ==== Sys2Proof/WellFormed.lean ====
section
/-! DEFINITION. Which instructions are well formed: the reserved field values of R61, R64, R67, R69, R71 to R74, R322 and
of the chapters' encoding tables, which every decoder refuses. Register names and widths are bounded by the types of
Syntax. A scope of 10 to 15 and an odd pair name are not reserved encodings: they trap (R11, R67). -/

namespace Sys2Proof

/-- No field holds a value that R71 makes an illegal encoding. An event is well formed whatever it carries. -/
def Instr.wf : Instr → Bool
  | .cvt r _ _ s t => decide (s.val < 14 ∧ t.val < 14 ∧ s ≠ t ∧ (r.val = 0 ∨ 8 ≤ s.val ∨ 8 ≤ t.val))
  | .faddF32Compact d s => decide (¬ (d.val = 0 ∧ s.val = 0))
  | .brc c _ => decide (1 ≤ c.val ∧ c.val ≤ 11)
  | .brd _ j _ => decide (2 ≤ j.val)
  | .tret k => decide (k.val < 2)
  | .mfcr _ c => decide (c.val < 22)
  | .mtcr c _ => decide (c.val < 22)
  | .mode _ k => decide (k.val < 2)
  | .ld t _ _ _ => decide (t.val < 15)
  | .st t _ _ _ => decide (t.val < 15)
  | .lds t _ _ _ => decide (t.val < 6)
  | .sts t _ _ _ => decide (t.val < 6)
  | .ldHn t _ _ _ => decide (4 ≤ t.val ∧ t.val ≤ 9)
  | .red o _ _ _ _ => decide (o.val ≤ 11 ∨ o.val = 15)
  | .pfetch l _ _ => decide (l.val < 2)
  | .barr s _ _ => decide (2 ≤ s.val)
  | .bwait s _ _ => decide (2 ≤ s.val)
  | .tclaim n => decide (n.val < 16)
  | .trel n => decide (n.val < 16)
  | .tld n _ _ => decide (n.val < 16)
  | .tzero n => decide (n.val < 16)
  | .aballoc n _ => decide (n.val < 16)
  | .abfree n => decide (n.val < 16)
  | .abzero n => decide (n.val < 16)
  | .mma _ _ _ _ t => decide (t.val < 10)
  | .mmaZ _ _ _ _ t => decide (t.val < 10)
  | .mmas _ _ _ _ t => decide (4 ≤ t.val ∧ t.val ≤ 7)
  | .mmasZ _ _ _ _ t => decide (4 ≤ t.val ∧ t.val ≤ 7)
  | .mmaMb _ _ _ _ t => decide (t.val < 10)
  | .mmaMbZ _ _ _ _ t => decide (t.val < 10)
  | .mred _ _ _ t => decide (t.val < 10)
  | .xinit _ k => decide (k.val < 7)
  | .xaddF64 _ _ k => decide (k.val < 7)
  | .xaddF32 _ _ k => decide (k.val < 7)
  | .xaddpF32 _ _ k _ => decide (k.val < 7)
  | .xmerge _ k _ j => decide (k.val < 7 ∧ j.val < 7)
  | .xroundF64 _ _ _ k => decide (k.val < 7)
  | .xroundF32 _ _ _ k => decide (k.val < 7)
  | .xpack _ k _ => decide (k.val < 7)
  | .xunpack _ k _ => decide (k.val < 7)
  | .xld _ k _ => decide (k.val < 7)
  | .xst _ k _ => decide (k.val < 7)
  | _ => true

/-- The instruction has a well-formed encoding or is an event (R71). -/
abbrev Instr.WellFormed (i : Instr) : Prop := i.wf = true

end Sys2Proof
end

