-- ==== Sys2Proof/Decode.lean ====
section
/-! DEFINITION. The decoder of R59 to R74, total on any bytes, and the encoder written from the same tables of R60,
R62, R64 and R69. The decoder splits on the major opcode and the minor or operation field, tests the fields that the
layout marks zero, and last the reserved field values (Instr.wf). -/

namespace Sys2Proof

/-- Why a word is no instruction (R71). -/
inductive DecodeError where
  /-- Majors 0x00, 0x16, 0x17, 0x2C to 0x2F, 0x3A to 0x3F: raised by decodeWord; safe, the trap is ILLEGAL_INSN. -/
  | reservedMajor
  /-- A minor, operation or condition that R69 does not assign: raised by decodeWord; safe. -/
  | reservedMinor
  /-- A nonzero field that R62 or R64 marks zero: raised by decodeWord; safe. -/
  | reservedBits
  /-- A reserved field value, the halfword 0x0000 among them: raised by decodeWord and decodeHalf; safe. -/
  | reservedValue
  /-- Fewer bytes than the instruction has: raised by decodeBytes; safe, no part of it runs (R59). -/
  | truncated
  deriving DecidableEq, Repr

/-- The encoded rows with fields whose constructors stand past number 243 of Instr (log 3). -/
inductive Late where
  | mred (s : Fin 8) (a : Fin 16) (c : Fin 16) (t : Fin 16)
  | xroundF32 (r : Fin 4) (d : Fin 128) (c : Fin 16) (k : Fin 8)
  | xpack (c : Fin 16) (k : Fin 8) (a : Fin 64)
  | xunpack (c : Fin 16) (k : Fin 8) (a : Fin 64)
  | xld (c : Fin 16) (k : Fin 8) (a : Fin 64)
  | xst (c : Fin 16) (k : Fin 8) (a : Fin 64)
  deriving DecidableEq, Repr

/-- What the decoder reads, in a form that compiled code can build; Read.instr gives the instruction itself. -/
inductive Read where
  | now (i : Instr)
  | late (l : Late)
  deriving DecidableEq, Repr

/-- The instruction of a late row. -/
noncomputable def Late.instr : Late → Instr
  | .mred s a c t => .mred s a c t
  | .xroundF32 r d c k => .xroundF32 r d c k
  | .xpack c k a => .xpack c k a
  | .xunpack c k a => .xunpack c k a
  | .xld c k a => .xld c k a
  | .xst c k a => .xst c k a

/-- The instruction that was read. -/
noncomputable def Read.instr : Read → Instr
  | .now i => i
  | .late l => l.instr

/-- Instr.wf of the instruction that was read (Instr.wf and this agree: Read.wf_eq in Laws/Decode). -/
def Read.wf : Read → Bool
  | .now i => i.wf
  | .late (.mred _ _ _ t) => decide (t.val < 10)
  | .late (.xroundF32 _ _ _ k) => decide (k.val < 7)
  | .late (.xpack _ k _) => decide (k.val < 7)
  | .late (.xunpack _ k _) => decide (k.val < 7)
  | .late (.xld _ k _) => decide (k.val < 7)
  | .late (.xst _ k _) => decide (k.val < 7)

namespace Decode

/-- The field of width n at bit lo. -/
def fld (w lo n : Nat) : Nat := w / 2 ^ lo % 2 ^ n

/-- An n-bit immediate at bit lo. -/
def bv (n w lo : Nat) : BitVec n := BitVec.ofNat n (fld w lo n)

def fin1 (w lo : Nat) : Fin 2 := ⟨fld w lo 1, Nat.mod_lt _ (by decide)⟩
def fin2 (w lo : Nat) : Fin 4 := ⟨fld w lo 2, Nat.mod_lt _ (by decide)⟩
def fin3 (w lo : Nat) : Fin 8 := ⟨fld w lo 3, Nat.mod_lt _ (by decide)⟩
def fin4 (w lo : Nat) : Fin 16 := ⟨fld w lo 4, Nat.mod_lt _ (by decide)⟩
def fin5 (w lo : Nat) : Fin 32 := ⟨fld w lo 5, Nat.mod_lt _ (by decide)⟩
def fin6 (w lo : Nat) : Fin 64 := ⟨fld w lo 6, Nat.mod_lt _ (by decide)⟩
def fin7 (w lo : Nat) : Fin 128 := ⟨fld w lo 7, Nat.mod_lt _ (by decide)⟩
def fin10 (w lo : Nat) : Fin 1024 := ⟨fld w lo 10, Nat.mod_lt _ (by decide)⟩

/-- The second source of R63: bit 10 selects, a uniform register lies in [30:25]. -/
def src (w : Nat) : VSrc := if fld w 10 1 = 0 then .v (fin7 w 25) else .s (fin6 w 25)

/-- Bit [31] is reserved beside a uniform second source (R63). -/
abbrev srcOk (w : Nat) : Prop := fld w 10 1 = 0 ∨ fld w 31 1 = 0

/-- The index register of the M layout, present when bit [31] is 1 (R62). -/
def idx (w : Nat) : Option (Fin 128) := if fld w 31 1 = 0 then none else some (fin7 w 24)

/-- With index-present 0, [30:24] is zero (R62). -/
abbrev idxOk (w : Nat) : Prop := fld w 31 1 = 1 ∨ fld w 24 7 = 0

/-- The source type of cvt: minor[3] above [27:25] (R64). -/
def cvtSrc (w : Nat) : Fin 16 := ⟨fld w 10 1 * 8 + fld w 25 3, by
  have h1 : fld w 10 1 < 2 := Nat.mod_lt _ (by decide)
  have h2 : fld w 25 3 < 8 := Nat.mod_lt _ (by decide)
  omega⟩

/-- Fields that the layout marks zero are zero, or the word is refused (R71). -/
def keep (ok : Bool) (i : Instr) : Except DecodeError Read := if ok then .ok (.now i) else .error .reservedBits

/-- The same for the rows of Late. -/
def keepLate (ok : Bool) (l : Late) : Except DecodeError Read := if ok then .ok (.late l) else .error .reservedBits

/-- Major 0x01 of R69. -/
def major01 (w : Nat) : Except DecodeError Read :=
  match fld w 7 3 with
  | 0 => keep (decide (srcOk w)) (.vaddI32 (fin7 w 11) (fin7 w 18) (src w))
  | 1 => keep (decide (srcOk w)) (.vsubI32 (fin7 w 11) (fin7 w 18) (src w))
  | 2 => keep (decide (srcOk w)) (.vmulI32 (fin7 w 11) (fin7 w 18) (src w))
  | 3 => keep (decide (srcOk w)) (.vmulhI32 (fin7 w 11) (fin7 w 18) (src w))
  | 4 => keep (decide (srcOk w)) (.vmulhN32 (fin7 w 11) (fin7 w 18) (src w))
  | 5 => keep (decide (srcOk w)) (.vminI32 (fin7 w 11) (fin7 w 18) (src w))
  | 6 => keep (decide (srcOk w)) (.vmaxI32 (fin7 w 11) (fin7 w 18) (src w))
  | 7 => keep (decide (srcOk w)) (.vaddI64 (fin7 w 11) (fin7 w 18) (src w))
  | _ => .error .reservedMinor

/-- Major 0x02 of R69. -/
def major02 (w : Nat) : Except DecodeError Read :=
  match fld w 7 3 with
  | 0 => keep (decide (srcOk w)) (.vshl (fin7 w 11) (fin7 w 18) (src w))
  | 1 => keep (decide (srcOk w)) (.vshr (fin7 w 11) (fin7 w 18) (src w))
  | 2 => keep (decide (srcOk w)) (.vsar (fin7 w 11) (fin7 w 18) (src w))
  | 3 => keep (decide (srcOk w)) (.vand (fin7 w 11) (fin7 w 18) (src w))
  | 4 => keep (decide (srcOk w)) (.vor (fin7 w 11) (fin7 w 18) (src w))
  | 5 => keep (decide (srcOk w)) (.vxor (fin7 w 11) (fin7 w 18) (src w))
  | 6 => keep (decide (srcOk w)) (.vbfx (fin7 w 11) (fin7 w 18) (src w))
  | 7 => keep (decide (srcOk w)) (.vsubI64 (fin7 w 11) (fin7 w 18) (src w))
  | _ => .error .reservedMinor

/-- Major 0x03 of R69. -/
def major03 (w : Nat) : Except DecodeError Read :=
  match fld w 7 3 with
  | 0 => keep (decide (fld w 14 4 = 0 ∧ srcOk w)) (.vcmpEqI32 (fin3 w 11) (fin7 w 18) (src w))
  | 1 => keep (decide (fld w 14 4 = 0 ∧ srcOk w)) (.vcmpNeI32 (fin3 w 11) (fin7 w 18) (src w))
  | 2 => keep (decide (fld w 14 4 = 0 ∧ srcOk w)) (.vcmpLtI32 (fin3 w 11) (fin7 w 18) (src w))
  | 3 => keep (decide (fld w 14 4 = 0 ∧ srcOk w)) (.vcmpLeI32 (fin3 w 11) (fin7 w 18) (src w))
  | 4 => keep (decide (fld w 14 4 = 0 ∧ srcOk w)) (.vcmpLtN32 (fin3 w 11) (fin7 w 18) (src w))
  | 5 => keep (decide (fld w 14 4 = 0 ∧ srcOk w)) (.vcmpLeN32 (fin3 w 11) (fin7 w 18) (src w))
  | 6 => keep (decide (fld w 14 4 = 0 ∧ srcOk w)) (.vcmpEqI64 (fin3 w 11) (fin7 w 18) (src w))
  | 7 => keep (decide (fld w 14 4 = 0 ∧ srcOk w)) (.vcmpLtI64 (fin3 w 11) (fin7 w 18) (src w))
  | _ => .error .reservedMinor

/-- Major 0x04 of R69. -/
def major04 (w : Nat) : Except DecodeError Read := .ok (.now (.vaddi (fin7 w 7) (fin7 w 14) (bv 11 w 21)))

/-- Major 0x05 of R69. -/
def major05 (w : Nat) : Except DecodeError Read :=
  match fld w 30 2 with
  | 0 => .ok (.now (.vandi (fin7 w 7) (fin7 w 14) (bv 9 w 21)))
  | 1 => .ok (.now (.vori (fin7 w 7) (fin7 w 14) (bv 9 w 21)))
  | 2 => .ok (.now (.vxori (fin7 w 7) (fin7 w 14) (bv 9 w 21)))
  | _ => .error .reservedMinor

/-- Major 0x06 of R69. -/
def major06 (w : Nat) : Except DecodeError Read :=
  match fld w 29 3 with
  | 0 => keep (decide (fld w 26 3 = 0)) (.vshli (fin7 w 7) (fin7 w 14) (fin5 w 21))
  | 1 => keep (decide (fld w 26 3 = 0)) (.vshri (fin7 w 7) (fin7 w 14) (fin5 w 21))
  | 2 => keep (decide (fld w 26 3 = 0)) (.vsari (fin7 w 7) (fin7 w 14) (fin5 w 21))
  | 3 => keep (decide (fld w 26 3 = 0)) (.vroli (fin7 w 7) (fin7 w 14) (fin5 w 21))
  | 4 => keep (decide (fld w 21 8 = 0)) (.vpopc (fin7 w 7) (fin7 w 14))
  | 5 => keep (decide (fld w 21 8 = 0)) (.vclz (fin7 w 7) (fin7 w 14))
  | 6 => keep (decide (fld w 21 8 = 0)) (.vbrev (fin7 w 7) (fin7 w 14))
  | _ => .error .reservedMinor

/-- Major 0x07 of R69. -/
def major07 (w : Nat) : Except DecodeError Read :=
  match fld w 29 3 with
  | 0 => keep (decide (fld w 10 4 = 0)) (.vcmpiEq (fin3 w 7) (fin7 w 14) (bv 8 w 21))
  | 1 => keep (decide (fld w 10 4 = 0)) (.vcmpiNe (fin3 w 7) (fin7 w 14) (bv 8 w 21))
  | 2 => keep (decide (fld w 10 4 = 0)) (.vcmpiLtI32 (fin3 w 7) (fin7 w 14) (bv 8 w 21))
  | 3 => keep (decide (fld w 10 4 = 0)) (.vcmpiLeI32 (fin3 w 7) (fin7 w 14) (bv 8 w 21))
  | 4 => keep (decide (fld w 10 4 = 0)) (.vcmpiGtI32 (fin3 w 7) (fin7 w 14) (bv 8 w 21))
  | 5 => keep (decide (fld w 10 4 = 0)) (.vcmpiGeI32 (fin3 w 7) (fin7 w 14) (bv 8 w 21))
  | 6 => keep (decide (fld w 10 4 = 0)) (.vcmpiLtN32 (fin3 w 7) (fin7 w 14) (bv 8 w 21))
  | 7 => keep (decide (fld w 10 4 = 0)) (.vcmpiGeN32 (fin3 w 7) (fin7 w 14) (bv 8 w 21))
  | _ => .error .reservedMinor

/-- Major 0x08 of R69. -/
def major08 (w : Nat) : Except DecodeError Read :=
  match fld w 7 3 with
  | 0 => keep (decide (srcOk w)) (.faddF32 (fin7 w 11) (fin7 w 18) (src w))
  | 1 => keep (decide (srcOk w)) (.fsubF32 (fin7 w 11) (fin7 w 18) (src w))
  | 2 => keep (decide (srcOk w)) (.fmulF32 (fin7 w 11) (fin7 w 18) (src w))
  | 3 => keep (decide (srcOk w)) (.fminF32 (fin7 w 11) (fin7 w 18) (src w))
  | 4 => keep (decide (srcOk w)) (.fmaxF32 (fin7 w 11) (fin7 w 18) (src w))
  | 5 => keep (decide (srcOk w)) (.fminNanF32 (fin7 w 11) (fin7 w 18) (src w))
  | 6 => keep (decide (srcOk w)) (.fmaxNanF32 (fin7 w 11) (fin7 w 18) (src w))
  | 7 => keep (decide (srcOk w)) (.fcpsgnF32 (fin7 w 11) (fin7 w 18) (src w))
  | _ => .error .reservedMinor

/-- Major 0x09 of R69. -/
def major09 (w : Nat) : Except DecodeError Read :=
  match fld w 7 3 with
  | 0 => keep (decide (srcOk w)) (.faddF64 (fin7 w 11) (fin7 w 18) (src w))
  | 1 => keep (decide (srcOk w)) (.fsubF64 (fin7 w 11) (fin7 w 18) (src w))
  | 2 => keep (decide (srcOk w)) (.fmulF64 (fin7 w 11) (fin7 w 18) (src w))
  | 3 => keep (decide (srcOk w)) (.fminF64 (fin7 w 11) (fin7 w 18) (src w))
  | 4 => keep (decide (srcOk w)) (.fmaxF64 (fin7 w 11) (fin7 w 18) (src w))
  | 5 => keep (decide (srcOk w)) (.fminNanF64 (fin7 w 11) (fin7 w 18) (src w))
  | 6 => keep (decide (srcOk w)) (.fmaxNanF64 (fin7 w 11) (fin7 w 18) (src w))
  | 7 => keep (decide (srcOk w)) (.fcpsgnF64 (fin7 w 11) (fin7 w 18) (src w))
  | _ => .error .reservedMinor

/-- Major 0x0A of R69. -/
def major0A (w : Nat) : Except DecodeError Read :=
  match fld w 7 2 with
  | 0 => keep (decide (srcOk w)) (.faddH2 (fin1 w 9) (fin7 w 11) (fin7 w 18) (src w))
  | 1 => keep (decide (srcOk w)) (.fsubH2 (fin1 w 9) (fin7 w 11) (fin7 w 18) (src w))
  | 2 => keep (decide (srcOk w)) (.fmulH2 (fin1 w 9) (fin7 w 11) (fin7 w 18) (src w))
  | 3 => keep (decide (srcOk w)) (.fmaH2 (fin1 w 9) (fin7 w 11) (fin7 w 18) (src w))
  | _ => .error .reservedMinor

/-- Major 0x0B of R69. -/
def major0B (w : Nat) : Except DecodeError Read :=
  match fld w 7 3 with
  | 0 => keep (decide (fld w 14 4 = 0 ∧ srcOk w)) (.fcmpEqF32 (fin3 w 11) (fin7 w 18) (src w))
  | 1 => keep (decide (fld w 14 4 = 0 ∧ srcOk w)) (.fcmpLtF32 (fin3 w 11) (fin7 w 18) (src w))
  | 2 => keep (decide (fld w 14 4 = 0 ∧ srcOk w)) (.fcmpLeF32 (fin3 w 11) (fin7 w 18) (src w))
  | 3 => keep (decide (fld w 14 4 = 0 ∧ srcOk w)) (.fcmpUnF32 (fin3 w 11) (fin7 w 18) (src w))
  | 4 => keep (decide (fld w 14 4 = 0 ∧ srcOk w)) (.fcmpEqF64 (fin3 w 11) (fin7 w 18) (src w))
  | 5 => keep (decide (fld w 14 4 = 0 ∧ srcOk w)) (.fcmpLtF64 (fin3 w 11) (fin7 w 18) (src w))
  | 6 => keep (decide (fld w 14 4 = 0 ∧ srcOk w)) (.fcmpLeF64 (fin3 w 11) (fin7 w 18) (src w))
  | 7 => keep (decide (fld w 14 4 = 0 ∧ srcOk w)) (.fcmpUnF64 (fin3 w 11) (fin7 w 18) (src w))
  | _ => .error .reservedMinor

/-- Major 0x0C of R69. -/
def major0C (w : Nat) : Except DecodeError Read :=
  match fld w 9 2 with
  | 0 => .ok (.now (.fmaF32 (fin2 w 7) (fin7 w 11) (fin7 w 18) (fin7 w 25)))
  | 1 => .ok (.now (.fnmaF32 (fin2 w 7) (fin7 w 11) (fin7 w 18) (fin7 w 25)))
  | 2 => .ok (.now (.fmaF64 (fin2 w 7) (fin7 w 11) (fin7 w 18) (fin7 w 25)))
  | 3 => .ok (.now (.fnmaF64 (fin2 w 7) (fin7 w 11) (fin7 w 18) (fin7 w 25)))
  | _ => .error .reservedMinor

/-- Major 0x0D of R69. -/
def major0D (w : Nat) : Except DecodeError Read := keep (decide (fld w 9 1 = 0)) (.cvt (fin2 w 7) (fin7 w 11) (fin7 w 18) (cvtSrc w) (fin4 w 28))

/-- Major 0x0E of R69. -/
def major0E (w : Nat) : Except DecodeError Read :=
  match fld w 7 4 with
  | 0 => keep (decide (fld w 25 7 = 0)) (.frcpF32 (fin7 w 11) (fin7 w 18))
  | 1 => keep (decide (fld w 25 7 = 0)) (.frsqrtF32 (fin7 w 11) (fin7 w 18))
  | 2 => keep (decide (fld w 25 7 = 0)) (.fsqrtF32 (fin7 w 11) (fin7 w 18))
  | 3 => .ok (.now (.fdivF32 (fin7 w 11) (fin7 w 18) (fin7 w 25)))
  | 4 => keep (decide (fld w 25 7 = 0)) (.fexp2F32 (fin7 w 11) (fin7 w 18))
  | 5 => keep (decide (fld w 25 7 = 0)) (.flog2F32 (fin7 w 11) (fin7 w 18))
  | 6 => keep (decide (fld w 25 7 = 0)) (.fsinF32 (fin7 w 11) (fin7 w 18))
  | 7 => keep (decide (fld w 25 7 = 0)) (.fcosF32 (fin7 w 11) (fin7 w 18))
  | 8 => keep (decide (fld w 25 7 = 0)) (.fsqrtF64 (fin7 w 11) (fin7 w 18))
  | 9 => .ok (.now (.fdivF64 (fin7 w 11) (fin7 w 18) (fin7 w 25)))
  | 10 => keep (decide (fld w 25 7 = 0)) (.frcpF64 (fin7 w 11) (fin7 w 18))
  | 11 => keep (decide (fld w 25 7 = 0)) (.ftanhF32 (fin7 w 11) (fin7 w 18))
  | 12 => keep (decide (fld w 25 7 = 0)) (.fclassF32 (fin7 w 11) (fin7 w 18))
  | 13 => keep (decide (fld w 25 7 = 0)) (.fclassF64 (fin7 w 11) (fin7 w 18))
  | 14 => keep (decide (fld w 27 5 = 0)) (.froundF32 (fin7 w 11) (fin7 w 18) (fin2 w 25))
  | 15 => keep (decide (fld w 27 5 = 0)) (.froundF64 (fin7 w 11) (fin7 w 18) (fin2 w 25))
  | _ => .error .reservedMinor

/-- Major 0x0F of R69. -/
def major0F (w : Nat) : Except DecodeError Read :=
  match fld w 7 4 with
  | 0 => .ok (.now (.shflIdx (fin7 w 11) (fin7 w 18) (fin7 w 25)))
  | 1 => keep (decide (fld w 31 1 = 0)) (.shflUp (fin7 w 11) (fin7 w 18) (fin6 w 25))
  | 2 => keep (decide (fld w 31 1 = 0)) (.shflDown (fin7 w 11) (fin7 w 18) (fin6 w 25))
  | 3 => keep (decide (fld w 31 1 = 0)) (.shflXor (fin7 w 11) (fin7 w 18) (fin6 w 25))
  | 4 => .ok (.now (.mshfl (fin7 w 11) (fin7 w 18) (fin7 w 25)))
  | 5 => keep (decide (fld w 17 1 = 0 ∧ fld w 31 1 = 0)) (.vmovs (fin6 w 11) (fin7 w 18) (fin6 w 25))
  | 6 => keep (decide (fld w 31 1 = 0)) (.vlane (fin7 w 11) (fin7 w 18) (fin6 w 25))
  | 8 => keep (decide (fld w 25 7 = 0)) (.mstatMeanF32 (fin7 w 11) (fin7 w 18))
  | 9 => keep (decide (fld w 25 7 = 0)) (.mstatVarF32 (fin7 w 11) (fin7 w 18))
  | 10 => keep (decide (fld w 25 7 = 0)) (.mstatMeanF64 (fin7 w 11) (fin7 w 18))
  | 11 => keep (decide (fld w 25 7 = 0)) (.mstatVarF64 (fin7 w 11) (fin7 w 18))
  | 12 => keep (decide (fld w 31 1 = 0)) (.mstatQuantF32 (fin7 w 11) (fin7 w 18) (fin6 w 25))
  | 13 => .ok (.now (.mstatRankF32 (fin7 w 11) (fin7 w 18) (fin7 w 25)))
  | 14 => keep (decide (fld w 25 7 = 0)) (.mstatMinF32 (fin7 w 11) (fin7 w 18))
  | 15 => keep (decide (fld w 25 7 = 0)) (.mstatMaxF32 (fin7 w 11) (fin7 w 18))
  | _ => .error .reservedMinor

/-- Major 0x10 of R69. -/
def major10 (w : Nat) : Except DecodeError Read :=
  match fld w 7 5 with
  | 0 => keep (decide (fld w 30 2 = 0)) (.sadd (fin6 w 12) (fin6 w 18) (fin6 w 24))
  | 1 => keep (decide (fld w 30 2 = 0)) (.ssub (fin6 w 12) (fin6 w 18) (fin6 w 24))
  | 2 => keep (decide (fld w 30 2 = 0)) (.smul (fin6 w 12) (fin6 w 18) (fin6 w 24))
  | 3 => keep (decide (fld w 30 2 = 0)) (.smulhI64 (fin6 w 12) (fin6 w 18) (fin6 w 24))
  | 4 => keep (decide (fld w 30 2 = 0)) (.smulhN64 (fin6 w 12) (fin6 w 18) (fin6 w 24))
  | 5 => keep (decide (fld w 30 2 = 0)) (.sand (fin6 w 12) (fin6 w 18) (fin6 w 24))
  | 6 => keep (decide (fld w 30 2 = 0)) (.sor (fin6 w 12) (fin6 w 18) (fin6 w 24))
  | 7 => keep (decide (fld w 30 2 = 0)) (.sxor (fin6 w 12) (fin6 w 18) (fin6 w 24))
  | 8 => keep (decide (fld w 30 2 = 0)) (.sshl (fin6 w 12) (fin6 w 18) (fin6 w 24))
  | 9 => keep (decide (fld w 30 2 = 0)) (.sshr (fin6 w 12) (fin6 w 18) (fin6 w 24))
  | 10 => keep (decide (fld w 30 2 = 0)) (.ssar (fin6 w 12) (fin6 w 18) (fin6 w 24))
  | 11 => keep (decide (fld w 30 2 = 0)) (.sminI64 (fin6 w 12) (fin6 w 18) (fin6 w 24))
  | 12 => keep (decide (fld w 30 2 = 0)) (.smaxI64 (fin6 w 12) (fin6 w 18) (fin6 w 24))
  | 13 => keep (decide (fld w 30 2 = 0)) (.sminN64 (fin6 w 12) (fin6 w 18) (fin6 w 24))
  | 14 => keep (decide (fld w 30 2 = 0)) (.smaxN64 (fin6 w 12) (fin6 w 18) (fin6 w 24))
  | 15 => keep (decide (fld w 24 8 = 0)) (.smov (fin6 w 12) (fin6 w 18))
  | 16 => keep (decide (fld w 24 8 = 0)) (.spopc (fin6 w 12) (fin6 w 18))
  | 17 => keep (decide (fld w 24 8 = 0)) (.sclz (fin6 w 12) (fin6 w 18))
  | 18 => keep (decide (fld w 30 2 = 0)) (.sdivI64 (fin6 w 12) (fin6 w 18) (fin6 w 24))
  | 19 => keep (decide (fld w 30 2 = 0)) (.sdivN64 (fin6 w 12) (fin6 w 18) (fin6 w 24))
  | 20 => keep (decide (fld w 30 2 = 0)) (.sremI64 (fin6 w 12) (fin6 w 18) (fin6 w 24))
  | 21 => keep (decide (fld w 30 2 = 0)) (.sremN64 (fin6 w 12) (fin6 w 18) (fin6 w 24))
  | 22 => keep (decide (fld w 30 2 = 0)) (.sshli (fin6 w 12) (fin6 w 18) (fin6 w 24))
  | 23 => keep (decide (fld w 30 2 = 0)) (.sshri (fin6 w 12) (fin6 w 18) (fin6 w 24))
  | 24 => keep (decide (fld w 30 2 = 0)) (.ssari (fin6 w 12) (fin6 w 18) (fin6 w 24))
  | _ => .error .reservedMinor

/-- Major 0x11 of R69. -/
def major11 (w : Nat) : Except DecodeError Read :=
  match fld w 13 1 * 2 + fld w 20 1 with
  | 0 => .ok (.now (.saddi (fin6 w 7) (fin6 w 14) (bv 11 w 21)))
  | 1 => .ok (.now (.sandi (fin6 w 7) (fin6 w 14) (bv 11 w 21)))
  | 2 => .ok (.now (.sori (fin6 w 7) (fin6 w 14) (bv 11 w 21)))
  | 3 => .ok (.now (.sxori (fin6 w 7) (fin6 w 14) (bv 11 w 21)))
  | _ => .error .reservedMinor

/-- Major 0x12 of R69. -/
def major12 (w : Nat) : Except DecodeError Read :=
  match fld w 31 1 with
  | 0 => .ok (.now (.sli (fin6 w 7) (bv 18 w 13)))
  | 1 => .ok (.now (.slih (fin6 w 7) (bv 18 w 13)))
  | _ => .error .reservedMinor

/-- Major 0x13 of R69. -/
def major13 (w : Nat) : Except DecodeError Read :=
  match fld w 7 5 with
  | 0 => keep (decide (fld w 12 6 = 0 ∧ fld w 30 2 = 0)) (.scmp (fin6 w 18) (fin6 w 24))
  | 1 => keep (decide (fld w 12 6 = 0 ∧ fld w 30 2 = 0)) (.scmpi (fin6 w 18) (bv 6 w 24))
  | 2 => keep (decide (fld w 12 6 = 0 ∧ fld w 30 2 = 0)) (.stest (fin6 w 18) (fin6 w 24))
  | _ => .error .reservedMinor

/-- Major 0x14 of R69. -/
def major14 (w : Nat) : Except DecodeError Read :=
  match fld w 7 4 with
  | 0 => keep (decide (fld w 14 4 = 0 ∧ fld w 21 4 = 0 ∧ fld w 28 4 = 0)) (.pand (fin3 w 11) (fin3 w 18) (fin3 w 25))
  | 1 => keep (decide (fld w 14 4 = 0 ∧ fld w 21 4 = 0 ∧ fld w 28 4 = 0)) (.por (fin3 w 11) (fin3 w 18) (fin3 w 25))
  | 2 => keep (decide (fld w 14 4 = 0 ∧ fld w 21 4 = 0 ∧ fld w 28 4 = 0)) (.pxor (fin3 w 11) (fin3 w 18) (fin3 w 25))
  | 3 => keep (decide (fld w 14 4 = 0 ∧ fld w 21 4 = 0 ∧ fld w 28 4 = 0)) (.pandn (fin3 w 11) (fin3 w 18) (fin3 w 25))
  | 4 => keep (decide (fld w 14 4 = 0 ∧ fld w 21 11 = 0)) (.pnot (fin3 w 11) (fin3 w 18))
  | 5 => keep (decide (fld w 14 18 = 0)) (.pset (fin3 w 11))
  | 6 => keep (decide (fld w 14 18 = 0)) (.pclr (fin3 w 11))
  | 7 => keep (decide (fld w 17 1 = 0 ∧ fld w 21 11 = 0)) (.ppopc (fin6 w 11) (fin3 w 18))
  | _ => .error .reservedMinor

/-- Major 0x15 of R69. -/
def major15 (w : Nat) : Except DecodeError Read :=
  match fld w 7 4 with
  | 0 | 1 | 2 | 3 | 4 | 5 | 6 | 7 => .ok (.now (.vsel (fin3 w 7) (fin7 w 11) (fin7 w 18) (fin7 w 25)))
  | 8 => keep (decide (fld w 25 7 = 0)) (.vmov (fin7 w 11) (fin7 w 18))
  | 9 => keep (decide (fld w 24 8 = 0)) (.vbcast (fin7 w 11) (fin6 w 18))
  | 10 => keep (decide (fld w 14 4 = 0 ∧ fld w 21 11 = 0)) (.pmov (fin3 w 11) (fin3 w 18))
  | 11 => keep (decide (fld w 17 1 = 0 ∧ fld w 21 4 = 0 ∧ fld w 27 5 = 0)) (.pext (fin6 w 11) (fin3 w 18) (fin2 w 25))
  | 12 => keep (decide (fld w 14 4 = 0 ∧ fld w 24 1 = 0 ∧ fld w 27 5 = 0)) (.pins (fin3 w 11) (fin6 w 18) (fin2 w 25))
  | 13 => keep (decide (fld w 21 11 = 0)) (.vmovp (fin7 w 11) (fin3 w 18))
  | 14 => keep (decide (fld w 14 4 = 0 ∧ fld w 25 7 = 0)) (.pmovv (fin3 w 11) (fin7 w 18))
  | _ => .error .reservedMinor

/-- Major 0x18 of R69. -/
def major18 (w : Nat) : Except DecodeError Read :=
  match fld w 7 4 with
  | 0 => .ok (.now (.bra (bv 21 w 11)))
  | _ => .ok (.now (.brc (fin4 w 7) (bv 21 w 11)))

/-- Major 0x19 of R69. -/
def major19 (w : Nat) : Except DecodeError Read :=
  match fld w 10 1 with
  | 0 => .ok (.now (.brd (fin3 w 7) (fin10 w 11) (bv 11 w 21)))
  | 1 => keep (decide (fld w 7 3 = 0 ∧ fld w 11 21 = 0)) (.join)
  | _ => .error .reservedMinor

/-- Major 0x1A of R69. -/
def major1A (w : Nat) : Except DecodeError Read :=
  match fld w 7 4 with
  | 0 => .ok (.now (.call (bv 21 w 11)))
  | 1 => keep (decide (fld w 11 21 = 0)) (.ret)
  | 2 => keep (decide (fld w 17 15 = 0)) (.jmpi (fin6 w 11))
  | _ => .error .reservedMinor

/-- Major 0x1B of R69. -/
def major1B (w : Nat) : Except DecodeError Read := .ok (.now (.loop (fin4 w 7) (bv 21 w 11)))

/-- Major 0x1C of R69. -/
def major1C (w : Nat) : Except DecodeError Read :=
  match fld w 7 5 with
  | 0 => keep (decide (fld w 12 20 = 0)) (.nop)
  | 1 => keep (decide (fld w 12 12 = 0 ∧ fld w 30 2 = 0)) (.trap (fin6 w 24))
  | 2 => keep (decide (fld w 12 12 = 0 ∧ fld w 30 2 = 0)) (.tret (fin6 w 24))
  | 3 => keep (decide (fld w 12 6 = 0 ∧ fld w 30 2 = 0)) (.yield (fin6 w 18) (fin6 w 24))
  | 4 => keep (decide (fld w 30 2 = 0)) (.ginsp (fin6 w 12) (fin6 w 18) (fin6 w 24))
  | 5 => keep (decide (fld w 12 6 = 0 ∧ fld w 30 2 = 0)) (.gresume (fin6 w 18) (fin6 w 24))
  | _ => .error .reservedMinor

/-- Major 0x1D of R69. -/
def major1D (w : Nat) : Except DecodeError Read :=
  match fld w 7 5 with
  | 0 => keep (decide (fld w 12 20 = 0)) (.exit)
  | 1 => keep (decide (fld w 12 20 = 0)) (.exitSucc)
  | 2 => keep (decide (fld w 30 2 = 0)) (.enq (fin6 w 12) (fin6 w 18) (fin6 w 24))
  | _ => .error .reservedMinor

/-- Major 0x1E of R69. -/
def major1E (w : Nat) : Except DecodeError Read :=
  match fld w 7 5 with
  | 0 => keep (decide (fld w 24 8 = 0)) (.mfcr (fin6 w 12) (fin6 w 18))
  | 1 => keep (decide (fld w 24 8 = 0)) (.mtcr (fin6 w 12) (fin6 w 18))
  | 2 => keep (decide (fld w 18 14 = 0)) (.clock (fin6 w 12))
  | 3 => keep (decide (fld w 18 6 = 0 ∧ fld w 30 2 = 0)) (.mode (fin6 w 12) (fin6 w 24))
  | _ => .error .reservedMinor

/-- Major 0x1F of R69. -/
def major1F (w : Nat) : Except DecodeError Read :=
  match fld w 7 5 with
  | 0 => keep (decide (fld w 12 6 = 0 ∧ fld w 24 8 = 0)) (.mkey (fin6 w 18))
  | 1 => keep (decide (fld w 12 6 = 0 ∧ fld w 30 2 = 0)) (.mregroup (fin6 w 18) (fin6 w 24))
  | 2 => keep (decide (fld w 12 6 = 0 ∧ fld w 24 8 = 0)) (.mrestore (fin6 w 18))
  | _ => .error .reservedMinor

/-- Major 0x20 of R69. -/
def major20 (w : Nat) : Except DecodeError Read := keep (decide (idxOk w)) (.ld (fin4 w 7) (fin7 w 11) (fin6 w 18) (idx w))

/-- Major 0x21 of R69. -/
def major21 (w : Nat) : Except DecodeError Read := keep (decide (idxOk w)) (.st (fin4 w 7) (fin7 w 11) (fin6 w 18) (idx w))

/-- Major 0x22 of R69. -/
def major22 (w : Nat) : Except DecodeError Read :=
  match fld w 10 1 with
  | 0 => keep (decide (idxOk w)) (.lds (fin3 w 7) (fin7 w 11) (fin6 w 18) (idx w))
  | 1 => keep (decide (idxOk w)) (.sts (fin3 w 7) (fin7 w 11) (fin6 w 18) (idx w))
  | _ => .error .reservedMinor

/-- Major 0x23 of R69. -/
def major23 (w : Nat) : Except DecodeError Read :=
  match fld w 7 4 with
  | 15 => .ok (.now (.hnchk (fin6 w 11) (bv 15 w 17)))
  | _ => keep (decide (idxOk w)) (.ldHn (fin4 w 7) (fin7 w 11) (fin6 w 18) (idx w))

/-- Major 0x24 of R69. -/
def major24 (w : Nat) : Except DecodeError Read := .ok (.now (.atom (fin4 w 7) (fin7 w 11) (fin6 w 18) (fin4 w 24) (fin4 w 28)))

/-- Major 0x25 of R69. -/
def major25 (w : Nat) : Except DecodeError Read := .ok (.now (.red (fin4 w 7) (fin7 w 11) (fin6 w 18) (fin4 w 24) (fin4 w 28)))

/-- Major 0x26 of R69. -/
def major26 (w : Nat) : Except DecodeError Read :=
  match fld w 7 4 with
  | 0 => keep (decide (fld w 11 17 = 0)) (.fenceAcq (fin4 w 28))
  | 1 => keep (decide (fld w 11 17 = 0)) (.fenceRel (fin4 w 28))
  | 2 => keep (decide (fld w 11 17 = 0)) (.fenceFull (fin4 w 28))
  | 3 => keep (decide (idxOk w)) (.pfetch (fin7 w 11) (fin6 w 18) (idx w))
  | 4 => keep (decide (fld w 17 1 = 0 ∧ fld w 24 8 = 0)) (.llcflush (fin6 w 11) (fin6 w 18))
  | _ => .error .reservedMinor

/-- Major 0x27 of R69. -/
def major27 (w : Nat) : Except DecodeError Read :=
  match fld w 7 5 with
  | 0 => keep (decide (fld w 12 6 = 0 ∧ fld w 24 8 = 0)) (.cpy (fin6 w 18))
  | 1 => keep (decide (fld w 12 6 = 0 ∧ fld w 24 8 = 0)) (.cpy2 (fin6 w 18))
  | 2 => keep (decide (fld w 12 6 = 0 ∧ fld w 24 8 = 0)) (.hcpy (fin6 w 18))
  | _ => .error .reservedMinor

/-- Major 0x28 of R69. -/
def major28 (w : Nat) : Except DecodeError Read :=
  match fld w 7 5 with
  | 0 => keep (decide (fld w 12 6 = 0 ∧ fld w 30 2 = 0)) (.binit (fin6 w 18) (fin6 w 24))
  | 1 => keep (decide (fld w 16 2 = 0 ∧ fld w 30 2 = 0)) (.barr (fin4 w 12) (fin6 w 18) (fin6 w 24))
  | 2 => keep (decide (fld w 12 6 = 0 ∧ fld w 30 2 = 0)) (.bexp (fin6 w 18) (fin6 w 24))
  | 3 => keep (decide (fld w 16 2 = 0 ∧ fld w 30 2 = 0)) (.bwait (fin4 w 12) (fin6 w 18) (fin6 w 24))
  | 4 => keep (decide (fld w 30 2 = 0)) (.btest (fin6 w 12) (fin6 w 18) (fin6 w 24))
  | 5 => keep (decide (fld w 12 6 = 0 ∧ fld w 24 8 = 0)) (.binval (fin6 w 18))
  | _ => .error .reservedMinor

/-- Major 0x29 of R69. -/
def major29 (w : Nat) : Except DecodeError Read :=
  match fld w 7 5 with
  | 0 => keep (decide (fld w 12 6 = 0 ∧ fld w 24 8 = 0)) (.rput (fin6 w 18))
  | 1 => keep (decide (fld w 12 6 = 0 ∧ fld w 24 8 = 0)) (.rget (fin6 w 18))
  | _ => .error .reservedMinor

/-- Major 0x2A of R69. -/
def major2A (w : Nat) : Except DecodeError Read :=
  match fld w 7 5 with
  | 0 => keep (decide (fld w 30 2 = 0)) (.ctarm (fin6 w 12) (fin6 w 18) (fin6 w 24))
  | 1 => keep (decide (fld w 24 8 = 0)) (.ctdisarm (fin6 w 12) (fin6 w 18))
  | 2 => keep (decide (fld w 30 2 = 0)) (.ctquery (fin6 w 12) (fin6 w 18) (fin6 w 24))
  | _ => .error .reservedMinor

/-- Major 0x2B of R69. -/
def major2B (w : Nat) : Except DecodeError Read :=
  match fld w 7 5 with
  | 0 => keep (decide (fld w 30 2 = 0)) (.xlate (fin6 w 12) (fin6 w 18) (fin6 w 24))
  | 1 => keep (decide (fld w 30 2 = 0)) (.tlbinv (fin6 w 12) (fin6 w 18) (fin6 w 24))
  | _ => .error .reservedMinor

/-- Major 0x30 of R69. -/
def major30 (w : Nat) : Except DecodeError Read :=
  match fld w 7 5 with
  | 0 => keep (decide (fld w 18 14 = 0)) (.tclaim (fin6 w 12))
  | 1 => keep (decide (fld w 18 14 = 0)) (.trel (fin6 w 12))
  | 2 => keep (decide (fld w 30 2 = 0)) (.tld (fin6 w 12) (fin6 w 18) (fin6 w 24))
  | 3 => keep (decide (fld w 18 14 = 0)) (.tzero (fin6 w 12))
  | _ => .error .reservedMinor

/-- Major 0x31 of R69. -/
def major31 (w : Nat) : Except DecodeError Read :=
  match fld w 7 5 with
  | 0 => keep (decide (fld w 24 8 = 0)) (.aballoc (fin6 w 12) (fin6 w 18))
  | 1 => keep (decide (fld w 18 14 = 0)) (.abfree (fin6 w 12))
  | 2 => keep (decide (fld w 18 14 = 0)) (.abzero (fin6 w 12))
  | _ => .error .reservedMinor

/-- Major 0x32 of R69. -/
def major32 (w : Nat) : Except DecodeError Read :=
  match fld w 7 4 with
  | 0 => .ok (.now (.mma (fin5 w 11) (fin4 w 16) (fin4 w 20) (fin4 w 24) (fin4 w 28)))
  | 1 => .ok (.now (.mmaZ (fin5 w 11) (fin4 w 16) (fin4 w 20) (fin4 w 24) (fin4 w 28)))
  | _ => .error .reservedMinor

/-- Major 0x33 of R69. -/
def major33 (w : Nat) : Except DecodeError Read :=
  match fld w 7 4 with
  | 0 => .ok (.now (.mmas (fin5 w 11) (fin4 w 16) (fin4 w 20) (fin4 w 24) (fin4 w 28)))
  | 1 => .ok (.now (.mmasZ (fin5 w 11) (fin4 w 16) (fin4 w 20) (fin4 w 24) (fin4 w 28)))
  | _ => .error .reservedMinor

/-- Major 0x34 of R69. -/
def major34 (w : Nat) : Except DecodeError Read :=
  match fld w 7 4 with
  | 0 => .ok (.now (.mmaMb (fin5 w 11) (fin4 w 16) (fin4 w 20) (fin4 w 24) (fin4 w 28)))
  | 1 => .ok (.now (.mmaMbZ (fin5 w 11) (fin4 w 16) (fin4 w 20) (fin4 w 24) (fin4 w 28)))
  | _ => .error .reservedMinor

/-- Major 0x35 of R69. -/
def major35 (w : Nat) : Except DecodeError Read :=
  match fld w 7 5 with
  | 0 => keep (decide (fld w 18 14 = 0)) (.mfence (fin6 w 12))
  | 1 => keep (decide (fld w 12 6 = 0 ∧ fld w 24 8 = 0)) (.mwait (fin6 w 18))
  | _ => .error .reservedMinor

/-- Major 0x36 of R69. -/
def major36 (w : Nat) : Except DecodeError Read :=
  match fld w 7 4 with
  | 0 => keep (decide (fld w 17 1 = 0 ∧ fld w 28 4 = 0)) (.acld (fin6 w 11) (fin6 w 18) (fin4 w 24))
  | 1 => keep (decide (fld w 17 1 = 0 ∧ fld w 28 4 = 0)) (.acst (fin6 w 11) (fin6 w 18) (fin4 w 24))
  | _ => .error .reservedMinor

/-- Major 0x37 of R69. -/
def major37 (w : Nat) : Except DecodeError Read :=
  match fld w 7 4 with
  | 0 => keepLate (decide (fld w 11 2 = 0 ∧ fld w 20 4 = 0)) (.mred (fin3 w 13) (fin4 w 16) (fin4 w 24) (fin4 w 28))
  | _ => .error .reservedMinor

/-- Major 0x38 of R69. -/
def major38 (w : Nat) : Except DecodeError Read :=
  match fld w 7 4 with
  | 0 => keep (decide (fld w 11 7 = 0 ∧ fld w 25 7 = 0)) (.xinit (fin4 w 18) (fin3 w 22))
  | 1 => keep (decide (fld w 25 7 = 0)) (.xaddF64 (fin7 w 11) (fin4 w 18) (fin3 w 22))
  | 2 => keep (decide (fld w 25 7 = 0)) (.xaddF32 (fin7 w 11) (fin4 w 18) (fin3 w 22))
  | 3 => .ok (.now (.xaddpF32 (fin7 w 11) (fin4 w 18) (fin3 w 22) (fin7 w 25)))
  | 4 => keep (decide (fld w 11 7 = 0)) (.xmerge (fin4 w 18) (fin3 w 22) (fin4 w 25) (fin3 w 29))
  | 8 | 9 | 10 | 11 => keep (decide (fld w 25 7 = 0)) (.xroundF64 (fin2 w 7) (fin7 w 11) (fin4 w 18) (fin3 w 22))
  | 12 | 13 | 14 | 15 => keepLate (decide (fld w 25 7 = 0)) (.xroundF32 (fin2 w 7) (fin7 w 11) (fin4 w 18) (fin3 w 22))
  | _ => .error .reservedMinor

/-- Major 0x39 of R69. -/
def major39 (w : Nat) : Except DecodeError Read :=
  match fld w 7 4 with
  | 0 => keepLate (decide (fld w 24 8 = 0)) (.xpack (fin4 w 11) (fin3 w 15) (fin6 w 18))
  | 1 => keepLate (decide (fld w 24 8 = 0)) (.xunpack (fin4 w 11) (fin3 w 15) (fin6 w 18))
  | 2 => keepLate (decide (fld w 24 8 = 0)) (.xld (fin4 w 11) (fin3 w 15) (fin6 w 18))
  | 3 => keepLate (decide (fld w 24 8 = 0)) (.xst (fin4 w 11) (fin3 w 15) (fin6 w 18))
  | _ => .error .reservedMinor

/-- The raw decoding of a 32-bit word, before the reserved field values are tested. -/
def major (w : Nat) : Except DecodeError Read :=
  match fld w 1 6 with
  | 0x01 => major01 w
  | 0x02 => major02 w
  | 0x03 => major03 w
  | 0x04 => major04 w
  | 0x05 => major05 w
  | 0x06 => major06 w
  | 0x07 => major07 w
  | 0x08 => major08 w
  | 0x09 => major09 w
  | 0x0A => major0A w
  | 0x0B => major0B w
  | 0x0C => major0C w
  | 0x0D => major0D w
  | 0x0E => major0E w
  | 0x0F => major0F w
  | 0x10 => major10 w
  | 0x11 => major11 w
  | 0x12 => major12 w
  | 0x13 => major13 w
  | 0x14 => major14 w
  | 0x15 => major15 w
  | 0x18 => major18 w
  | 0x19 => major19 w
  | 0x1A => major1A w
  | 0x1B => major1B w
  | 0x1C => major1C w
  | 0x1D => major1D w
  | 0x1E => major1E w
  | 0x1F => major1F w
  | 0x20 => major20 w
  | 0x21 => major21 w
  | 0x22 => major22 w
  | 0x23 => major23 w
  | 0x24 => major24 w
  | 0x25 => major25 w
  | 0x26 => major26 w
  | 0x27 => major27 w
  | 0x28 => major28 w
  | 0x29 => major29 w
  | 0x2A => major2A w
  | 0x2B => major2B w
  | 0x30 => major30 w
  | 0x31 => major31 w
  | 0x32 => major32 w
  | 0x33 => major33 w
  | 0x34 => major34 w
  | 0x35 => major35 w
  | 0x36 => major36 w
  | 0x37 => major37 w
  | 0x38 => major38 w
  | 0x39 => major39 w
  | _ => .error .reservedMajor

/-- The compact form of R60: op4 in [4:1]. -/
def half (h : Nat) : Instr :=
  match fld h 1 4 with
  | 0 => .faddF32Compact (fin6 h 5) (fin5 h 11)
  | 1 => .fsubF32Compact (fin6 h 5) (fin5 h 11)
  | 2 => .fmulF32Compact (fin6 h 5) (fin5 h 11)
  | 3 => .fmaxF32Compact (fin6 h 5) (fin5 h 11)
  | 4 => .fminF32Compact (fin6 h 5) (fin5 h 11)
  | 5 => .vaddI32Compact (fin6 h 5) (fin5 h 11)
  | 6 => .vsubI32Compact (fin6 h 5) (fin5 h 11)
  | 7 => .vmulI32Compact (fin6 h 5) (fin5 h 11)
  | 8 => .vandCompact (fin6 h 5) (fin5 h 11)
  | 9 => .vorCompact (fin6 h 5) (fin5 h 11)
  | 10 => .vxorCompact (fin6 h 5) (fin5 h 11)
  | 11 => .vshlCompact (fin6 h 5) (fin5 h 11)
  | 12 => .vshrCompact (fin6 h 5) (fin5 h 11)
  | 13 => .vsarCompact (fin6 h 5) (fin5 h 11)
  | 14 => .vmovCompact (fin6 h 5) (fin5 h 11)
  | _ => .vnotCompact (fin6 h 5) (fin5 h 11)

/-- A reserved field value makes the encoding illegal (R71). -/
def check (i : Read) : Except DecodeError Read := if i.wf then .ok i else .error .reservedValue

end Decode

/-- What a 32-bit word whose bit 0 is 1 reads as (R62). -/
def readWord (w : Nat) : Except DecodeError Read :=
  match Decode.major w with
  | .ok i => Decode.check i
  | .error e => .error e

/-- What a halfword whose bit 0 is 0 reads as (R60, R61). -/
def readHalf (h : Nat) : Except DecodeError Read := Decode.check (.now (Decode.half h))

/-- Bytes as a little-endian number (R2). -/
def leNat : List Byte → Nat
  | [] => 0
  | b :: bs => b.toNat + 256 * leNat bs

/-- The n low bytes of a number, lowest first (R2). -/
def leBytes : Nat → Nat → List Byte
  | 0, _ => []
  | n + 1, x => BitVec.ofNat 8 x :: leBytes n (x / 256)

/-- What the bytes at the head of a list read as, with the length in bytes (R59). -/
def readBytes (bs : List Byte) : Except DecodeError (Read × Nat) :=
  match bs with
  | b0 :: b1 :: rest =>
    if b0.toNat % 2 = 0 then (readHalf (leNat [b0, b1])).map (·, 2)
    else match rest with
      | b2 :: b3 :: _ => (readWord (leNat [b0, b1, b2, b3])).map (·, 4)
      | _ => .error .truncated
  | _ => .error .truncated

/-- The instruction at the head of a list of bytes, with its length in bytes (R59). -/
noncomputable def decodeBytes (bs : List Byte) : Except DecodeError (Instr × Nat) :=
  (readBytes bs).map fun p => (p.1.instr, p.2)

/-- The instruction that the decoder reads from a table row's word (bits numbered from bit 0 of the first halfword). -/
noncomputable def decodeTableWord (nbits w : Nat) : Option Instr :=
  if nbits = 16 then
    (match decodeBytes (leBytes 2 w ++ [0, 0]) with | .ok (i, _) => some i | .error _ => none)
  else if nbits = 32 then
    (match decodeBytes (leBytes 4 w) with | .ok (i, _) => some i | .error _ => none)
  else none

namespace Encode

/-- The second source of R63 with its select bit. -/
def src : VSrc → Nat
  | .v r => r.val * 2 ^ 25
  | .s r => 2 ^ 10 + r.val * 2 ^ 25

/-- The index of the M layout with its present bit (R62). -/
def idx : Option (Fin 128) → Nat
  | none => 0
  | some r => 2 ^ 31 + r.val * 2 ^ 24

/-- A field's value at its lowest bit. -/
def put (x lo : Nat) : Nat := x * 2 ^ lo

/-- A 32-bit word: the fixed bits of its row, and its fields. -/
def word (fixed : Nat) (fields : List Nat) : Option (Nat × Nat) := some (32, fields.foldl (· + ·) fixed)

/-- A compact halfword (R60). -/
def halfword (fixed d s : Nat) : Option (Nat × Nat) := some (16, fixed + put d 5 + put s 11)

end Encode

open Encode in
/-- The length in bits and the word of an encoded instruction; an event has none. -/
def Instr.encode : Instr → Option (Nat × Nat)
  | .vaddI32 d a b => word 0x3 [put d.val 11, put a.val 18, src b]
  | .vsubI32 d a b => word 0x83 [put d.val 11, put a.val 18, src b]
  | .vmulI32 d a b => word 0x103 [put d.val 11, put a.val 18, src b]
  | .vmulhI32 d a b => word 0x183 [put d.val 11, put a.val 18, src b]
  | .vmulhN32 d a b => word 0x203 [put d.val 11, put a.val 18, src b]
  | .vminI32 d a b => word 0x283 [put d.val 11, put a.val 18, src b]
  | .vmaxI32 d a b => word 0x303 [put d.val 11, put a.val 18, src b]
  | .vaddI64 d a b => word 0x383 [put d.val 11, put a.val 18, src b]
  | .vshl d a b => word 0x5 [put d.val 11, put a.val 18, src b]
  | .vshr d a b => word 0x85 [put d.val 11, put a.val 18, src b]
  | .vsar d a b => word 0x105 [put d.val 11, put a.val 18, src b]
  | .vand d a b => word 0x185 [put d.val 11, put a.val 18, src b]
  | .vor d a b => word 0x205 [put d.val 11, put a.val 18, src b]
  | .vxor d a b => word 0x285 [put d.val 11, put a.val 18, src b]
  | .vbfx d a b => word 0x305 [put d.val 11, put a.val 18, src b]
  | .vsubI64 d a b => word 0x385 [put d.val 11, put a.val 18, src b]
  | .vcmpEqI32 p a b => word 0x7 [put p.val 11, put a.val 18, src b]
  | .vcmpNeI32 p a b => word 0x87 [put p.val 11, put a.val 18, src b]
  | .vcmpLtI32 p a b => word 0x107 [put p.val 11, put a.val 18, src b]
  | .vcmpLeI32 p a b => word 0x187 [put p.val 11, put a.val 18, src b]
  | .vcmpLtN32 p a b => word 0x207 [put p.val 11, put a.val 18, src b]
  | .vcmpLeN32 p a b => word 0x287 [put p.val 11, put a.val 18, src b]
  | .vcmpEqI64 p a b => word 0x307 [put p.val 11, put a.val 18, src b]
  | .vcmpLtI64 p a b => word 0x387 [put p.val 11, put a.val 18, src b]
  | .vaddi d a i => word 0x9 [put d.val 7, put a.val 14, put i.toNat 21]
  | .vandi d a i => word 0xb [put d.val 7, put a.val 14, put i.toNat 21]
  | .vori d a i => word 0x4000000b [put d.val 7, put a.val 14, put i.toNat 21]
  | .vxori d a i => word 0x8000000b [put d.val 7, put a.val 14, put i.toNat 21]
  | .vshli d a n => word 0xd [put d.val 7, put a.val 14, put n.val 21]
  | .vshri d a n => word 0x2000000d [put d.val 7, put a.val 14, put n.val 21]
  | .vsari d a n => word 0x4000000d [put d.val 7, put a.val 14, put n.val 21]
  | .vroli d a n => word 0x6000000d [put d.val 7, put a.val 14, put n.val 21]
  | .vpopc d a => word 0x8000000d [put d.val 7, put a.val 14]
  | .vclz d a => word 0xa000000d [put d.val 7, put a.val 14]
  | .vbrev d a => word 0xc000000d [put d.val 7, put a.val 14]
  | .vcmpiEq p a i => word 0xf [put p.val 7, put a.val 14, put i.toNat 21]
  | .vcmpiNe p a i => word 0x2000000f [put p.val 7, put a.val 14, put i.toNat 21]
  | .vcmpiLtI32 p a i => word 0x4000000f [put p.val 7, put a.val 14, put i.toNat 21]
  | .vcmpiLeI32 p a i => word 0x6000000f [put p.val 7, put a.val 14, put i.toNat 21]
  | .vcmpiGtI32 p a i => word 0x8000000f [put p.val 7, put a.val 14, put i.toNat 21]
  | .vcmpiGeI32 p a i => word 0xa000000f [put p.val 7, put a.val 14, put i.toNat 21]
  | .vcmpiLtN32 p a i => word 0xc000000f [put p.val 7, put a.val 14, put i.toNat 21]
  | .vcmpiGeN32 p a i => word 0xe000000f [put p.val 7, put a.val 14, put i.toNat 21]
  | .faddF32 d a b => word 0x11 [put d.val 11, put a.val 18, src b]
  | .fsubF32 d a b => word 0x91 [put d.val 11, put a.val 18, src b]
  | .fmulF32 d a b => word 0x111 [put d.val 11, put a.val 18, src b]
  | .fminF32 d a b => word 0x191 [put d.val 11, put a.val 18, src b]
  | .fmaxF32 d a b => word 0x211 [put d.val 11, put a.val 18, src b]
  | .fminNanF32 d a b => word 0x291 [put d.val 11, put a.val 18, src b]
  | .fmaxNanF32 d a b => word 0x311 [put d.val 11, put a.val 18, src b]
  | .fcpsgnF32 d a b => word 0x391 [put d.val 11, put a.val 18, src b]
  | .faddF64 d a b => word 0x13 [put d.val 11, put a.val 18, src b]
  | .fsubF64 d a b => word 0x93 [put d.val 11, put a.val 18, src b]
  | .fmulF64 d a b => word 0x113 [put d.val 11, put a.val 18, src b]
  | .fminF64 d a b => word 0x193 [put d.val 11, put a.val 18, src b]
  | .fmaxF64 d a b => word 0x213 [put d.val 11, put a.val 18, src b]
  | .fminNanF64 d a b => word 0x293 [put d.val 11, put a.val 18, src b]
  | .fmaxNanF64 d a b => word 0x313 [put d.val 11, put a.val 18, src b]
  | .fcpsgnF64 d a b => word 0x393 [put d.val 11, put a.val 18, src b]
  | .faddH2 t d a b => word 0x15 [put t.val 9, put d.val 11, put a.val 18, src b]
  | .fsubH2 t d a b => word 0x95 [put t.val 9, put d.val 11, put a.val 18, src b]
  | .fmulH2 t d a b => word 0x115 [put t.val 9, put d.val 11, put a.val 18, src b]
  | .fmaH2 t d a b => word 0x195 [put t.val 9, put d.val 11, put a.val 18, src b]
  | .fcmpEqF32 p a b => word 0x17 [put p.val 11, put a.val 18, src b]
  | .fcmpLtF32 p a b => word 0x97 [put p.val 11, put a.val 18, src b]
  | .fcmpLeF32 p a b => word 0x117 [put p.val 11, put a.val 18, src b]
  | .fcmpUnF32 p a b => word 0x197 [put p.val 11, put a.val 18, src b]
  | .fcmpEqF64 p a b => word 0x217 [put p.val 11, put a.val 18, src b]
  | .fcmpLtF64 p a b => word 0x297 [put p.val 11, put a.val 18, src b]
  | .fcmpLeF64 p a b => word 0x317 [put p.val 11, put a.val 18, src b]
  | .fcmpUnF64 p a b => word 0x397 [put p.val 11, put a.val 18, src b]
  | .fmaF32 r d a b => word 0x19 [put r.val 7, put d.val 11, put a.val 18, put b.val 25]
  | .fnmaF32 r d a b => word 0x219 [put r.val 7, put d.val 11, put a.val 18, put b.val 25]
  | .fmaF64 r d a b => word 0x419 [put r.val 7, put d.val 11, put a.val 18, put b.val 25]
  | .fnmaF64 r d a b => word 0x619 [put r.val 7, put d.val 11, put a.val 18, put b.val 25]
  | .cvt r d a s t => word 0x1b [put r.val 7, put d.val 11, put a.val 18, put (s.val / 8) 10, put (s.val % 8) 25, put t.val 28]
  | .frcpF32 d a => word 0x1d [put d.val 11, put a.val 18]
  | .frsqrtF32 d a => word 0x9d [put d.val 11, put a.val 18]
  | .fsqrtF32 d a => word 0x11d [put d.val 11, put a.val 18]
  | .fdivF32 d a b => word 0x19d [put d.val 11, put a.val 18, put b.val 25]
  | .fexp2F32 d a => word 0x21d [put d.val 11, put a.val 18]
  | .flog2F32 d a => word 0x29d [put d.val 11, put a.val 18]
  | .fsinF32 d a => word 0x31d [put d.val 11, put a.val 18]
  | .fcosF32 d a => word 0x39d [put d.val 11, put a.val 18]
  | .fsqrtF64 d a => word 0x41d [put d.val 11, put a.val 18]
  | .fdivF64 d a b => word 0x49d [put d.val 11, put a.val 18, put b.val 25]
  | .frcpF64 d a => word 0x51d [put d.val 11, put a.val 18]
  | .ftanhF32 d a => word 0x59d [put d.val 11, put a.val 18]
  | .fclassF32 d a => word 0x61d [put d.val 11, put a.val 18]
  | .fclassF64 d a => word 0x69d [put d.val 11, put a.val 18]
  | .froundF32 d a r => word 0x71d [put d.val 11, put a.val 18, put r.val 25]
  | .froundF64 d a r => word 0x79d [put d.val 11, put a.val 18, put r.val 25]
  | .shflIdx d a b => word 0x1f [put d.val 11, put a.val 18, put b.val 25]
  | .shflUp d a b => word 0x9f [put d.val 11, put a.val 18, put b.val 25]
  | .shflDown d a b => word 0x11f [put d.val 11, put a.val 18, put b.val 25]
  | .shflXor d a b => word 0x19f [put d.val 11, put a.val 18, put b.val 25]
  | .mshfl d a b => word 0x21f [put d.val 11, put a.val 18, put b.val 25]
  | .vmovs d a b => word 0x29f [put d.val 11, put a.val 18, put b.val 25]
  | .vlane d a b => word 0x31f [put d.val 11, put a.val 18, put b.val 25]
  | .mstatMeanF32 d a => word 0x41f [put d.val 11, put a.val 18]
  | .mstatVarF32 d a => word 0x49f [put d.val 11, put a.val 18]
  | .mstatMeanF64 d a => word 0x51f [put d.val 11, put a.val 18]
  | .mstatVarF64 d a => word 0x59f [put d.val 11, put a.val 18]
  | .mstatQuantF32 d a b => word 0x61f [put d.val 11, put a.val 18, put b.val 25]
  | .mstatRankF32 d a b => word 0x69f [put d.val 11, put a.val 18, put b.val 25]
  | .mstatMinF32 d a => word 0x71f [put d.val 11, put a.val 18]
  | .mstatMaxF32 d a => word 0x79f [put d.val 11, put a.val 18]
  | .sadd d a b => word 0x21 [put d.val 12, put a.val 18, put b.val 24]
  | .ssub d a b => word 0xa1 [put d.val 12, put a.val 18, put b.val 24]
  | .smul d a b => word 0x121 [put d.val 12, put a.val 18, put b.val 24]
  | .smulhI64 d a b => word 0x1a1 [put d.val 12, put a.val 18, put b.val 24]
  | .smulhN64 d a b => word 0x221 [put d.val 12, put a.val 18, put b.val 24]
  | .sand d a b => word 0x2a1 [put d.val 12, put a.val 18, put b.val 24]
  | .sor d a b => word 0x321 [put d.val 12, put a.val 18, put b.val 24]
  | .sxor d a b => word 0x3a1 [put d.val 12, put a.val 18, put b.val 24]
  | .sshl d a b => word 0x421 [put d.val 12, put a.val 18, put b.val 24]
  | .sshr d a b => word 0x4a1 [put d.val 12, put a.val 18, put b.val 24]
  | .ssar d a b => word 0x521 [put d.val 12, put a.val 18, put b.val 24]
  | .sminI64 d a b => word 0x5a1 [put d.val 12, put a.val 18, put b.val 24]
  | .smaxI64 d a b => word 0x621 [put d.val 12, put a.val 18, put b.val 24]
  | .sminN64 d a b => word 0x6a1 [put d.val 12, put a.val 18, put b.val 24]
  | .smaxN64 d a b => word 0x721 [put d.val 12, put a.val 18, put b.val 24]
  | .smov d a => word 0x7a1 [put d.val 12, put a.val 18]
  | .spopc d a => word 0x821 [put d.val 12, put a.val 18]
  | .sclz d a => word 0x8a1 [put d.val 12, put a.val 18]
  | .sdivI64 d a b => word 0x921 [put d.val 12, put a.val 18, put b.val 24]
  | .sdivN64 d a b => word 0x9a1 [put d.val 12, put a.val 18, put b.val 24]
  | .sremI64 d a b => word 0xa21 [put d.val 12, put a.val 18, put b.val 24]
  | .sremN64 d a b => word 0xaa1 [put d.val 12, put a.val 18, put b.val 24]
  | .sshli d a n => word 0xb21 [put d.val 12, put a.val 18, put n.val 24]
  | .sshri d a n => word 0xba1 [put d.val 12, put a.val 18, put n.val 24]
  | .ssari d a n => word 0xc21 [put d.val 12, put a.val 18, put n.val 24]
  | .saddi d a i => word 0x23 [put d.val 7, put a.val 14, put i.toNat 21]
  | .sandi d a i => word 0x100023 [put d.val 7, put a.val 14, put i.toNat 21]
  | .sori d a i => word 0x2023 [put d.val 7, put a.val 14, put i.toNat 21]
  | .sxori d a i => word 0x102023 [put d.val 7, put a.val 14, put i.toNat 21]
  | .sli d i => word 0x25 [put d.val 7, put i.toNat 13]
  | .slih d i => word 0x80000025 [put d.val 7, put i.toNat 13]
  | .scmp a b => word 0x27 [put a.val 18, put b.val 24]
  | .scmpi a i => word 0xa7 [put a.val 18, put i.toNat 24]
  | .stest a b => word 0x127 [put a.val 18, put b.val 24]
  | .pand d a b => word 0x29 [put d.val 11, put a.val 18, put b.val 25]
  | .por d a b => word 0xa9 [put d.val 11, put a.val 18, put b.val 25]
  | .pxor d a b => word 0x129 [put d.val 11, put a.val 18, put b.val 25]
  | .pandn d a b => word 0x1a9 [put d.val 11, put a.val 18, put b.val 25]
  | .pnot d a => word 0x229 [put d.val 11, put a.val 18]
  | .pset d => word 0x2a9 [put d.val 11]
  | .pclr d => word 0x329 [put d.val 11]
  | .ppopc d a => word 0x3a9 [put d.val 11, put a.val 18]
  | .vsel n d a b => word 0x2b [put n.val 7, put d.val 11, put a.val 18, put b.val 25]
  | .vmov d a => word 0x42b [put d.val 11, put a.val 18]
  | .vbcast d a => word 0x4ab [put d.val 11, put a.val 18]
  | .pmov d a => word 0x52b [put d.val 11, put a.val 18]
  | .pext d a q => word 0x5ab [put d.val 11, put a.val 18, put q.val 25]
  | .pins d a q => word 0x62b [put d.val 11, put a.val 18, put q.val 25]
  | .vmovp d a => word 0x6ab [put d.val 11, put a.val 18]
  | .pmovv d a => word 0x72b [put d.val 11, put a.val 18]
  | .faddF32Compact d s => halfword 0x0 d.val s.val
  | .fsubF32Compact d s => halfword 0x2 d.val s.val
  | .fmulF32Compact d s => halfword 0x4 d.val s.val
  | .fmaxF32Compact d s => halfword 0x6 d.val s.val
  | .fminF32Compact d s => halfword 0x8 d.val s.val
  | .vaddI32Compact d s => halfword 0xa d.val s.val
  | .vsubI32Compact d s => halfword 0xc d.val s.val
  | .vmulI32Compact d s => halfword 0xe d.val s.val
  | .vandCompact d s => halfword 0x10 d.val s.val
  | .vorCompact d s => halfword 0x12 d.val s.val
  | .vxorCompact d s => halfword 0x14 d.val s.val
  | .vshlCompact d s => halfword 0x16 d.val s.val
  | .vshrCompact d s => halfword 0x18 d.val s.val
  | .vsarCompact d s => halfword 0x1a d.val s.val
  | .vmovCompact d s => halfword 0x1c d.val s.val
  | .vnotCompact d s => halfword 0x1e d.val s.val
  | .bra o => word 0x31 [put o.toNat 11]
  | .brc c o => word 0x31 [put c.val 7, put o.toNat 11]
  | .brd n j o => word 0x33 [put n.val 7, put j.val 11, put o.toNat 21]
  | .join => word 0x433 []
  | .call o => word 0x35 [put o.toNat 11]
  | .ret => word 0xb5 []
  | .jmpi a => word 0x135 [put a.val 11]
  | .loop n o => word 0x37 [put n.val 7, put o.toNat 11]
  | .nop => word 0x39 []
  | .trap k => word 0xb9 [put k.val 24]
  | .tret k => word 0x139 [put k.val 24]
  | .yield a b => word 0x1b9 [put a.val 18, put b.val 24]
  | .ginsp d a b => word 0x239 [put d.val 12, put a.val 18, put b.val 24]
  | .gresume a b => word 0x2b9 [put a.val 18, put b.val 24]
  | .exit => word 0x3b []
  | .exitSucc => word 0xbb []
  | .enq d a b => word 0x13b [put d.val 12, put a.val 18, put b.val 24]
  | .mfcr d c => word 0x3d [put d.val 12, put c.val 18]
  | .mtcr c a => word 0xbd [put c.val 12, put a.val 18]
  | .clock d => word 0x13d [put d.val 12]
  | .mode d k => word 0x1bd [put d.val 12, put k.val 24]
  | .mkey a => word 0x3f [put a.val 18]
  | .mregroup a b => word 0xbf [put a.val 18, put b.val 24]
  | .mrestore a => word 0x13f [put a.val 18]
  | .ld t d b i => word 0x41 [put t.val 7, put d.val 11, put b.val 18, idx i]
  | .st t d b i => word 0x43 [put t.val 7, put d.val 11, put b.val 18, idx i]
  | .lds t d b i => word 0x45 [put t.val 7, put d.val 11, put b.val 18, idx i]
  | .sts t d b i => word 0x445 [put t.val 7, put d.val 11, put b.val 18, idx i]
  | .ldHn t d b i => word 0x47 [put t.val 7, put d.val 11, put b.val 18, idx i]
  | .hnchk a o => word 0x7c7 [put a.val 11, put o.toNat 17]
  | .atom o d b i s => word 0x49 [put o.val 7, put d.val 11, put b.val 18, put i.val 24, put s.val 28]
  | .red o d b i s => word 0x4b [put o.val 7, put d.val 11, put b.val 18, put i.val 24, put s.val 28]
  | .fenceAcq s => word 0x4d [put s.val 28]
  | .fenceRel s => word 0xcd [put s.val 28]
  | .fenceFull s => word 0x14d [put s.val 28]
  | .pfetch l b i => word 0x1cd [put l.val 11, put b.val 18, idx i]
  | .llcflush l b => word 0x24d [put l.val 11, put b.val 18]
  | .cpy a => word 0x4f [put a.val 18]
  | .cpy2 a => word 0xcf [put a.val 18]
  | .hcpy a => word 0x14f [put a.val 18]
  | .binit a b => word 0x51 [put a.val 18, put b.val 24]
  | .barr s a b => word 0xd1 [put s.val 12, put a.val 18, put b.val 24]
  | .bexp a b => word 0x151 [put a.val 18, put b.val 24]
  | .bwait s a b => word 0x1d1 [put s.val 12, put a.val 18, put b.val 24]
  | .btest d a b => word 0x251 [put d.val 12, put a.val 18, put b.val 24]
  | .binval a => word 0x2d1 [put a.val 18]
  | .rput a => word 0x53 [put a.val 18]
  | .rget a => word 0xd3 [put a.val 18]
  | .ctarm d a b => word 0x55 [put d.val 12, put a.val 18, put b.val 24]
  | .ctdisarm d a => word 0xd5 [put d.val 12, put a.val 18]
  | .ctquery d a b => word 0x155 [put d.val 12, put a.val 18, put b.val 24]
  | .xlate d a b => word 0x57 [put d.val 12, put a.val 18, put b.val 24]
  | .tlbinv d a b => word 0xd7 [put d.val 12, put a.val 18, put b.val 24]
  | .tclaim n => word 0x61 [put n.val 12]
  | .trel n => word 0xe1 [put n.val 12]
  | .tld n a c => word 0x161 [put n.val 12, put a.val 18, put c.val 24]
  | .tzero n => word 0x1e1 [put n.val 12]
  | .aballoc n b => word 0x63 [put n.val 12, put b.val 18]
  | .abfree n => word 0xe3 [put n.val 12]
  | .abzero n => word 0x163 [put n.val 12]
  | .mma s a b c t => word 0x65 [put s.val 11, put a.val 16, put b.val 20, put c.val 24, put t.val 28]
  | .mmaZ s a b c t => word 0xe5 [put s.val 11, put a.val 16, put b.val 20, put c.val 24, put t.val 28]
  | .mmas s a b c t => word 0x67 [put s.val 11, put a.val 16, put b.val 20, put c.val 24, put t.val 28]
  | .mmasZ s a b c t => word 0xe7 [put s.val 11, put a.val 16, put b.val 20, put c.val 24, put t.val 28]
  | .mmaMb s a b c t => word 0x69 [put s.val 11, put a.val 16, put b.val 20, put c.val 24, put t.val 28]
  | .mmaMbZ s a b c t => word 0xe9 [put s.val 11, put a.val 16, put b.val 20, put c.val 24, put t.val 28]
  | .mfence d => word 0x6b [put d.val 12]
  | .mwait a => word 0xeb [put a.val 18]
  | .acld a w c => word 0x6d [put a.val 11, put w.val 18, put c.val 24]
  | .acst a w c => word 0xed [put a.val 11, put w.val 18, put c.val 24]
  | .mred s a c t => word 0x6f [put s.val 13, put a.val 16, put c.val 24, put t.val 28]
  | .xinit c k => word 0x71 [put c.val 18, put k.val 22]
  | .xaddF64 v c k => word 0xf1 [put v.val 11, put c.val 18, put k.val 22]
  | .xaddF32 v c k => word 0x171 [put v.val 11, put c.val 18, put k.val 22]
  | .xaddpF32 a c k b => word 0x1f1 [put a.val 11, put c.val 18, put k.val 22, put b.val 25]
  | .xmerge c k m j => word 0x271 [put c.val 18, put k.val 22, put m.val 25, put j.val 29]
  | .xroundF64 r d c k => word 0x471 [put r.val 7, put d.val 11, put c.val 18, put k.val 22]
  | .xroundF32 r d c k => word 0x671 [put r.val 7, put d.val 11, put c.val 18, put k.val 22]
  | .xpack c k a => word 0x73 [put c.val 11, put k.val 15, put a.val 18]
  | .xunpack c k a => word 0xf3 [put c.val 11, put k.val 15, put a.val 18]
  | .xld c k a => word 0x173 [put c.val 11, put k.val 15, put a.val 18]
  | .xst c k a => word 0x1f3 [put c.val 11, put k.val 15, put a.val 18]
  | .illegalEncoding _ => none
  | .faultQueueConsPoll _ => none
  | .sfqEntryComplete _ => none
  | .cvtqEntryComplete _ => none
  | .loadReturn _ _ _ _ => none
  | .batchComplete _ _ _ => none
  | .regroupMoveComplete _ _ => none
  | .ctxcmdSubmit _ _ => none
  | .create => none
  | .destroy => none
  | .fence => none
  | .resume => none
  | .rupdate => none
  | .qbind => none
  | .qunbind => none
  | .qstart => none
  | .qcancel => none
  | .fresolve => none
  | .tlbinvCommand => none
  | .contextDrainComplete _ => none
  | .qdoorbell _ _ => none
  | .wptrPoll _ => none
  | .walkerParse _ => none
  | .selectionPass => none
  | .launchReserving _ => none
  | .preempt _ _ => none
  | .phandlerLimit _ _ => none
  | .unitRetire _ => none
  | .launchComplete _ => none
  | .fenceOutstandingComplete _ _ => none
  | .fenceDumpComplete _ _ => none
  | .hangDetectorExpiry _ => none
  | .drydownRoundBoundary _ => none
  | .storeAtHomeSlice _ _ _ _ => none
  | .l1Eviction _ _ => none
  | .llcRecall _ => none
  | .dieL2Eviction _ _ => none
  | .llcRecordEviction _ => none
  | .shadowKill _ _ => none
  | .shadowExpiry _ _ => none
  | .peerCopyExpiry _ _ _ => none
  | .headnoteCheck _ _ _ _ => none
  | .headnoteCheckAnswer _ _ _ _ => none
  | .bankAluAtomic _ _ _ => none
  | .stampSweep _ => none
  | .directoryError _ _ => none
  | .holderRecordError _ => none
  | .uncorrectableDataError _ => none
  | .hostTakesHalf _ _ _ => none
  | .backInvalidateResponse _ _ _ _ => none
  | .hostWriteback _ _ _ _ => none
  | .backInvalidateTimeout _ _ _ => none
  | .hostBar2Access _ _ _ _ => none
  | .hostAtomicop _ _ _ => none
  | .ceCommandStart _ => none
  | .ceUnitWrite _ _ _ => none
  | .cePageFault _ _ _ => none
  | .ceCommandComplete _ => none
  | .byteCount _ => none
  | .feUnitDeliver _ _ _ => none
  | .peerAccessInbound _ _ _ => none
  | .cttFire _ => none
  | .cttReadyReceive _ _ => none
  | .cttDataReceive _ _ _ _ => none
  | .cttResultDeliver _ _ => none
  | .cttAbortReceive _ => none
  | .cttFailure _ _ => none
  | .linkTrained _ _ _ => none
  | .linkTrainingFailed _ => none
  | .linkErrorRetrain _ => none
  | .retwinExpiry _ _ => none
  | .flitReceive _ _ => none
  | .nakReceive _ _ => none
  | .packetReceive _ _ => none
  | .enable _ => none
  | .retrain _ => none
  | .retire _ => none
  | .vbtWrite _ _ => none
  | .routerRetire _ => none
  | .routerDrainEmpty _ => none
  | .routerDrainTimeout _ => none
  | .governorTick _ _ _ => none
  | .safetyLimit _ => none
  | .powerOnReset => none
  | .devrst _ _ => none
  | .portReset _ => none
  | .bootReady _ => none
  | .watchdogExpiry => none
  | .firmwareCommit => none
  | .attestationSubmit _ _ => none
  | .attestationReport => none
  | .policyRequest _ _ => none
  | .registerWrite _ _ _ => none
  | .singleBitEcc _ _ => none
  | .uncorrectableStateError _ _ => none
  | .uncorrectableControlStateError _ => none
  | .feTransferFault _ _ => none
  | .hostWriteAcknowledged _ _ => none
  | .llcflushWritebackComplete _ _ => none
  | .cxlCacheSnoop _ _ _ => none

end Sys2Proof
end

