-- ==== Sys2Proof/Machine/Numbers.lean ====
section
/-! DEFINITION. Number formats and their rounding (spec file 02): the float formats of R31 and R41, round_fmt of R38,
sums, products and fused products of R40, minimum and maximum of R35, the conversions of R321, classification and
rounding to integral of R325 and R326. A code is a natural number; exact values are dyadic. -/

namespace Sys2Proof.Machine

/-! ## Flags (R36) -/

/-- The five sticky exception bits. -/
abbrev Flags := BitVec 5

/-- Invalid operation. -/
def flagNV : Flags := 1
/-- Division of a finite nonzero value by zero. -/
def flagDZ : Flags := 2
/-- Overflow. -/
def flagOF : Flags := 4
/-- Underflow. -/
def flagUF : Flags := 8
/-- Inexact. -/
def flagNX : Flags := 16

/-! ## Formats (R31, R41) -/

/-- A float format: its width, fraction bits F, exponent bias, and whether every code is finite (R41). -/
structure Fmt where
  width : Nat
  frac : Nat
  bias : Nat
  allFinite : Bool
  deriving DecidableEq, Repr

/-- f64 of R31. -/
def fmtF64 : Fmt := { width := 64, frac := 52, bias := 1023, allFinite := false }
/-- f32 of R31. -/
def fmtF32 : Fmt := { width := 32, frac := 23, bias := 127, allFinite := false }
/-- bf16 of R31. -/
def fmtBf16 : Fmt := { width := 16, frac := 7, bias := 127, allFinite := false }
/-- f16 of R31. -/
def fmtF16 : Fmt := { width := 16, frac := 10, bias := 15, allFinite := false }
/-- e4m3 of R41. -/
def fmtE4m3 : Fmt := { width := 8, frac := 3, bias := 7, allFinite := true }
/-- e5m2 of R41. -/
def fmtE5m2 : Fmt := { width := 8, frac := 2, bias := 15, allFinite := true }

/-- The weight of the sign bit. -/
def Fmt.signBit (f : Fmt) : Nat := 2 ^ (f.width - 1)
/-- The all-ones exponent field (emask). -/
def Fmt.emask (f : Fmt) : Nat := 2 ^ (f.width - 1 - f.frac) - 1
/-- The magnitude code of infinity. -/
def Fmt.infMag (f : Fmt) : Nat := f.emask * 2 ^ f.frac
/-- The canonical NaN of R31. -/
def Fmt.nan (f : Fmt) : Nat := f.infMag + 2 ^ (f.frac - 1)
/-- The magnitude code of the largest finite value. -/
def Fmt.maxMag (f : Fmt) : Nat := if f.allFinite then f.signBit - 1 else f.infMag - 1
/-- emin of R31 and R41. -/
def Fmt.emin (f : Fmt) : Int := 1 - (f.bias : Int)
/-- A magnitude code with a sign. -/
def Fmt.signed (f : Fmt) (neg : Bool) (mag : Nat) : Nat := if neg then f.signBit + mag else mag
/-- An infinity. -/
def Fmt.inf (f : Fmt) (neg : Bool) : Nat := f.signed neg f.infMag

/-! ## Exact values -/

/-- A decoded code: NaN, an infinity, or sign, integer magnitude m and exponent e of m × 2^e. -/
inductive Fp where
  | nan
  | inf (neg : Bool)
  | fin (neg : Bool) (m : Nat) (e : Int)
  deriving DecidableEq, Repr

/-- value() of R31 and R41, with the sign of zeros kept. -/
def Fmt.decode (f : Fmt) (c : Nat) : Fp :=
  let neg := c / f.signBit % 2 == 1
  let mag := c % f.signBit
  let ef := mag / 2 ^ f.frac
  let fr := mag % 2 ^ f.frac
  if !f.allFinite && ef == f.emask then (if fr == 0 then .inf neg else .nan)
  else if ef == 0 then .fin neg fr (f.emin - f.frac)
  else .fin neg (2 ^ f.frac + fr) (ef - f.bias - f.frac)

/-- The sign of a decoded code; a NaN counts as positive. -/
def Fp.neg : Fp → Bool
  | .nan => false
  | .inf s => s
  | .fin s _ _ => s

/-- A decoded code with its sign changed. -/
def Fp.negate : Fp → Fp
  | .nan => .nan
  | .inf s => .inf (!s)
  | .fin s m e => .fin (!s) m e

/-- True for a zero of either sign. -/
def Fp.isZero : Fp → Bool
  | .fin _ 0 _ => true
  | _ => false

/-- An exact dyadic number m × 2^e. -/
structure Dy where
  m : Int
  e : Int
  deriving DecidableEq, Repr

/-- The dyadic number of a signed magnitude. -/
def Dy.ofMag (neg : Bool) (m : Nat) (e : Int) : Dy := { m := if neg then -(m : Int) else m, e := e }

/-- An exact sum. -/
def Dy.add (a b : Dy) : Dy :=
  if a.e ≤ b.e then { m := a.m + b.m * 2 ^ (b.e - a.e).toNat, e := a.e }
  else { m := a.m * 2 ^ (a.e - b.e).toNat + b.m, e := b.e }

/-- An exact product. -/
def Dy.mul (a b : Dy) : Dy := { m := a.m * b.m, e := a.e + b.e }

/-- A real magnitude: m × 2^e exactly, or strictly between m × 2^e and (m + 1) × 2^e when `more`. -/
structure Mag where
  m : Nat
  e : Int
  more : Bool
  deriving DecidableEq, Repr

/-- The exact magnitude of a dyadic number. -/
def Dy.mag (a : Dy) : Mag := { m := a.m.natAbs, e := a.e, more := false }

/-! ## round_fmt (R38) -/

/-- Whether a magnitude with a remainder goes up to the next multiple: `half` compares the remainder with one half
(less, equal, greater), `odd` is the parity of the lower multiple. -/
def roundsUp (mode : Fin 4) (neg : Bool) (half : Ordering) (odd : Bool) : Bool :=
  match mode with
  | 0 => (match half with
    | .lt => false
    | .gt => true
    | .eq => odd)
  | 1 => false
  | 2 => !neg
  | 3 => neg

/-- A magnitude cut at weight 2^q: the quotient, whether a remainder is left, and that remainder against one half. -/
def Mag.cut (x : Mag) (q : Int) : Nat × Bool × Ordering :=
  if q ≤ x.e then (x.m * 2 ^ (x.e - q).toNat, x.more, .lt)
  else
    let d := 2 ^ (q - x.e).toNat
    let r := x.m % d
    let o := compare (2 * r) d
    (x.m / d, r != 0 || x.more, if o == .eq && x.more then .gt else o)

/-- round_fmt of R38 for the real of sign `neg` and magnitude x (for x = 0 the sign of the zero is `neg`): the code
and the flags it sets. Codes of one format are consecutive across its exponents, so the rounded magnitude is
(e − emin) × 2^F above its multiple of the spacing. -/
def roundFmt (f : Fmt) (mode : Fin 4) (neg : Bool) (x : Mag) : Nat × Flags :=
  if x.m == 0 && !x.more then (f.signed neg 0, 0)
  else
    let e := max ((Nat.log2 x.m : Int) + x.e) f.emin
    let c := x.cut (e - f.frac)
    let n := c.1 + (if c.2.1 && roundsUp mode neg c.2.2 (c.1 % 2 == 1) then 1 else 0)
    let tiny := (Nat.log2 x.m : Int) + x.e < f.emin
    let fl : Flags := if c.2.1 then (if tiny then flagNX ||| flagUF else flagNX) else 0
    let mag := (e - f.emin).toNat * 2 ^ f.frac + n
    if f.maxMag < mag then
      let big := f.allFinite || !(mode == 0 || (mode == 2 && !neg) || (mode == 3 && neg))
      (f.signed neg (if big then f.maxMag else f.infMag), fl ||| flagOF ||| flagNX)
    else (f.signed neg mag, fl)

/-- round_fmt of an exact dyadic number, with the sign of a zero. -/
def roundDy (f : Fmt) (mode : Fin 4) (zero : Bool) (x : Dy) : Nat × Flags :=
  roundFmt f mode (if x.m = 0 then zero else decide (x.m < 0)) x.mag

/-! ## Sums and products (R40, R315, R319) -/

/-- The sign of an exact zero sum of addends with these signs (R40). -/
def zeroSumSign (mode : Fin 4) (a b : Bool) : Bool := if a == b then a else mode == 3

/-- The sum of two decoded values rounded once (R40, R315). -/
def fpAdd (f : Fmt) (mode : Fin 4) : Fp → Fp → Nat × Flags
  | .nan, _ => (f.nan, 0)
  | _, .nan => (f.nan, 0)
  | .inf s, .inf t => if s == t then (f.inf s, 0) else (f.nan, flagNV)
  | .inf s, .fin _ _ _ => (f.inf s, 0)
  | .fin _ _ _, .inf t => (f.inf t, 0)
  | .fin s m e, .fin t n d => roundDy f mode (zeroSumSign mode s t) ((Dy.ofMag s m e).add (Dy.ofMag t n d))

/-- The exact product of two decoded values: none for 0 × ∞ (R315). -/
def Fp.mul : Fp → Fp → Option Fp
  | .nan, _ => some .nan
  | _, .nan => some .nan
  | .inf s, .inf t => some (.inf (s != t))
  | .inf s, .fin t n _ => if n == 0 then none else some (.inf (s != t))
  | .fin s m _, .inf t => if m == 0 then none else some (.inf (s != t))
  | .fin s m e, .fin t n d => some (.fin (s != t) (m * n) (e + d))

/-- A decoded value rounded into a format. -/
def fpRound (f : Fmt) (mode : Fin 4) : Fp → Nat × Flags
  | .nan => (f.nan, 0)
  | .inf s => (f.inf s, 0)
  | .fin s m e => roundFmt f mode s { m := m, e := e, more := false }

/-- The product rounded once (R40, R315). -/
def fpMul (f : Fmt) (mode : Fin 4) (x y : Fp) : Nat × Flags :=
  match x.mul y with
  | none => (f.nan, flagNV)
  | some p => fpRound f mode p

/-- The fused product-sum a × b + c of R319, the product negated for fnma: 0 × ∞ first, then NaN, then ∞ − ∞. -/
def fpFma (f : Fmt) (mode : Fin 4) (negProd : Bool) (a b c : Fp) : Nat × Flags :=
  match a.mul b with
  | none => (f.nan, flagNV)
  | some p => fpAdd f mode (if negProd then p.negate else p) c

/-! ## The f64, f32 and 16-bit operations on codes -/

/-- fadd of R315. -/
def fAdd (f : Fmt) (x y : Nat) : Nat × Flags := fpAdd f 0 (f.decode x) (f.decode y)
/-- fsub of R315: the sum with the sign of y changed. -/
def fSub (f : Fmt) (x y : Nat) : Nat × Flags := fpAdd f 0 (f.decode x) (f.decode y).negate
/-- fmul of R315. -/
def fMul (f : Fmt) (x y : Nat) : Nat × Flags := fpMul f 0 (f.decode x) (f.decode y)
/-- fma and fnma of R319. -/
def fFma (f : Fmt) (mode : Fin 4) (negProd : Bool) (a b c : Nat) : Nat × Flags :=
  fpFma f mode negProd (f.decode a) (f.decode b) (f.decode c)

/-- Whether a code is a NaN. -/
def Fmt.isNan (f : Fmt) (c : Nat) : Bool := f.decode c == .nan

/-- A key that orders the codes that are not NaN as R35 does, −0 below +0. -/
def Fmt.orderKey (f : Fmt) (c : Nat) : Int :=
  if c / f.signBit % 2 == 1 then -((c % f.signBit : Nat) : Int) - 1 else (c % f.signBit : Nat)

/-- A key that orders the codes that are not NaN by value, −0 equal to +0 (R318, R331). -/
def Fmt.valueKey (f : Fmt) (c : Nat) : Int :=
  if c / f.signBit % 2 == 1 then -((c % f.signBit : Nat) : Int) else (c % f.signBit : Nat)

/-- Minimum and maximum of R35; `nan` propagates a NaN. -/
def fMinMax (f : Fmt) (isMax nan : Bool) (x y : Nat) : Nat :=
  if f.isNan x then (if nan || f.isNan y then f.nan else y)
  else if f.isNan y then (if nan then f.nan else x)
  else if isMax then (if f.orderKey x < f.orderKey y then y else x)
  else (if f.orderKey y < f.orderKey x then y else x)

/-- fcpsgn of R315: the bits of x with the sign bit of y. -/
def fCopySign (f : Fmt) (x y : Nat) : Nat := f.signed (y / f.signBit % 2 == 1) (x % f.signBit)

/-- The relations of R318: eq, lt, le, un. -/
def fCompare (f : Fmt) (rel : Fin 4) (x y : Nat) : Bool :=
  let un := f.isNan x || f.isNan y
  match rel with
  | 0 => !un && f.valueKey x == f.valueKey y
  | 1 => !un && decide (f.valueKey x < f.valueKey y)
  | 2 => !un && decide (f.valueKey x ≤ f.valueKey y)
  | 3 => un

/-! ## Rounding to an integer (R321, R326) -/

/-- A finite value rounded to an integer magnitude, and whether that was exact. -/
def roundInt (mode : Fin 4) (neg : Bool) (x : Mag) : Nat × Bool :=
  let c := x.cut 0
  (c.1 + (if c.2.1 && roundsUp mode neg c.2.2 (c.1 % 2 == 1) then 1 else 0), !c.2.1)

/-- fround of R326. -/
def fRound (f : Fmt) (mode : Fin 4) (c : Nat) : Nat :=
  match f.decode c with
  | .nan => f.nan
  | .inf _ => c
  | .fin s m e =>
    if m == 0 then c
    else (roundFmt f 0 s { m := (roundInt mode s { m := m, e := e, more := false }).1, e := 0, more := false }).1

/-- fclass of R325: the bit of the class of x. -/
def fClass (f : Fmt) (c : Nat) : Nat :=
  match f.decode c with
  | .nan => 256
  | .inf s => if s then 1 else 128
  | .fin s m e =>
    if m == 0 then (if s then 8 else 16)
    else if m < 2 ^ f.frac && e == f.emin - f.frac then (if s then 4 else 32)
    else (if s then 2 else 64)

/-! ## Conversion (R320, R321, R39) -/

/-- The element types of R72, by code. -/
inductive NumTy where
  | int (width : Nat) (signed : Bool)
  | float (f : Fmt)
  | other
  deriving DecidableEq, Repr

/-- The type codes of R72 (0xE is h2 and 0xF reserved). -/
def numTy (t : Nat) : NumTy :=
  match t with
  | 0 => .int 8 false
  | 1 => .int 8 true
  | 2 => .int 16 false
  | 3 => .int 16 true
  | 4 => .int 32 false
  | 5 => .int 32 true
  | 6 => .int 64 false
  | 7 => .int 64 true
  | 8 => .float fmtF32
  | 9 => .float fmtF64
  | 10 => .float fmtBf16
  | 11 => .float fmtF16
  | 12 => .float fmtE4m3
  | 13 => .float fmtE5m2
  | _ => .other

/-- The limits of an integer type (R30). -/
def intMin (w : Nat) (signed : Bool) : Int := if signed then -(2 ^ (w - 1) : Int) else 0
/-- The limits of an integer type (R30). -/
def intMax (w : Nat) (signed : Bool) : Int := if signed then 2 ^ (w - 1) - 1 else 2 ^ w - 1

/-- clamp(v, t) of R321. -/
def clampInt (w : Nat) (signed : Bool) (v : Int) : Int := max (intMin w signed) (min v (intMax w signed))

/-- The integer that the low w bits of a register hold (R30). -/
def intOfBits (w : Nat) (signed : Bool) (c : Nat) : Int :=
  let x := c % 2 ^ w
  if signed && 2 ^ (w - 1) ≤ x then (x : Int) - 2 ^ w else x

/-- The two's complement of an integer in w bits. -/
def bitsOfInt (w : Nat) (v : Int) : Nat := (v % (2 ^ w : Int)).toNat

/-- How cvt writes an integer: 8- and 16-bit signed results are sign-extended to 32 bits (R320). -/
def intToReg (w : Nat) (signed : Bool) (v : Int) : Nat :=
  if w < 32 && signed then bitsOfInt 32 v else bitsOfInt w v

/-- A float code into another float format under R39 and R321. -/
def floatToFloat (src dst : Fmt) (mode : Fin 4) (c : Nat) : Nat × Flags :=
  match src.decode c with
  | .nan => if dst.allFinite then (0, flagNV) else (dst.nan, 0)
  | .inf s => if dst.allFinite then (dst.signed s dst.maxMag, flagOF) else (dst.inf s, 0)
  | .fin s m e => roundFmt dst mode s { m := m, e := e, more := false }

/-- A float code into an integer under R321. -/
def floatToInt (src : Fmt) (w : Nat) (signed : Bool) (mode : Fin 4) (c : Nat) : Int × Flags :=
  match src.decode c with
  | .nan => (0, flagNV)
  | .inf s => (if s then intMin w signed else intMax w signed, flagNV)
  | .fin s m e =>
    let r := roundInt mode s { m := m, e := e, more := false }
    let q : Int := if s then -(r.1 : Int) else r.1
    if q < intMin w signed || intMax w signed < q then (clampInt w signed q, flagNV)
    else (q, if r.2 then 0 else flagNX)

/-- An integer into a float format, the zero positive (R321). -/
def intToFloat (dst : Fmt) (mode : Fin 4) (v : Int) : Nat × Flags := roundDy dst mode false { m := v, e := 0 }

/-- cvt of R321 between two types: the register bits of the result and the flags. A type without a number never
reaches it (R322 rejects the codes 0xE and 0xF). -/
def convert (src dst : NumTy) (mode : Fin 4) (c : Nat) : Nat × Flags :=
  match src, dst with
  | .int w s, .int w' s' => (intToReg w' s' (clampInt w' s' (intOfBits w s c)), 0)
  | .int w s, .float f => intToFloat f mode (intOfBits w s c)
  | .float f, .float f' => floatToFloat f f' mode (c % 2 ^ f.width)
  | .float f, .int w s =>
    let r := floatToInt f w s mode (c % 2 ^ f.width)
    (intToReg w s r.1, r.2)
  | _, _ => (0, 0)

end Sys2Proof.Machine
end

