-- ==== Sys2Proof/Machine/Special.lean ====
section
/-! DEFINITION. The special functions of R323 and R324: quotients and roots from exact integer quotients and integer
roots, the transcendental functions in fixed point with 640 fractional bits of which 512 enter the rounding (log 9),
and the exact sums of mstat (R329 to R331). -/

namespace Sys2Proof.Machine

/-! ## Quotients and roots -/

/-- The magnitude (a × 2^e) / b, with enough quotient bits for every format. -/
def quotMag (a b : Nat) (e : Int) : Mag :=
  let k := 64 + Nat.log2 b
  { m := a * 2 ^ k / b, e := e - k, more := a * 2 ^ k % b != 0 }

/-- One bit of an integer square root: keeps r, or r + 2^k where its square does not pass n. -/
def isqrtBits (n : Nat) : Nat → Nat → Nat
  | 0, r => r
  | k + 1, r =>
    let t := r + 2 ^ k
    isqrtBits n k (if t * t ≤ n then t else r)

/-- The integer square root. -/
def isqrt (n : Nat) : Nat := isqrtBits n (Nat.log2 n / 2 + 1) 0

/-- The magnitude √(m × 2^e). -/
def sqrtMag (m : Nat) (e : Int) : Mag :=
  let m' := if e % 2 == 0 then m else 2 * m
  let e' := if e % 2 == 0 then e else e - 1
  let n := m' * 2 ^ 128
  let r := isqrt n
  { m := r, e := e' / 2 - 64, more := r * r != n }

/-- The magnitude 1 / √(m × 2^e) for m > 0. -/
def rsqrtMag (m : Nat) (e : Int) : Mag :=
  let m' := if e % 2 == 0 then m else 2 * m
  let e' := if e % 2 == 0 then e else e - 1
  let r := isqrt (2 ^ 256 / m')
  { m := r, e := -(e' / 2) - 128, more := r * r * m' != 2 ^ 256 }

/-! ## Fixed point with 640 fractional bits -/

/-- π, rounded down to 640 fractional bits. -/
def fixPi : Nat :=
  0x3243f6a8885a308d313198a2e03707344a4093822299f31d0082efa98ec4e6c89452821e638d01377be5466cf34e90c6cc0ac29b7c97c50dd3f84d5b5b54709179216d5d98979fb1bd1310ba698dfb5ac
/-- ln 2, rounded down to 640 fractional bits. -/
def fixLn2 : Nat :=
  0xb17217f7d1cf79abc9e3b39803f2f6af40f343267298b62d8a0d175b8baafa2be7b876206debac98559552fb4afa1b10ed2eae35c138214427573b291169b8253e96ca16224ae8c51acbda11317c387e
/-- 1. -/
def fixOne : Nat := 2 ^ 640

/-- m × 2^e in fixed point. -/
def fixOf (m : Nat) (e : Int) : Nat :=
  if 0 ≤ e + 640 then m * 2 ^ (e + 640).toNat else m / 2 ^ (-(e + 640)).toNat

/-- A transcendental magnitude from its fixed-point value: the low 128 bits, which hold the evaluation's error, are
cut; the exact value is never dyadic, so a remainder is always left. -/
def fixMag (x : Nat) : Mag := { m := x / 2 ^ 128, e := -512, more := true }

/-- The terms x^n / n! of the exponential series from n on. -/
def expTerms (x : Nat) : Nat → Nat → Nat → Nat → Nat
  | 0, _, _, acc => acc
  | k + 1, n, t, acc =>
    let t' := t * x / fixOne / n
    expTerms x k (n + 1) t' (acc + t')

/-- e^x for 0 ≤ x < 1. -/
def fixExp (x : Nat) : Nat := expTerms x 160 1 fixOne fixOne

/-- The terms t^n / n of the series of atanh, n odd. -/
def atanhTerms (tt : Nat) : Nat → Nat → Nat → Nat → Nat
  | 0, _, _, acc => acc
  | k + 1, n, p, acc => atanhTerms tt k (n + 2) (p * tt / fixOne) (acc + p / n)

/-- atanh t for 0 ≤ t ≤ 1/3. -/
def fixAtanh (t : Nat) : Nat := atanhTerms (t * t / fixOne) 220 1 t 0

/-- The terms x^n / n! of sine and cosine with alternating signs, from n on; the sums of both signs are kept apart. -/
def trigTerms (xx : Nat) : Nat → Nat → Nat → Nat → Nat → Nat
  | 0, _, _, pos, neg => pos - neg
  | k + 1, n, t, pos, neg => trigTerms xx k (n + 2) (t * xx / fixOne / ((n + 1) * (n + 2))) neg (pos + t)

/-- sin x for 0 ≤ x < 2. An even number of terms leaves the sums in place. -/
def fixSin (x : Nat) : Nat := trigTerms (x * x / fixOne) 100 1 x 0 0
/-- cos x for 0 ≤ x ≤ π/2. -/
def fixCos (x : Nat) : Nat := trigTerms (x * x / fixOne) 100 0 fixOne 0 0

/-- A magnitude just below m × 2^e. -/
def justBelow (m : Nat) (e : Int) : Mag := { m := m * 2 ^ 64 - 1, e := e - 64, more := true }

/-- A magnitude just above m × 2^e. -/
def justAbove (m : Nat) (e : Int) : Mag := { m := m * 2 ^ 64, e := e - 64, more := true }

/-- Whether m × 2^e lies below 2^−40. -/
def isSmall (m : Nat) (e : Int) : Bool := decide ((Nat.log2 m : Int) + e < -40)

/-- sin or cos of a finite nonzero value below 2^128: sign and magnitude. The argument is reduced by multiples of
π/2; below 2^−40 the value lies just below x or just below 1. -/
def trig (cosine neg : Bool) (m : Nat) (e : Int) : Bool × Mag :=
  if isSmall m e then (if cosine then (false, justBelow 1 0) else (neg, justBelow m e))
  else
    let half := fixPi / 2
    let x := fixOf m e
    let q := x / half % 4
    let r := x % half
    let q' := if cosine then (q + 1) % 4 else q
    let v := if q' % 2 == 0 then fixSin r else fixCos r
    let s := 2 ≤ q'
    (if cosine then s else (s != neg), fixMag v)

/-- 2^x: for an integer x exactly, else through e^(f ln 2) of the fraction; very small and very large x are cut to
where the result underflows or overflows alike. -/
def exp2Mag (neg : Bool) (m : Nat) (e : Int) : Mag :=
  if isSmall m e then (if neg then justBelow 1 0 else justAbove 1 0)
  else if 9 ≤ (Nat.log2 m : Int) + e then { m := 1, e := if neg then -600 else 600, more := false }
  else
    let x := fixOf m e
    let i : Int := if neg then (if x % fixOne == 0 then -((x / fixOne : Nat) : Int) else -((x / fixOne : Nat) : Int) - 1)
      else (x / fixOne : Nat)
    let f := if neg then (fixOne - x % fixOne) % fixOne else x % fixOne
    if f == 0 then { m := 1, e := i, more := false }
    else
      let v := fixMag (fixExp (f * fixLn2 / fixOne))
      { v with e := v.e + i }

/-- log2 of a positive finite value: sign and magnitude. -/
def log2Mag (m : Nat) (e : Int) : Bool × Mag :=
  let k := Nat.log2 m
  let i : Int := k + e
  if m == 2 ^ k then (decide (i < 0), { m := i.natAbs, e := 0, more := false })
  else
    let t := (m - 2 ^ k) * fixOne / (m + 2 ^ k)
    let l := 2 * fixAtanh t * fixOne / fixLn2
    let v : Int := i * fixOne + l
    (decide (v < 0), fixMag v.natAbs)

/-- |tanh x| of a finite nonzero value. -/
def tanhMag (m : Nat) (e : Int) : Mag :=
  if isSmall m e then justBelow m e
  else if 6 ≤ (Nat.log2 m : Int) + e then justBelow 1 0
  else
    let y := fixOf m (e + 1)
    let k := y / fixLn2
    let ex := fixExp (y % fixLn2) * 2 ^ k
    fixMag (fixOne - 2 * fixOne * fixOne / (ex + fixOne))

/-! ## R323 and R324 -/

/-- frcp. -/
def fRcp (f : Fmt) (c : Nat) : Nat × Flags :=
  match f.decode c with
  | .nan => (f.nan, 0)
  | .inf s => (f.signed s 0, 0)
  | .fin s m e => if m == 0 then (f.inf s, flagDZ) else roundFmt f 0 s (quotMag 1 m (-e))

/-- fdiv. -/
def fDiv (f : Fmt) (x y : Nat) : Nat × Flags :=
  match f.decode x, f.decode y with
  | .nan, _ => (f.nan, 0)
  | _, .nan => (f.nan, 0)
  | .inf _, .inf _ => (f.nan, flagNV)
  | .inf s, .fin t _ _ => (f.inf (s != t), 0)
  | .fin s _ _, .inf t => (f.signed (s != t) 0, 0)
  | .fin s m e, .fin t n d =>
    if n == 0 then (if m == 0 then (f.nan, flagNV) else (f.inf (s != t), flagDZ))
    else roundFmt f 0 (s != t) (quotMag m n (e - d))

/-- fsqrt. -/
def fSqrt (f : Fmt) (c : Nat) : Nat × Flags :=
  match f.decode c with
  | .nan => (f.nan, 0)
  | .inf s => if s then (f.nan, flagNV) else (f.inf false, 0)
  | .fin s m e =>
    if m == 0 then (f.signed s 0, 0) else if s then (f.nan, flagNV) else roundFmt f 0 false (sqrtMag m e)

/-- frsqrt. -/
def fRsqrt (f : Fmt) (c : Nat) : Nat × Flags :=
  match f.decode c with
  | .nan => (f.nan, 0)
  | .inf s => if s then (f.nan, flagNV) else (f.signed false 0, 0)
  | .fin s m e =>
    if m == 0 then (f.inf s, flagDZ) else if s then (f.nan, flagNV) else roundFmt f 0 false (rsqrtMag m e)

/-- The code of 1.0. -/
def Fmt.one (f : Fmt) : Nat := f.bias * 2 ^ f.frac

/-- fexp2. -/
def fExp2 (f : Fmt) (c : Nat) : Nat × Flags :=
  match f.decode c with
  | .nan => (f.nan, 0)
  | .inf s => (if s then f.signed false 0 else f.inf false, 0)
  | .fin s m e => if m == 0 then (f.one, 0) else roundFmt f 0 false (exp2Mag s m e)

/-- flog2; an exact zero result is +0. -/
def fLog2 (f : Fmt) (c : Nat) : Nat × Flags :=
  match f.decode c with
  | .nan => (f.nan, 0)
  | .inf s => if s then (f.nan, flagNV) else (f.inf false, 0)
  | .fin s m e =>
    if m == 0 then (f.inf true, flagDZ) else if s then (f.nan, flagNV)
    else
      let r := log2Mag m e
      roundFmt f 0 r.1 r.2

/-- fsin and fcos. -/
def fTrig (f : Fmt) (cosine : Bool) (c : Nat) : Nat × Flags :=
  match f.decode c with
  | .nan => (f.nan, 0)
  | .inf _ => (f.nan, flagNV)
  | .fin s m e =>
    if m == 0 then (if cosine then f.one else f.signed s 0, 0)
    else
      let r := trig cosine s m e
      roundFmt f 0 r.1 r.2

/-- ftanh. -/
def fTanh (f : Fmt) (c : Nat) : Nat × Flags :=
  match f.decode c with
  | .nan => (f.nan, 0)
  | .inf s => (f.signed s f.one, 0)
  | .fin s m e => if m == 0 then (f.signed s 0, 0) else roundFmt f 0 s (tanhMag m e)

/-! ## Member statistics (R329 to R331) -/

/-- The exact sum of the finite values among decoded codes. -/
def sumFinite (xs : List Fp) : Dy :=
  xs.foldl (fun acc x => match x with
    | .fin s m e => acc.add (Dy.ofMag s m e)
    | .inf _ => acc
    | .nan => acc) { m := 0, e := 0 }

/-- The exact sum of the squares of the finite values among decoded codes. -/
def sumSquares (xs : List Fp) : Dy :=
  xs.foldl (fun acc x => match x with
    | .fin _ m e => acc.add { m := (m * m : Nat), e := 2 * e }
    | .inf _ => acc
    | .nan => acc) { m := 0, e := 0 }

/-- A dyadic number divided by a natural number and rounded once; a zero is positive. -/
def roundQuot (f : Fmt) (x : Dy) (n : Nat) : Nat × Flags := roundFmt f 0 (decide (x.m < 0)) (quotMag x.m.natAbs n x.e)

/-- The mean of R329. -/
def statMean (f : Fmt) (cs : List Nat) : Nat × Flags :=
  let xs := cs.map f.decode
  if xs.contains .nan then (f.nan, 0)
  else if xs.contains (.inf false) && xs.contains (.inf true) then (f.nan, flagNV)
  else if xs.contains (.inf false) then (f.inf false, 0)
  else if xs.contains (.inf true) then (f.inf true, 0)
  else roundQuot f (sumFinite xs) xs.length

/-- The variance of R329. -/
def statVar (f : Fmt) (cs : List Nat) : Nat × Flags :=
  let xs := cs.map f.decode
  if xs.contains .nan then (f.nan, 0)
  else if xs.contains (.inf false) || xs.contains (.inf true) then (f.nan, flagNV)
  else
    let n := xs.length
    let s := sumFinite xs
    let sq := sumSquares xs
    roundQuot f (Dy.add { m := n * sq.m, e := sq.e } { m := -(s.m * s.m), e := 2 * s.e }) (n * n)

/-- Minimum or maximum of all values under R35. -/
def statMinMax (f : Fmt) (isMax : Bool) : List Nat → Nat
  | [] => f.nan
  | [c] => if f.isNan c then f.nan else c
  | c :: cs => fMinMax f isMax false c (statMinMax f isMax cs)

/-- A code put into its place in the order of R330. -/
def insertCode (f : Fmt) (c : Nat) : List Nat → List Nat
  | [] => [c]
  | d :: ds => if f.orderKey c ≤ f.orderKey d then c :: d :: ds else d :: insertCode f c ds

/-- The codes that are not NaN in the order of R330. -/
def sortCodes (f : Fmt) (cs : List Nat) : List Nat :=
  (cs.filter (fun c => !f.isNan c)).foldr (insertCode f) []

/-- The quantile of R330 at index k. -/
def statQuant (f : Fmt) (k : Nat) (cs : List Nat) : Nat :=
  let xs := sortCodes f cs
  xs.getD (min k (xs.length - 1)) f.nan

/-- The rank word of R331 for the observation o. -/
def statRank (f : Fmt) (o : Nat) (cs : List Nat) : Nat :=
  if f.isNan o then 0xFFFFFFFF
  else
    let xs := cs.filter (fun c => !f.isNan c)
    let below := (xs.filter (fun c => decide (f.valueKey c < f.valueKey o))).length
    let equal := (xs.filter (fun c => f.valueKey c == f.valueKey o)).length
    equal * 65536 + below

end Sys2Proof.Machine
end

