-- ==== Sys2Proof/Machine/Exact.lean ====
section
/-! DEFINITION. Block formats (R43 to R47), the accumulation of the matrix engine (R49, R50), exact accumulator slots
(R51 to R53) and their compressed form (R54, R55). -/

namespace Sys2Proof.Machine

/-! ## Block formats -/

/-- mmax of R47. -/
def bxMax (is8 : Bool) : Nat := if is8 then 63 else 3
/-- off of R47. -/
def bxOff (is8 : Bool) : Int := if is8 then 132 else 128
/-- The bits of a bx element's magnitude (R43). -/
def bxBits (is8 : Bool) : Nat := if is8 then 6 else 2

/-- The value of a bx element on its scale pair (R43, R44). -/
def bxDecode (is8 : Bool) (e0 e1 code : Nat) : Fp :=
  let w := bxBits is8
  if e0 == 255 || e1 == 255 then .nan
  else
    let sel := code / 2 ^ (w + 1) % 2
    let e : Int := if sel == 1 then e1 else e0
    .fin (code / 2 ^ w % 2 == 1) (code % 2 ^ w) (e - bxOff is8)

/-- The unit of scale E in multiples of 2^−149, the finest that a magnitude of f32 needs. -/
def bxUnit (is8 : Bool) (e : Nat) : Nat := 2 ^ ((e : Int) - bxOff is8 + 149).toNat

/-- quant of R47; the magnitude counts multiples of 2^−149. -/
def bxQuant (is8 : Bool) (a e : Nat) : Nat :=
  let u := bxUnit is8 e
  let q := a / u
  let r := a % u
  let up := u < 2 * r || (2 * r == u && q % 2 == 1)
  min (if up then q + 1 else q) (bxMax is8)

/-- The quantisation error of a magnitude on scale E. -/
def bxDist (is8 : Bool) (a e : Nat) : Nat :=
  let v := bxQuant is8 a e * bxUnit is8 e
  if a ≤ v then v - a else a - v

/-- pick of R47: the selector and m. -/
def bxPick (is8 : Bool) (a e0 e1 : Nat) : Nat × Nat :=
  if bxDist is8 a e0 < bxDist is8 a e1 then (0, bxQuant is8 a e0) else (1, bxQuant is8 a e1)

/-- err of R47. -/
def bxErr (is8 : Bool) (as : List Nat) (c e1 : Nat) : Nat :=
  as.foldl (fun acc a => acc + min (bxDist is8 a c) (bxDist is8 a e1)) 0

/-- An f32 code's magnitude in multiples of 2^−149; an infinity counts as 2^128 − 2^104. -/
def bxMagnitude (x : Nat) : Nat :=
  match fmtF32.decode x with
  | .nan => 0
  | .inf _ => 2 ^ 277 - 2 ^ 253
  | .fin _ m e => m * 2 ^ (e + 149).toNat

/-- A bx element's code from selector, sign and m (R43). -/
def bxCode (is8 neg : Bool) (sel m : Nat) : Nat :=
  sel * 2 ^ (bxBits is8 + 1) + (if neg then 2 ^ bxBits is8 else 0) + m

/-- bx_encode of R47: E0, E1, the element codes and the flags. -/
def bxEncode (is8 : Bool) (xs : List Nat) : Nat × Nat × List Nat × Flags :=
  if xs.any fmtF32.isNan then (255, 255, xs.map (fun _ => 0), 0)
  else
    let as := xs.map bxMagnitude
    let amax := as.foldl max 0
    let e1 := if amax == 0 then 0 else (min (max ((Nat.log2 amax : Int) - 149 + 127) 0) 254).toNat
    let e0 := if 4 ≤ e1 && bxErr is8 as (e1 - 4) e1 < bxErr is8 as e1 e1 then e1 - 4 else e1
    let picks := as.map (fun a => bxPick is8 a e0 e1)
    let codes := (xs.zip picks).map (fun p => bxCode is8 (fmtF32.decode p.1).neg p.2.1 p.2.2)
    let inexact := (as.zip picks).any (fun p => p.2.2 * bxUnit is8 (if p.2.1 == 0 then e0 else e1) != p.1)
    let isInf := fun x => (x % fmtF32.signBit) == fmtF32.infMag
    let under := (xs.zip picks).any (fun p => !isInf p.1 && p.1 % fmtF32.signBit != 0 && p.2.2 == 0)
    let fl := (if inexact then flagNX else 0) ||| (if under then flagUF else 0) |||
      (if xs.any isInf then flagOF else 0)
    (e0, e1, codes, fl)

/-! ## Matrix engine accumulation (R49, R50) -/

/-- The product of two decoded operands; 0 × ∞ is NaN. -/
def meProduct (a b : Fp) : Fp :=
  match a.mul b with
  | none => .nan
  | some p => p

/-- The exponent floor(log2 |p|) of a nonzero finite product. -/
def fpExponent : Fp → Option Int
  | .nan => none
  | .inf _ => none
  | .fin _ m e => if m == 0 then none else some ((Nat.log2 m : Int) + e)

/-- emax of R50. -/
def maxExponent (ps : List Fp) : Option Int :=
  ps.foldl (fun acc p => match acc, fpExponent p with
    | none, x => x
    | some a, none => some a
    | some a, some b => some (max a b)) none

/-- trunc(p / w) for w = 2^q. -/
def truncTo (q : Int) : Fp → Int
  | .nan => 0
  | .inf _ => 0
  | .fin s m e =>
    let v : Nat := if q ≤ e then m * 2 ^ (e - q).toNat else m / 2 ^ (q - e).toNat
    if s then -(v : Int) else v

/-- chunk_sum of R50; none is SKIP. -/
def chunkSum (ps : List Fp) : Option Fp :=
  if ps.contains .nan || (ps.contains (.inf false) && ps.contains (.inf true)) then some .nan
  else if ps.contains (.inf false) then some (.inf false)
  else if ps.contains (.inf true) then some (.inf true)
  else
    match maxExponent ps with
    | none => none
    | some emax =>
      let s := ps.foldl (fun acc p => acc + truncTo (emax - 41) p) 0
      if s == 0 then none else some (.fin (decide (s < 0)) s.natAbs (emax - 41))

/-- One chunk added into an f32 accumulator (R50). The zero of an exact cancellation has the accumulator's sign. -/
def accChunk (acc : Nat) (ps : List Fp) : Nat :=
  match chunkSum ps with
  | none => acc
  | some s =>
    match fmtF32.decode acc, s with
    | .nan, _ => fmtF32.nan
    | .inf _, .nan => fmtF32.nan
    | .fin _ _ _, .nan => fmtF32.nan
    | .inf a, .inf b => if a == b then fmtF32.inf a else fmtF32.nan
    | .inf a, .fin _ _ _ => fmtF32.inf a
    | .fin _ _ _, .inf b => fmtF32.inf b
    | .fin a m e, .fin b n d => (roundDy fmtF32 0 a ((Dy.ofMag a m e).add (Dy.ofMag b n d))).1

/-- The products of all K in order, cut into chunks of 32 and added in ascending order (R50). The fuel counts chunks. -/
def accChunks : Nat → Nat → List Fp → Nat
  | 0, acc, _ => acc
  | n + 1, acc, ps => accChunks n (accChunk acc (ps.take 32)) (ps.drop 32)

/-- A row of operand pairs accumulated in f32 by chunks. -/
def accNarrow (acc : Nat) (xs : List (Fp × Fp)) : Nat :=
  accChunks ((xs.length + 31) / 32) acc (xs.map (fun p => meProduct p.1 p.2))

/-- A row of operand pairs accumulated one product after another in f32 or f64 (R49). -/
def accWide (f : Fmt) (acc : Nat) (xs : List (Fp × Fp)) : Nat :=
  xs.foldl (fun a p => (fpFma f 0 false p.1 p.2 (f.decode a)).1) acc

/-- A row of integer operand pairs accumulated modulo 2^32 (R49). -/
def accInt (acc : Nat) (xs : List (Int × Int)) : Nat :=
  bitsOfInt 32 (xs.foldl (fun a p => a + p.1 * p.2) (acc : Int))

/-! ## Exact accumulator slots (R51 to R53) -/

/-- An XA whose VALUE, flags and COUNT are zero. -/
def Xa.zero : Xa := { value := 0, pinf := false, ninf := false, nans := false, range := false, count := 0 }

/-- value(VALUE) in multiples of 2^−1088. -/
def xaUnits (x : Xa) : Int := x.value.toInt

/-- VALUE, RANGE after adding t multiples of 2^−1088 to the value. -/
def xaPut (x : Xa) (t : Int) : Xa :=
  { x with value := BitVec.ofInt 2240 t, range := x.range || decide (t < -(2 ^ 2239 : Int)) || decide ((2 ^ 2239 : Int) ≤ t) }

/-- A count that saturates at 2^48 − 1. -/
def xaCount (a b : BitVec 48) : BitVec 48 := BitVec.ofNat 48 (min (a.toNat + b.toNat) (2 ^ 48 - 1))

/-- xa_add of R52. -/
def xaAdd (x : Xa) (v : Fp) : Xa :=
  let y := { x with count := xaCount x.count 1 }
  match v with
  | .nan => { y with nans := true }
  | .inf s => if s then { y with ninf := true } else { y with pinf := true }
  | .fin s m e => xaPut y (xaUnits x + (Dy.ofMag s (m * 2 ^ (e + 1088).toNat) 0).m)

/-- xa_merge of R52. -/
def xaMerge (x y : Xa) : Xa :=
  xaPut { x with count := xaCount x.count y.count, pinf := x.pinf || y.pinf, ninf := x.ninf || y.ninf,
                 nans := x.nans || y.nans, range := x.range || y.range } (xaUnits x + xaUnits y)

/-- xround of R53. -/
def xaRound (f : Fmt) (mode : Fin 4) (x : Xa) : Nat × Flags :=
  if x.nans then (f.nan, 0)
  else if x.pinf && x.ninf then (f.nan, flagNV)
  else if x.range then (f.nan, flagNV)
  else if x.pinf then (f.inf false, 0)
  else if x.ninf then (f.inf true, 0)
  else if x.value == 0 then (f.signed (mode == 3) 0, 0)
  else roundDy f mode false { m := xaUnits x, e := -1088 }

/-- The status word of R51. -/
def xaStatus (x : Xa) : Nat :=
  x.pinf.toNat + 2 * x.ninf.toNat + 4 * x.nans.toNat + 8 * x.range.toNat + 16 * x.count.toNat

/-- An XA from VALUE and a status word; the reserved bits are dropped. -/
def xaOf (v status : Nat) : Xa :=
  { value := BitVec.ofNat 2240 v, pinf := status.testBit 0, ninf := status.testBit 1, nans := status.testBit 2,
    range := status.testBit 3, count := BitVec.ofNat 48 (status / 16) }

/-- The 288 bytes of an XA as one little-endian number (R51). -/
def xaImage (x : Xa) : Nat := x.value.toNat + xaStatus x * 2 ^ 2240

/-- An XA from the number its 288 bytes make. -/
def xaOfImage (n : Nat) : Xa := xaOf (n % 2 ^ 2240) (n / 2 ^ 2240 % 2 ^ 64)

/-- Limb j of VALUE. -/
def xaLimb (x : Xa) (j : Nat) : Nat := x.value.toNat / 2 ^ (64 * j) % 2 ^ 64

/-! ## Compressed exact form (R54, R55) -/

/-- The nonzero limbs' numbers in ascending order. -/
def cxfPresent (x : Xa) : List Nat := (List.range 35).filter (fun j => xaLimb x j != 0)

/-- The presence map. -/
def cxfMap (x : Xa) : Nat := (cxfPresent x).foldl (fun acc j => acc + 2 ^ j) 0

/-- The CXF of an XA as 64-bit words. -/
def cxfWords (x : Xa) : List Nat := cxfMap x :: xaStatus x :: (cxfPresent x).map (xaLimb x)

/-- The CXF of an XA as bytes. -/
def cxfBytes (x : Xa) : List Byte := (cxfWords x).flatMap (leBytes 8)

/-- The limb numbers that a presence map names. -/
def cxfLimbs (map : Nat) : List Nat := (List.range 35).filter (fun j => map.testBit j)

/-- Whether a header has a nonzero RsvdC bit. -/
def cxfMalformed (map status : Nat) : Bool := map / 2 ^ 35 != 0 || status / 2 ^ 52 % 2 ^ 12 != 0

/-- The XA of a header and the limbs that follow it. -/
def cxfValue (map status : Nat) (limbs : List Nat) : Xa :=
  xaOf (((cxfLimbs map).zip limbs).foldl (fun acc p => acc + p.2 * 2 ^ (64 * p.1)) 0) status

/-- The XA of a CXF given as bytes; none where it is malformed or too short. -/
def cxfRead (bs : List Byte) : Option Xa :=
  let map := leNat (bs.take 8)
  let status := leNat ((bs.drop 8).take 8)
  let n := (cxfLimbs map).length
  if bs.length < 16 + 8 * n || cxfMalformed map status then none
  else some (cxfValue map status ((List.range n).map (fun k => leNat ((bs.drop (16 + 8 * k)).take 8))))

end Sys2Proof.Machine
end

