-- ==== Sys2Proof/Config.lean ====
section
/-! DEFINITION. What an implementation fixes and the spec leaves open: free values without a body, the identity of one
part, and its cryptography (R449 to R453) as uninterpreted functions (log 8, log 10). -/

namespace Sys2Proof.Config

/-- A value that the spec leaves open, fresh at each number of the state's counter (log 8). -/
opaque freeWord : Nat → Word64

/-- Whether the lines that hold partials fill the set of an L1 that a line goes to: the organisation of an L1 is not given (R237; log
60). -/
opaque l1Full : (held : List Nat) → (line : Nat) → Bool

/-- SHA-512 of R29 and R451 over a byte string. -/
opaque sha512 : List Byte → List Byte

/-- The ECDSA P-521 signature of the attestation key of one boot over a report's bytes, 132 bytes (R453). -/
opaque ecdsaSign : (boot : Nat) → List Byte → List Byte

/-- Whether an image carries a valid vendor signature (R449, R450). -/
opaque verifyImage : List Byte → Bool

/-- The security version number of an image (R450). -/
opaque imageSvn : List Byte → Nat

/-- The fused minimum of the security version (R450). -/
opaque minSvn : Nat

/-- Whether an image's device class names TH8E (R450). -/
opaque imageClassOk : List Byte → Bool

/-- The serial number of the part. -/
opaque serial : Nat

/-- The version of the boot ROM. -/
opaque romVersion : Nat

/-- The public attestation key of one boot, 132 bytes (R453). -/
opaque akPub : (boot : Nat) → List Byte

/-- The signature of the device identity key over a byte string, 132 bytes (R452). -/
opaque dikSign : List Byte → List Byte

/-- The certificate of the device identity key (R452). -/
opaque dikCert : List Byte

/-- The 256 bytes of a flit after forward error correction by its parity bytes (R392 gives no generator). -/
opaque fecCorrect : List Byte → List Byte

end Sys2Proof.Config
end

