-- ==== Sys2Proof/Machine/State.lean ====
section
/-! DEFINITION. The state of the whole part: the groups with their registers and their accesses in flight, workgroups,
units, launches, contexts and queues, translation, memory with its directories and copies, the engines, the links and
the management controller; the reasons to stop; and the state right after a power-on reset. Plain data throughout:
collections are lists, an entry that does not exist is not listed. -/

namespace Sys2Proof.Machine

/-! ## Memory and places -/

/-- Bytes by address in canonical form: addresses strictly rising, no zero byte listed; an unlisted byte reads zero
(R448 step 6 scrubs every memory to zero; log 4). -/
abbrev Memory := List Host.Cell

/-- Where an access is performed (R243): device memory by physical address, a peer's memory, a host's memory. -/
inductive Place where
  | dev (pa : Nat)
  | peer (id pa : Nat)
  | host (port addr : Nat)
  deriving DecidableEq, Repr

/-- One leaf of a page table as a TLB holds it (R198, R199, R205): context, first address of the page, word 0 and
word 1. The size lies in word 0. -/
structure Leaf where
  ctx : Nat
  base : Nat
  w0 : BitVec 64
  w1 : BitVec 64
  deriving DecidableEq, Repr

/-- A non-leaf entry of a walk cache (R205): the table that the entry of that level names for that address prefix. -/
structure WalkEntry where
  die : Nat
  ctx : Nat
  level : Nat
  vprefix : Nat
  table : Nat
  deriving DecidableEq, Repr

/-- A pending fault entry of a base die (R207). An entry that is not listed is FREE with generation 0 (log 5). -/
structure Pfe where
  base : Nat
  index : Nat
  gen : Nat
  pending : Bool
  ctx : Nat
  page : Nat
  deriving DecidableEq, Repr

/-! ## Traps -/

/-- What a trap records (R161, R162): the cause, three words, the first faulting element, their count, the field. -/
structure TrapInfo where
  cause : Nat
  tinfo0 : Nat := 0
  tinfo1 : Nat := 0
  tinfo2 : Nat := 0
  first : Option Nat := none
  nelem : Nat := 0
  field : Option Nat := none
  slot : Option Nat := none
  deriving DecidableEq, Repr

/-! ## A group's control state -/

/-- A PC slot (R163). A slot with an empty mask is empty (R159). Frame and call pointer 0 mean none. `last` is the
group's issue count at the slot's latest issue (R129). -/
structure PcSlot where
  pc : Nat
  mask : Mask
  frame : Nat
  cptr : Nat
  last : Nat
  deriving DecidableEq, Repr

/-- The empty slot. -/
def PcSlot.empty : PcSlot := { pc := 0, mask := 0, frame := 0, cptr := 0, last := 0 }

/-- The kinds of stack entry with their codes (R163, R164). -/
inductive StackKind where
  | dead | join | path | call
  deriving DecidableEq, Repr

/-- A divergence stack entry (R163, R164). -/
structure StackEntry where
  kind : StackKind
  addr : Nat
  mask : Mask
  link : Nat
  cptr : Nat
  deriving DecidableEq, Repr

/-- What a group in WAIT waits for (R96, R98, R157). -/
inductive WaitKind where
  | bar (offset phase : Nat)
  | batch (q : Nat)
  | pack (handle : Nat)
  | fence
  | regroup
  deriving DecidableEq, Repr

/-- The group states of R157. SAVED stands in Group.saved, beside the state the group was saved in. -/
inductive GState where
  | running
  | wait (w : WaitKind)
  | faultWait (base : Nat) (entry : Option Nat)
  | handler
  | phandler
  | held
  | ended (succ : Bool)
  deriving DecidableEq, Repr

/-- How a saved group was saved (R185 to R189): HOW, the restore entry and the vector granules saved. -/
structure SaveInfo where
  how : Nat
  rentry : Nat
  vmask : BitVec 16
  deriving DecidableEq, Repr

/-- A handler in progress: whether it is the .handler preempt, the slot from which it issues, the depth of the stack at
trap entry, its retired instructions (R186), whether a restore has entered it again (R181, R187), whether its trap frame is
written: a host that holds bytes of the frame gives them back first, before the handler's first instruction (R228). -/
structure HandlerFrame where
  pre : Bool
  slot : PcSlot
  base : Nat
  retired : Nat
  restored : Bool
  framed : Bool
  deriving DecidableEq, Repr

/-! ## Accesses in flight -/

/-- How the bytes of a loaded element become register bits (R203, R336, R339): zero- or sign-extended raw bytes, a
nibble, or a decoded float of `fmt` (R73) into f32 or f64, with the place of the block's scale pair for bx. -/
inductive Conv where
  | zext
  | sext
  | nibble (high wide : Bool)
  | float (fmt : Nat) (wide high : Bool) (scale : Nat)
  deriving DecidableEq, Repr

/-- One element of a load: its index and address, where its n bytes lie, whether its page has CACHE = 1, its conversion, its value
once performed. -/
structure LoadElem where
  elem : Nat
  va : Nat
  place : Place
  n : Nat
  cache : Bool
  conv : Conv
  value : Option Nat
  deriving DecidableEq, Repr

/-- A load whose value has not returned (R246): its program-order number, destination, elements, the PC slot. -/
structure LoadEntry where
  seq : Nat
  dst : Nat
  pair : Bool
  slot : Nat
  elems : List LoadElem
  deriving DecidableEq, Repr

/-- One write of a store: element, place, bytes, whether its page has CACHE = 1, whether it has CHECKED = 1, whether its packet has
reached the serving copy's node (R395). -/
structure StoreElem where
  elem : Nat
  place : Place
  bytes : List Byte
  cache : Bool
  checked : Bool
  arrived : Bool
  deriving DecidableEq, Repr

/-- A store with the writes that no serving copy has applied yet (R221, R246). -/
structure StoreEntry where
  seq : Nat
  elems : List StoreElem
  deriving DecidableEq, Repr

/-- One element of an atom or red (R344, R345): element, address, the places of its width's pages in order with their bytes (one
but for an XA object that crosses into a second page), operands, the value returned. -/
structure AtomElem where
  elem : Nat
  va : Nat
  place : Place
  rest : Option (Nat × Place)
  x : Nat
  y : Nat
  value : Option Nat
  deriving DecidableEq, Repr

/-- An atom or red that its bank ALU, or the far side, has not finished (R236, R239, R240). `cycle`: the core's clock at
its issue (R100). -/
structure AtomEntry where
  seq : Nat
  cycle : Nat
  op : Nat
  red : Bool
  dst : Nat
  slot : Nat
  elems : List AtomElem
  deriving DecidableEq, Repr

/-- A write sent to a peer or a host and not acknowledged (R248, R263): its element, none where it is the whole group's (an ME access
or a transfer), where (an XA object in two pages in two places), its bytes, or the operation and operand of a red, its link, on a Brodnus port the number of the
flit that carries it (R392), and the rput whose unit it is, if any. -/
structure SentWrite where
  elem : Option Nat
  place : Place
  rest : Option (Nat × Place)
  bytes : List Byte
  red : Option (Nat × Nat)
  link : Nat
  flit : Nat
  cmd : Option Nat
  deriving DecidableEq, Repr

/-! ## Headnote loads -/

/-- The states of a watch entry and of its lines (R233). -/
inductive WatchState where
  | free | pending | confirmed | struck
  deriving DecidableEq, Repr

/-- A watch line (R231, R232): the line, the shadow's version, the check's answer on its way, its state. -/
structure WatchLine where
  line : Nat
  version : Nat
  answer : Option Bool
  st : WatchState
  deriving DecidableEq, Repr

/-- A watch entry (R231, R233). -/
structure WatchEntry where
  st : WatchState
  lines : List WatchLine
  deriving DecidableEq, Repr

/-! ## Matrix engine operations -/

/-- The memory side of one row or object of an ME access: where it lies, how many bytes, whether its page has
CACHE = 1, and for a read of a page with CHECKED = 1 the bytes that it held when the stamp was placed (R253). -/
structure Chunk where
  place : Place
  n : Nat
  cache : Bool
  got : Option (List Byte)
  deriving DecidableEq, Repr

/-- What a batched ME operation does, its operands read at issue (R364, R365). -/
inductive MeWork where
  /-- Slot, first row, the rows' chunks, and for each row its scale pairs with their bytes of the row (R374). -/
  | tld (t first : Nat) (rows : List (List Chunk)) (scales : List (List (Nat × Chunk)))
  | tzero (t : Nat)
  | abzero (a : Nat)
  /-- Handle, left slot, right slot, shape, type, zero start, sparse left operand, members (1 outside mma.mb). -/
  | mma (a ta tb shape type : Nat) (z sparse : Bool) (members : Nat)
  | mred (a ta shape type : Nat)
  /-- Handle, first bank row, the rows' chunks (R383). -/
  | acld (a first : Nat) (rows : List (List Chunk))
  | acst (a first : Nat) (rows : List (List Chunk))
  | xinit (a k : Nat)
  /-- Exact adds of f64 or f32 codes, and of products of two f32 codes (R385). -/
  | xadd (a k : Nat) (wide : Bool) (xs : List Nat)
  | xaddp (a k : Nat) (xs : List (Nat × Nat))
  | xmerge (a k a2 k2 : Nat)
  | xround (dst a k : Nat) (wide : Bool) (mode : Nat) (mask : Mask)
  | xld (a k : Nat) (chunks : List Chunk)
  | xst (a k : Nat) (chunks : List Chunk)
  deriving DecidableEq, Repr

/-- A batched operation in the ME queue: program-order number, batch, work, the generations of the slots and handles that
it names (R153, R365). -/
structure MeOp where
  seq : Nat
  batch : Nat
  work : MeWork
  tags : List Nat
  deriving DecidableEq, Repr

/-! ## Groups, workgroups, units -/

/-- A group with everything it owns (R157 to R163, R105, R137). `inst`: how many kernels have run in it before its present one
(R140): a transfer names the kernel run that issued it. `ghostUnit`: the unit that a group's rest came from (log 7). `acquire`: the
scope of the acquire that precedes its first instruction (R126, R145). `relax`: its next fence.rel lets later reads go first;
`relFence`: the scope of a fence.rel that later reads have passed and whose release is still to complete (R250, R267). -/
structure Group where
  unit : Nat
  inst : Nat
  ghostUnit : Nat
  wg : Nat
  gi : Nat
  core : Nat
  slot : Nat
  st : GState
  prevSt : GState
  saved : Option SaveInfo
  slot0 : PcSlot
  slot1 : PcSlot
  stack : List StackEntry
  hdl : Option HandlerFrame
  exited : Mask
  vregs : List (List Word32)
  sregs : List Word64
  pregs : List Mask
  flags : BitVec 5
  cause : Word64
  trappc : Word64
  tinfo0 : Word64
  tinfo1 : Word64
  tinfo2 : Word64
  tinfo3 : Word64
  ucond : BitVec 3
  batch : Word64
  mmxcnt : Word64
  cprog : Word64
  keys : Word64
  watch : List WatchEntry
  lastp1 : Nat
  loads : List LoadEntry
  stores : List StoreEntry
  atoms : List AtomEntry
  sent : List SentWrite
  lost : List Nat
  lateTrap : Option TrapInfo
  meq : List MeOp
  waitCount : Nat
  age : Nat
  retired : Nat
  spill : Nat
  pendTrap : Bool
  preemptReq : Bool
  flush : List Nat
  released : Bool
  regroup : Option (Word64 × Word64)
  blocked : Option Nat
  acquire : Option Nat
  relax : Bool
  relFence : Option Nat
  seq : Nat
  deriving DecidableEq, Repr

/-- A held tile slot (R359): name, owner, physical slot, generation, bytes. -/
structure TileSlot where
  name : Nat
  owner : Nat
  phys : Nat
  gen : Nat
  bytes : Memory
  deriving DecidableEq, Repr

/-- A held accumulator handle (R361): name, owner, physical banks in order, generation, the handle's bytes. -/
structure Handle where
  name : Nat
  owner : Nat
  banks : List Nat
  gen : Nat
  bytes : Memory
  deriving DecidableEq, Repr

/-- An RGU move in progress (R192, R193): back to the old places or not, granules, record offset, SRC. -/
structure Move where
  back : Bool
  granules : BitVec 16
  offset : Nat
  src : List Nat
  deriving DecidableEq, Repr

/-- A workgroup (R126, R136). `hold`: under Drydown it issues only from its next round boundary on (R101, R145). -/
structure Workgroup where
  unit : Nat
  index : Nat
  core : Nat
  tileRes : List Nat
  bankRes : List Nat
  tiles : List TileSlot
  handles : List Handle
  regroup : Option Nat
  moving : Option Move
  round : Nat
  started : Bool
  hold : Bool
  deriving DecidableEq, Repr

/-- A kernel descriptor's fields (R134). -/
structure KDesc where
  entry : Nat
  preemptH : Nat
  trapH : Nat
  succDesc : Nat
  imask : Nat
  m : Nat
  wgm1 : Nat
  vgran : Nat
  sgran : Nat
  pgran : Nat
  tiles : Nat
  cohort : Nat
  banks : Nat
  succScope : Nat
  scratch : Nat
  paramOff : Nat
  deriving DecidableEq, Repr

/-- The unit states of R138; SAVED keeps the state it was saved in. -/
inductive UState where
  | running | handover | growWait | retiring
  deriving DecidableEq, Repr

/-- A handover unit (R138): its kernel, cluster, scratch run with its generation, whether a pre-emption is asked for,
workgroups, the scope of
the acquire with which a successor starts, save area pieces. -/
structure HUnit where
  id : Nat
  launch : Nat
  kdAddr : Nat
  kd : KDesc
  cluster : Nat
  scratch : Option (Nat × Nat)
  scratchGen : Nat
  st : UState
  saved : Bool
  wanted : Bool
  wgs : List Nat
  succRead : Bool
  acqScope : Nat
  placed : Nat
  saveAt : List (Nat × Nat)
  scrImage : Memory
  scrBars : List Nat
  deriving DecidableEq, Repr

/-! ## Launches, queues, contexts -/

/-- A launch record's fields as the walker copies them (R117). -/
structure LaunchRec where
  kdesc : Nat
  gx : Nat
  gy : Nat
  gz : Nat
  param : Nat
  succn : Nat
  region : Nat
  succList : Nat
  compl : Nat
  kind : Nat
  waitPrev : Bool
  mbase : Nat
  deriving DecidableEq, Repr

/-- A launch table entry (R120 to R124): parse number, queue, context, index, address, whether it is ready, whether
PREDCNT has read zero, the next workgroup to place, those to place again, retired workgroups, reserving mark, the cores that it has run on, status and cause. -/
structure Launch where
  id : Nat
  queue : Nat
  ctx : Nat
  region : Nat
  index : Nat
  addr : Nat
  record : LaunchRec
  kd : KDesc
  succs : List (Nat × KDesc)
  ready : Bool
  predZero : Bool
  nextWg : Nat
  retiredWgs : Nat
  preempted : Bool
  waitSince : Nat
  bypassed : Bool
  reserving : Bool
  cores : List Nat
  status : Option Nat
  cause : Nat
  done : Bool
  deriving DecidableEq, Repr

/-- The queue states of R114 and R116. -/
inductive QState where
  | active | stopped | held | draining
  deriving DecidableEq, Repr

/-- A bound queue (R112 to R116); an id that is not listed is UNBOUND. Doorbell: WPTR is to be read again. `doneIdx`:
indices at or above RETIRED whose records have completed. -/
structure Queue where
  id : Nat
  ctx : Nat
  qbase : Nat
  qlog : Nat
  producer : Bool
  stopOnErr : Bool
  region : Nat
  st : QState
  heldFrom : QState
  err : Nat
  wptr : Nat
  parsed : Nat
  retired : Nat
  doneIdx : List Nat
  doorbell : Bool
  polled : Nat
  deriving DecidableEq, Repr

/-- The region states of R93. -/
inductive RState where
  | opened | fencing | dumping | fenced
  deriving DecidableEq, Repr

/-- A region control block as the device loaded it (R87), with its fence state. -/
structure Region where
  id : Nat
  fdroot : Bool
  prio : Nat
  level : Nat
  parent : Nat
  ovr : BitVec 6
  cores : Nat
  vregKib : Nat
  banks : Nat
  tiles : Nat
  lshare : Nat
  st : RState
  fenceRoot : Nat
  deriving DecidableEq, Repr

/-- A fence in progress (R93): the root of the fenced subtree, how far it is, the commands that await its end, and
whether a fatal error caused it (R454). -/
structure FenceOp where
  root : Nat
  st : RState
  replies : List (Nat × Nat)
  fatal : Bool
  deriving DecidableEq, Repr

/-- A fault queue record of R208 as its four words. -/
abbrev FaultRecord := Word64 × Word64 × Word64 × Word64

/-- An external event of R101 that its workgroup has not admitted: kind, launch, workgroup, offset or slot, cluster, and the phase whose
end it is. -/
structure ExtEvent where
  kind : Nat
  launch : Nat
  unit : Nat
  wg : Nat
  arg : Nat
  cluster : Nat
  phase : Nat
  deriving DecidableEq, Repr

/-- The context states of R86; a context that is not listed is FREE. -/
inductive CState where
  | live | fenced | draining
  deriving DecidableEq, Repr

/-- A context (R81, R82, R86, R93 to R96, R102). `ddUsed`: the Drydown log records that a replay has admitted. -/
structure Context where
  id : Nat
  port : Nat
  st : CState
  ptroot : Nat
  cmode : BitVec 10
  rtab : Nat
  saveBase : Nat
  saveSize : Nat
  fqBase : Nat
  fqLog : Nat
  handler : Nat
  hangRpt : Nat
  ddLog : Nat
  ddLogSize : Nat
  regions : List Region
  fences : List FenceOp
  saveUsed : List (Nat × Nat)
  fqProd : Nat
  fqCons : Nat
  fqHeld : List FaultRecord
  hang : Nat
  ddCount : Nat
  ddUsed : List Nat
  ddDiv : Nat
  ddLost : Bool
  events : List ExtEvent
  drainReply : Option (Nat × Nat)
  deriving DecidableEq, Repr

/-! ## Caches and coherence -/

/-- What the device knows of a line of device memory (R221 to R224, R226, R228, R455). `recorded`: the LLC has its record; `cached`:
the LLC holds its data too, which llcflush drops. -/
structure LineRec where
  line : Nat
  holder : Option Nat
  recorded : Bool
  cached : Bool
  version : BitVec 40
  sharers : List Nat
  inexact : Bool
  awayDie : Option Nat
  awayCount : Nat
  dirty : Bool
  poison : Bool
  hostLo : Option Nat
  hostHi : Option Nat
  deriving DecidableEq, Repr

/-- The kinds of race stamp (R244). -/
inductive StampKind where
  | read | write | atomic
  deriving DecidableEq, Repr

/-- A race stamp (R244, R253): sector (address div 16), context, group slot, region number, kind, and the die whose
overflow table holds it, or none in the line's metadata. -/
structure Stamp where
  sector : Nat
  ctx : Nat
  core : Nat
  slot : Nat
  region : BitVec 32
  kind : StampKind
  heldBy : Option Nat
  deriving DecidableEq, Repr

/-- A partial of the update-only state (R237): operation of R344 and its accumulated operand. -/
structure PartialOp where
  op : Nat
  x : Nat
  deriving DecidableEq, Repr

/-- A core's partials of one word, oldest first: those before the last are combined into the base (R237). -/
structure L1Partial where
  core : Nat
  pa : Nat
  n : Nat
  ops : List PartialOp
  deriving DecidableEq, Repr

/-- A pending partial at a die L2 home slice (R237), oldest first in the list. -/
structure PendPartial where
  core : Nat
  pa : Nat
  n : Nat
  ops : List PartialOp
  deriving DecidableEq, Repr

/-- A shadow (R225). -/
structure Shadow where
  die : Nat
  line : Nat
  bytes : List Byte
  version : BitVec 40
  since : Nat
  deriving DecidableEq, Repr

/-- A die's copy of a peer line (R247). -/
structure PeerCopy where
  die : Nat
  peer : Nat
  line : Nat
  bytes : List Byte
  since : Nat
  deriving DecidableEq, Repr

/-- A host line that a die L2 caches over CXL.cache (R230); the line number counts 64 bytes. -/
structure HostLine where
  die : Nat
  port : Nat
  line : Nat
  bytes : List Byte
  modified : Bool
  deriving DecidableEq, Repr

/-- An entry of a special-function or conversion queue (R312): whose, destination, results by element, flags. -/
structure QEntry where
  core : Nat
  slot : Nat
  dst : Nat
  pair : Bool
  mask : Mask
  values : List Nat
  flags : BitVec 5
  deriving DecidableEq, Repr

/-! ## Engines -/

/-- One side of a copy (R351): virtual, or an offset of a cluster's SRAM. -/
inductive Endpoint where
  | virt (va : Nat)
  | sram (cluster offset : Nat)
  deriving DecidableEq, Repr

/-- The barrier object that a transfer counts into (R277, R351): cluster, offset, phase, generation of its run. -/
structure BarRef where
  cluster : Nat
  offset : Nat
  phase : Nat
  gen : Nat
  deriving DecidableEq, Repr

/-- The rows of a copy (R352 to R354): `planes` of `rows` rows of `len` bytes with their strides. -/
structure Geometry where
  planes : Nat
  rows : Nat
  len : Nat
  spitch : Nat
  dpitch : Nat
  sstride : Nat
  dstride : Nat
  deriving DecidableEq, Repr

/-- A CE command (R355 to R358). `inst` and `issued` are the issuing group's kernel run and
program-order number; `leaves` the translations it
holds; `stale` those that an invalidation has dropped and that a portion begun still uses (R211); `done` the rows and parts written; `pausedOn` a fault entry's token. -/
structure CeCmd where
  id : Nat
  cluster : Nat
  ctx : Nat
  region : Nat
  launch : Nat
  unit : Nat
  core : Nat
  slot : Nat
  inst : Nat
  issued : Nat
  src : Endpoint
  dst : Endpoint
  geom : Geometry
  bar : Option BarRef
  dstGen : Nat
  leaves : List Leaf
  stale : List Leaf
  started : Bool
  paused : Bool
  pausedOn : Option Nat
  done : List (Nat × Nat)
  ended : Bool
  deriving DecidableEq, Repr

/-- A byte count on its way to a barrier unit, with the number of the command or entry that sent it and the unit whose
kill cancels it, none for a collective (R277, R282). -/
structure CountMsg where
  src : Nat
  unit : Option Nat
  bar : BarRef
  n : Nat
  deriving DecidableEq, Repr

/-- An rput or rget command (R416). `stale`: as for a copy. -/
structure FeCmd where
  id : Nat
  put : Bool
  cluster : Nat
  ctx : Nat
  region : Nat
  launch : Nat
  unit : Nat
  core : Nat
  slot : Nat
  inst : Nat
  issued : Nat
  loc : Endpoint
  remote : Nat
  peer : Nat
  len : Nat
  bar : Option BarRef
  dstGen : Nat
  leaves : List Leaf
  stale : List Leaf
  pausedOn : Option Nat
  done : List Nat
  ended : Bool
  deriving DecidableEq, Repr

/-- A collective descriptor (R404). -/
structure CttDesc where
  src : Nat
  flag : Nat
  dst : Nat
  bar : Nat
  count : Nat
  phase : Nat
  op : Nat
  type : Nat
  dspace : Bool
  nobar : Bool
  rearm : Bool
  xin : Bool
  xout : Bool
  gid : Nat
  nrank : Nat
  myrank : Nat
  mpr : Nat
  k : Nat
  obs : Nat
  fireVal : Nat
  pstride : Nat
  deriving DecidableEq, Repr

/-- The states of a CTT entry (R403); an entry that is not listed is FREE. -/
inductive CttState where
  | armed | fired | done | failed
  deriving DecidableEq, Repr

/-- A message of a collective that this device has sent (R403, R405). -/
inductive CttMsg where
  | ready
  | data (element : Nat) (gather : Bool) (part : CttPart)
  | abort
  deriving DecidableEq, Repr

/-- A CTT entry (R403 to R412). `record`: the arming launch's record address; `gen`: a number of its own for every arming;
`barGen` and `dstGen`: the generations of the runs that the barrier and the results lay in at the arm, none where no live
run of the context held them (R153, R272); `started`: its first data has been read. -/
structure CttEntry where
  index : Nat
  ctx : Nat
  region : Nat
  launch : Nat
  record : Nat
  cluster : Nat
  core : Nat
  st : CttState
  err : Nat
  gen : Nat
  desc : CttDesc
  ring : List Nat
  barGen : Option Nat
  dstGen : Option Nat
  fireVal : Nat
  readySucc : Bool
  started : Bool
  results : List (Nat × CttPart)
  sent : List CttMsg
  delivered : List Nat
  delivBytes : Nat
  pausedOn : Option Nat
  failed : Bool
  deriving DecidableEq, Repr

/-! ## Links and management -/

/-- The link states of R389 with their codes. -/
inductive LState where
  | training | up | degraded | retraining | down | retired
  deriving DecidableEq, Repr

/-- A flit in a retry buffer (R392): its number modulo 4,096, its kind, how often it has been sent again (R390). -/
structure Flit where
  seq : Nat
  kind : Nat
  replays : Nat
  deriving DecidableEq, Repr

/-- A link (R389 to R392). `since`: the link's clock, in microseconds, at the start of its state. `nakOut`: the SEQ that an unanswered NAK of this side names. -/
structure Link where
  id : Nat
  st : LState
  width : Nat
  rate : Nat
  discards : Nat
  retwin : Nat
  since : Nat
  retry : List Flit
  txSeq : Nat
  rxSeq : Nat
  nakOut : Option Nat
  deriving DecidableEq, Repr

/-- The timing register of a vertical bus (R393). -/
structure Vbt where
  bus : Nat
  rate : Nat
  trim : Nat
  deriving DecidableEq, Repr

/-- An elevator router that is being retired (R395): the router's clock at DRAIN. -/
structure RouterDrain where
  router : Nat
  since : Nat
  deriving DecidableEq, Repr

/-- A packet in an end-to-end retry buffer (R395): its number, the router it took, the write of a group that it
carries (core, slot, program-order number, place). -/
structure Packet where
  seq : Nat
  via : Nat
  core : Nat
  slot : Nat
  store : Nat
  line : Nat
  deriving DecidableEq, Repr

/-- Packets from one source to one destination (R395). Sources are dies; destinations are LLC slices and dies. -/
structure Flow where
  id : Nat
  src : Nat
  dst : Nat
  next : Nat
  expected : Nat
  unacked : List Packet
  deriving DecidableEq, Repr

/-- The configuration of a host port (R27): PCIe, or CXL with or without CXL.cache and CXL.mem. -/
inductive PortMode where
  | pcie
  | cxl (cache mem : Bool)
  deriving DecidableEq, Repr

/-- An attestation request in a port's queue (R453): tag, result address, nonce. -/
structure AttReq where
  port : Nat
  tag : Nat
  addr : Nat
  nonce : List Byte
  bad : Bool
  deriving DecidableEq, Repr

/-- A host port's registers (R459, R461). -/
structure Port where
  id : Nat
  mode : PortMode
  rstRef : Bool
  cmdOvf : Bool
  rstAllow : Bool
  statBase : Nat
  cmdW1 : Word64
  attNonce : Memory
  attW1 : Word64
  deriving DecidableEq, Repr

/-- A context command in the command arbiter (R85, R460): port, word 0, word 1. -/
structure Cmd where
  port : Nat
  w0 : Word64
  w1 : Word64
  deriving DecidableEq, Repr

/-- An error log record (R457) as its four words. -/
abbrev ErrRecord := Word64 × Word64 × Word64 × Word64

/-- A firmware image in flash or in the stage, by its bytes (R450). -/
abbrev Image := Memory

/-- DEVSTAT.STATE (R461). -/
inductive DevState where
  | boot | ready | fatal
  deriving DecidableEq, Repr

/-! ## The model's own choices -/

/-- The units that count cycles, and links in microseconds (R25, R389). -/
inductive Clock where
  | core (n : Nat)
  | die (n : Nat)
  | base (n : Nat)
  | mc
  | link (id : Nat)
  deriving DecidableEq, Repr

/-- A turn of the agenda (log 1): a step of the table, an issue of a core, time that passes in one unit, the host or a
peer writing its own memory, a peer's export table changing, a TLB dropping an entry to make room, a group whose next fence.rel lets
later reads go first (R250). -/
inductive Turn where
  | event (i : Instr)
  | issue (core : Nat)
  | tick (c : Clock) (n : Nat)
  | hostStore (port addr : Nat) (data : List Byte)
  | peerStore (peer addr : Nat) (data : List Byte)
  | tlbEvict (core : Option Nat) (die : Option Nat) (base : Nat)
  | portMode (port : Nat) (mode : PortMode)
  | peerDeny (ranges : List (Nat × Nat × Nat))
  | passFence (core slot : Nat)
  deriving DecidableEq, Repr

/-- The group and PC slot whose instruction issues, and the raw instruction (R68). PC slot 2 is the handler's. -/
structure Cur where
  core : Nat
  slot : Nat
  pcSlot : Nat
  raw : Word32
  len : Nat
  deriving DecidableEq, Repr

/-! ## The device -/

/-- Memory and what tracks it (R216 to R230, R237, R244, R247). `barriers`: the offsets of the valid barrier objects by
cluster (R273; log 14). -/
structure MemSys where
  mem : Memory
  sram : List (Nat × Memory)
  barriers : List (Nat × Nat)
  hostMem : List (Nat × Memory)
  peerMem : List (Nat × Memory)
  lines : List LineRec
  stamps : List Stamp
  regionNo : List (Nat × BitVec 32)
  partials : List L1Partial
  pendings : List PendPartial
  shadows : List Shadow
  shadowKills : List (Nat × Nat)
  peerCopies : List PeerCopy
  hostLines : List HostLine
  backInv : List (Nat × Nat × Bool × Nat)
  llcCounters : List (Nat × List Nat)
  tlbCore : List (Nat × Leaf)
  tlbDie : List (Nat × Leaf)
  walkCache : List WalkEntry
  pfes : List Pfe
  deriving DecidableEq, Repr

/-- Engines (R312, R356, R277, R403, R416). -/
structure Engines where
  sfq : List QEntry
  cvtq : List QEntry
  ceCmds : List CeCmd
  counts : List CountMsg
  feCmds : List FeCmd
  ctt : List CttEntry
  nextCmd : Nat
  deriving DecidableEq, Repr

/-- Links and routing (R388 to R401, R413, R414). `linkCaps`: the governor's caps; `linkLimits`: what the hardware's limiter allows
at most, whatever the governor sets (R26, R449). `peerDeny`: what the peers' export tables refuse this device (peer,
first and last 4 KiB frame), an environment's choice (log 1). -/
structure Fabric where
  links : List Link
  vbts : List Vbt
  drains : List RouterDrain
  flows : List Flow
  routes : List (Nat × Nat)
  exports : List (Nat × BitVec 64 × BitVec 64)
  pwgt : List (Nat × Nat × Nat)
  devId : Nat
  linkCaps : List (Nat × Nat)
  linkLimits : List (Nat × Nat)
  peerDeny : List (Nat × Nat × Nat)
  deriving DecidableEq, Repr

/-- The management controller and the ports (R446 to R461). `invals`: TLBINV commands in progress (R212); `fwCommit`: the COMMIT word (R459); `fwNext`: the flash slot that the next boot loads first (R450). -/
structure Mgmt where
  devState : DevState
  fwSlot : Bool
  fwNext : Bool
  fwErr : Bool
  ports : List Port
  cmds : List Cmd
  invals : List Cmd
  attQueue : List AttReq
  errLog : List (Nat × ErrRecord)
  errProd : Nat
  errCons : Nat
  errLost : Nat
  errSeq : Nat
  msix : List (Nat × Nat)
  polReq : Memory
  fwStage : Image
  fwCommit : Word64
  flash0 : Image
  flash1 : Image
  fwImage : Image
  bootCount : Nat
  watchdog : Nat
  govMe : Nat
  govLink : Nat
  govActions : Nat
  govCap : Nat
  meThrottle : List Nat
  hostReply : List Byte
  hostPoison : Bool
  peerReply : List Byte
  deriving DecidableEq, Repr

/-- The scheduler's tables (R85, R120 to R128). `turns`: the slot whose turn it is on a core that rotates (R99). -/
structure Sched where
  ctxs : List Context
  queues : List Queue
  launches : List Launch
  units : List HUnit
  wgs : List Workgroup
  groups : List Group
  parseSeq : Nat
  placeSeq : Nat
  unitSeq : Nat
  genSeq : Nat
  selectDue : Bool
  turns : List (Nat × Nat)
  deriving DecidableEq, Repr

/-- The machine. -/
structure State where
  cur : Option Cur
  agenda : List Turn
  rr : Nat
  freeCtr : Nat
  clocks : List (Clock × Nat)
  sched : Sched
  ms : MemSys
  eng : Engines
  fab : Fabric
  mgmt : Mgmt
  deriving DecidableEq, Repr

/-- Why a step cannot be taken at all. There is no reason: a trap, a wait, a fatal error of a region or of the device are states of
the part (R88, R454). Safe: nothing ends in a fault. -/
inductive Fault where
  deriving DecidableEq, Repr

/-- Why exec gives an instruction or event no next state. -/
inductive Refusal where
  /-- An arm of exec that has no meaning yet. Safe: nothing can be proved of such a step. -/
  | notModelled (mnemonic : String)
  /-- Raised by exec for an event whose condition does not hold in the state: the part takes no such step there.
  Safe: the event has no effect the spec gives it. -/
  | eventNotEnabled (name : String)
  /-- Raised by exec for an instruction when no group is issuing (State.cur is none, or names a group that cannot
  issue). Safe: an instruction exists only as issued by a group. -/
  | noIssuingGroup
  deriving DecidableEq, Repr

/-! ## Reset -/

/-- A link right after a device reset (R389, R390). -/
def Link.reset (id : Nat) : Link :=
  { id := id, st := .training, width := 0, rate := 0, discards := 0, retwin := 4000, since := 0,
    retry := [], txSeq := 0, rxSeq := 0, nakOut := none }

/-- The link ids of R388. -/
def linkIds : List Nat :=
  List.range 256 ++ (List.range 32).map (0x100 + ·) ++ [0x180] ++ (List.range 16).map (0x200 + ·) ++ [0x300, 0x301]

/-- A host port after its reset (R446, R461; log 5 for the registers without a stated value). -/
def Port.reset (id : Nat) : Port :=
  { id := id, mode := .pcie, rstRef := false, cmdOvf := false, rstAllow := false, statBase := 0, cmdW1 := 0,
    attNonce := [], attW1 := 0 }

/-- No memory holds anything but zero, nothing is cached, translated or stamped. -/
def MemSys.reset : MemSys :=
  { mem := [], sram := [], barriers := [], hostMem := [], peerMem := [], lines := [], stamps := [], regionNo := [], partials := [],
    pendings := [], shadows := [], shadowKills := [], peerCopies := [], hostLines := [], backInv := [],
    llcCounters := [], tlbCore := [], tlbDie := [], walkCache := [], pfes := [] }

/-- No engine has work. -/
def Engines.reset : Engines :=
  { sfq := [], cvtq := [], ceCmds := [], counts := [], feCmds := [], ctt := [], nextCmd := 0 }

/-- Every link trains; no route, no export (log 5); weights 1 and 1 (R413, by absence from the list). -/
def Fabric.reset : Fabric :=
  { links := linkIds.map Link.reset, vbts := [], drains := [], flows := [], routes := [], exports := [], pwgt := [],
    devId := 0, linkCaps := [], linkLimits := [], peerDeny := [] }

/-- DEVSTAT.STATE is BOOT, the log is empty (R457, R461). -/
def Mgmt.reset : Mgmt :=
  { devState := .boot, fwSlot := false, fwNext := false, fwErr := false, ports := [Port.reset 0, Port.reset 1], cmds := [], invals := [],
    attQueue := [], errLog := [], errProd := 0, errCons := 0, errLost := 0, errSeq := 0, msix := [], polReq := [],
    fwStage := [], fwCommit := 0, flash0 := [], flash1 := [], fwImage := [], bootCount := 0, watchdog := 0, govMe := 0,
    govLink := 0, govActions := 0, govCap := 2400, meThrottle := [], hostReply := [], hostPoison := false,
    peerReply := [] }

/-- No context, queue, launch or group exists. -/
def Sched.reset : Sched :=
  { ctxs := [], queues := [], launches := [], units := [], wgs := [], groups := [], parseSeq := 0, placeSeq := 0,
    unitSeq := 0, genSeq := 0, selectDue := false, turns := [] }

/-- The device right after a power-on reset, before its boot sequence (R446, R448): log 2 says how a program comes to
run from here. -/
def State.reset : State :=
  { cur := none, agenda := [], rr := 0, freeCtr := 0, clocks := [], sched := Sched.reset, ms := MemSys.reset,
    eng := Engines.reset, fab := Fabric.reset, mgmt := Mgmt.reset }

end Sys2Proof.Machine
end

