-- ==== Sys2Proof/Machine/Memory.lean ====
section
/-! DEFINITION. Byte memories in canonical form and the association lists of the state (R1, R2: little-endian). -/

namespace Sys2Proof.Machine

/-! ## Byte memories -/

/-- The byte at an address; an unlisted byte reads zero (log 4). -/
def Memory.read : Memory → Nat → Byte
  | [], _ => 0
  | (k, b) :: m, a => if k = a then b else Memory.read m a

/-- Every entry of an address taken out. -/
def Memory.erase (m : Memory) (a : Nat) : Memory := m.filter (fun c => c.1 != a)

/-- One byte written; a zero byte is not listed. -/
def Memory.write : Memory → Nat → Byte → Memory
  | [], a, b => if b = 0 then [] else [(a, b)]
  | (k, c) :: m, a, b =>
    if k = a then (if b = 0 then Memory.erase m a else (a, b) :: m)
    else if a < k then (if b = 0 then (k, c) :: Memory.erase m a else (a, b) :: (k, c) :: m)
    else (k, c) :: Memory.write m a b

/-- The canonical form: addresses strictly rising, no zero byte listed. -/
abbrev Memory.wf (m : Memory) : Prop := m.Pairwise (fun x y => x.1 < y.1) ∧ ∀ c ∈ m, c.2 ≠ 0

/-- n bytes from an address. -/
def Memory.readN (m : Memory) : Nat → Nat → List Byte
  | _, 0 => []
  | a, n + 1 => Memory.read m a :: Memory.readN m (a + 1) n

/-- Bytes written from an address on. -/
def Memory.writeN (m : Memory) (a : Nat) : List Byte → Memory
  | [] => m
  | b :: bs => Memory.writeN (Memory.write m a b) (a + 1) bs

/-- n bytes as a little-endian number. -/
def Memory.readLE (m : Memory) (a n : Nat) : Nat := leNat (m.readN a n)

/-- The low n bytes of a number, little-endian. -/
def Memory.writeLE (m : Memory) (a n x : Nat) : Memory := m.writeN a (leBytes n x)

/-- n bytes from an address cleared (R148). -/
def Memory.clear (m : Memory) (a n : Nat) : Memory := m.filter (fun c => c.1 < a || a + n ≤ c.1)

/-! ## Association lists -/

/-- The entry of a key, or a default. -/
def lookupD {α : Type} (d : α) : List (Nat × α) → Nat → α
  | [], _ => d
  | (k, v) :: l, a => if k = a then v else lookupD d l a

/-- An entry set: replaced where it stands, else added behind. -/
def assign {α : Type} : List (Nat × α) → Nat → α → List (Nat × α)
  | [], a, v => [(a, v)]
  | (k, w) :: l, a, v => if k = a then (a, v) :: l else (k, w) :: assign l a v

/-! ## The memories of the state -/

/-- Device memory replaced. -/
def State.withMem (s : State) (m : Memory) : State := { s with ms := { s.ms with mem := m } }

/-- n bytes of device memory. -/
def State.devRead (s : State) (a n : Nat) : List Byte := s.ms.mem.readN a n
/-- n bytes of device memory as a number. -/
def State.devLE (s : State) (a n : Nat) : Nat := s.ms.mem.readLE a n
/-- Bytes written to device memory. -/
def State.devWrite (s : State) (a : Nat) (bs : List Byte) : State := s.withMem (s.ms.mem.writeN a bs)

/-- A cluster's SRAM (R19). -/
def State.sramOf (s : State) (c : Nat) : Memory := lookupD [] s.ms.sram c
/-- A cluster's SRAM replaced. -/
def State.withSram (s : State) (c : Nat) (m : Memory) : State :=
  { s with ms := { s.ms with sram := assign s.ms.sram c m } }
/-- n bytes of a cluster's SRAM as a number. -/
def State.sramLE (s : State) (c a n : Nat) : Nat := (s.sramOf c).readLE a n
/-- Bytes written to a cluster's SRAM. -/
def State.sramWrite (s : State) (c a : Nat) (bs : List Byte) : State := s.withSram c ((s.sramOf c).writeN a bs)

/-- A host's memory. -/
def State.hostOf (s : State) (p : Nat) : Memory := lookupD [] s.ms.hostMem p
/-- Bytes written to a host's memory. -/
def State.hostWrite (s : State) (p a : Nat) (bs : List Byte) : State :=
  { s with ms := { s.ms with hostMem := assign s.ms.hostMem p ((s.hostOf p).writeN a bs) } }

/-- A byte of a host as the device reaches it: that of the line that a die holds over CXL.cache, else the host's (R230). -/
def State.hostByte (s : State) (p a : Nat) : Byte :=
  match s.ms.hostLines.find? (fun h => h.port == p && h.line == a / 64) with
  | some h => h.bytes.getD (a % 64) 0
  | none => (s.hostOf p).read a

/-- One byte written where the device reaches it: into the held line, which becomes modified, else at the host. -/
def State.hostPut (s : State) (p a : Nat) (b : Byte) : State :=
  if s.ms.hostLines.any (fun h => h.port == p && h.line == a / 64) then
    { s with ms := { s.ms with hostLines := s.ms.hostLines.map (fun h =>
        if h.port == p && h.line == a / 64 then { h with bytes := h.bytes.set (a % 64) b, modified := true } else h) } }
  else s.hostWrite p a [b]

/-- Bytes written where the device reaches them. -/
def State.hostStore (s : State) (p a : Nat) (bs : List Byte) : State :=
  bs.zipIdx.foldl (fun s x => s.hostPut p (a + x.2) x.1) s

/-- A held line goes back to its host: a modified one is written, the copy is dropped (R230). -/
def State.returnHost (s : State) (p line : Nat) : State :=
  match s.ms.hostLines.find? (fun h => h.port == p && h.line == line) with
  | none => s
  | some h =>
    let s1 := if h.modified then s.hostWrite p (64 * line) h.bytes else s
    { s1 with ms := { s1.ms with hostLines := s1.ms.hostLines.filter (fun k => !(k.port == p && k.line == line)) } }

/-- Every held line that n bytes touch goes back. -/
def State.returnHosts (s : State) (p a n : Nat) : State :=
  (List.range ((a + n - 1) / 64 - a / 64 + 1)).foldl (fun s i => s.returnHost p (a / 64 + i)) s

/-- A peer's memory. -/
def State.peerOf (s : State) (p : Nat) : Memory := lookupD [] s.ms.peerMem p
/-- Bytes written to a peer's memory. -/
def State.peerWrite (s : State) (p a : Nat) (bs : List Byte) : State :=
  { s with ms := { s.ms with peerMem := assign s.ms.peerMem p ((s.peerOf p).writeN a bs) } }

/-- The bytes at a place (R243). -/
def State.placeRead (s : State) (p : Place) (n : Nat) : List Byte :=
  match p with
  | .dev a => s.devRead a n
  | .peer i a => (s.peerOf i).readN a n
  | .host i a => (List.range n).map (fun k => s.hostByte i (a + k))

/-- Bytes written at a place. -/
def State.placeWrite (s : State) (p : Place) (bs : List Byte) : State :=
  match p with
  | .dev a => s.devWrite a bs
  | .peer i a => s.peerWrite i a bs
  | .host i a => s.hostStore i a bs

/-- A place some bytes on. -/
def Place.plus (p : Place) (n : Nat) : Place :=
  match p with
  | .dev a => .dev (a + n)
  | .peer i a => .peer i (a + n)
  | .host i a => .host i (a + n)

/-! ## Time -/

/-- The clock of a unit. -/
def State.clock (s : State) (c : Clock) : Nat :=
  match s.clocks.find? (fun e => e.1 == c) with
  | some e => e.2
  | none => 0

/-- Time that passes in one unit. -/
def State.tick (s : State) (c : Clock) (n : Nat) : State :=
  if s.clocks.any (fun e => e.1 == c) then
    { s with clocks := s.clocks.map (fun e => if e.1 == c then (e.1, e.2 + n) else e) }
  else { s with clocks := s.clocks ++ [(c, n)] }

/-- A fresh free value (log 8) and the state whose counter has moved on. -/
def State.takeFree (s : State) : Nat × State :=
  ((Config.freeWord s.freeCtr).toNat, { s with freeCtr := s.freeCtr + 1 })

end Sys2Proof.Machine
end

