-- ==== Sys2Proof/Machine/Serve.lean ====
section
/-! DEFINITION. Lines of device memory at their serving copies: versions (R224), the halves that a host holds (R228),
shadow kills on their way (R226), and what an access of the device to its own memory waits for. -/

namespace Sys2Proof.Machine

/-! ## Lines (R217, R224) -/

/-- Exclusive or of bit fields of a physical address. -/
def xorField (pa lo1 lo2 n : Nat) : Nat := (pa / 2 ^ lo1 % 2 ^ n) ^^^ (pa / 2 ^ lo2 % 2 ^ n)

/-- The HBM stack of a physical address (R217). -/
def stackOf (pa : Nat) : Nat := xorField pa 12 17 3 ^^^ (pa / 2 ^ 22 % 8)
/-- The LLC home slice. -/
def llcSliceOf (pa : Nat) : Nat := 64 * (stackOf pa / 4) + xorField pa 7 25 6
/-- The die L2 home slice within a die. -/
def l2SliceOf (pa : Nat) : Nat := xorField pa 7 11 4

/-- What is known of a line that nothing has touched. -/
def LineRec.fresh (n : Nat) : LineRec :=
  { line := n, holder := none, recorded := false, cached := false, version := 0, sharers := [], inexact := false, awayDie := none,
    awayCount := 0, dirty := false, poison := false, hostLo := none, hostHi := none }

/-- A line by number. -/
def State.line (s : State) (n : Nat) : LineRec :=
  match s.ms.lines.find? (fun r => r.line == n) with
  | some r => r
  | none => LineRec.fresh n

/-- A line replaced. -/
def State.putLine (s : State) (r : LineRec) : State :=
  { s with ms := { s.ms with lines := s.ms.lines.filter (fun q => q.line != r.line) ++ [r] } }

/-- The lines that n bytes from a physical address touch. -/
def linesOf (pa n : Nat) : List Nat := (List.range ((pa + n - 1) / 128 - pa / 128 + 1)).map (pa / 128 + ·)

/-- What a write to a line leaves at its serving copy: the version counts it, a write of the whole line clears its
poison (R224, R455). -/
def LineRec.written (r : LineRec) (whole : Bool) : LineRec :=
  { r with version := r.version + 1, dirty := true, recorded := true, cached := true, poison := r.poison && !whole }

/-- Bytes written at the serving copies of their lines. -/
def State.serveWrite (s : State) (pa : Nat) (bs : List Byte) : State :=
  (linesOf pa bs.length).foldl (fun s n => s.putLine ((s.line n).written (pa ≤ 128 * n && 128 * (n + 1) ≤ pa + bs.length)))
    (s.devWrite pa bs)

/-! ## The host bridge (R228) -/

/-- The halves of a line that n bytes from pa touch. -/
def halfTouched (pa n line : Nat) (high : Bool) : Bool :=
  let lo := 128 * line + (if high then 64 else 0)
  decide (pa < lo + 64) && decide (lo < pa + n)

/-- The half of some touched line that a host port holds, if any: line, half, port. -/
def State.heldHalf (s : State) (pa n : Nat) : Option (Nat × Bool × Nat) :=
  s.ms.lines.findSome? (fun r =>
    match (if halfTouched pa n r.line false then r.hostLo else none) with
    | some p => some (r.line, false, p)
    | none => match (if halfTouched pa n r.line true then r.hostHi else none) with
      | some p => some (r.line, true, p)
      | none => none)

/-- A back-invalidate snoop sent for a half, unless one is on its way, with the clock of the port's link. -/
def State.snoop (s : State) (l : Nat) (high : Bool) (port : Nat) : State :=
  if s.ms.backInv.any (fun b => b.1 == port && b.2.1 == l && b.2.2.1 == high) then s
  else { s with ms := { s.ms with backInv := s.ms.backInv ++ [(port, l, high, s.clock (.link (0x300 + port)))] } }

/-- Whether a device access to n bytes may proceed; where a host holds a half of them, the state in which the snoop is
on its way (R228). -/
def State.hostGate (s : State) (pa n : Nat) : Option State :=
  match s.heldHalf pa n with
  | none => none
  | some (l, high, port) => some (s.snoop l high port)

/-- Whether a shadow kill of a line that n bytes touch is on its way: no new record of the line is made until every die has
answered, so accesses wait (R226). -/
def State.killPending (s : State) (pa n : Nat) : Bool :=
  s.ms.shadowKills.any (fun k => decide (pa < 128 * (k.2 + 1)) && decide (128 * k.2 < pa + n))

/-- The lines that the LLC of one base die holds at most: 768 MiB (R20, R22). -/
def llcLines : Nat := 6291456

/-- The records of the LLC of a base die. -/
def State.llcRecords (s : State) (base : Nat) : Nat :=
  (s.ms.lines.filter (fun r => r.recorded && stackOf (128 * r.line) / 4 == base)).length

/-- Whether the LLC of a line's base die must evict a record before it can make one of the line. -/
def State.llcFull (s : State) (n : Nat) : Bool :=
  decide (llcLines ≤ s.ms.lines.length) && !(s.line n).recorded && decide (llcLines ≤ s.llcRecords (stackOf (128 * n) / 4))

/-- Whether an access to n bytes waits for the LLC: for the dies' answers to a shadow kill, or for room (R22, R226). -/
def State.recordWaits (s : State) (pa n : Nat) : Bool := s.killPending pa n || (linesOf pa n).any s.llcFull

/-- What an access of the device to its own memory must wait for: the LLC (the state as it is), or the half that it must take back
from a host first (R226, R228). -/
def State.devGate (s : State) (pa n : Nat) : Option State := if s.recordWaits pa n then some s else s.hostGate pa n

/-- What accesses to several ranges must wait for. -/
def State.devGates (s : State) (xs : List (Nat × Nat)) : Option State := xs.findSome? (fun x => s.devGate x.1 x.2)

/-- A step that first waits for what its accesses meet: the snoop that it sends is a step of its own, and nothing happens
while the answer is on its way. -/
def State.afterGate (s : State) (gate next : Option State) : Option State :=
  match gate with
  | some s' => if s' == s then none else some s'
  | none => next

end Sys2Proof.Machine
end

