-- ==== Sys2Proof/Machine/Ops.lean ====
section
/-! DEFINITION. The named operations over the state: finding and replacing groups, workgroups, units, launches, queues
and contexts; registers of a group; PC slots and the divergence stack (R163 to R166); the region tree (R87 to R93);
the error log (R457); the end of a unit by kill (R152); taking an exception and returning from one (R161, R162, R175
to R181). -/

namespace Sys2Proof.Machine

/-! ## Finding and replacing -/

/-- The group in a slot of a core. -/
def State.group? (s : State) (core slot : Nat) : Option Group :=
  s.sched.groups.find? (fun g => g.core == core && g.slot == slot)

/-- A group replaced by its next value, found by core and slot. -/
def State.putGroup (s : State) (g : Group) : State :=
  { s with sched := { s.sched with
      groups := s.sched.groups.map (fun h => if h.core == g.core && h.slot == g.slot then g else h) } }

/-- The groups of a unit changed. -/
def State.mapGroups (s : State) (f : Group → Group) : State :=
  { s with sched := { s.sched with groups := s.sched.groups.map f } }

/-- The unit with an id. -/
def State.unit? (s : State) (id : Nat) : Option HUnit := s.sched.units.find? (fun u => u.id == id)

/-- A unit replaced. -/
def State.putUnit (s : State) (u : HUnit) : State :=
  { s with sched := { s.sched with units := s.sched.units.map (fun v => if v.id == u.id then u else v) } }

/-- The workgroup with a linear index in a unit. -/
def State.wg? (s : State) (unit index : Nat) : Option Workgroup :=
  s.sched.wgs.find? (fun w => w.unit == unit && w.index == index)

/-- A workgroup replaced. -/
def State.putWg (s : State) (w : Workgroup) : State :=
  { s with sched := { s.sched with
      wgs := s.sched.wgs.map (fun v => if v.unit == w.unit && v.index == w.index then w else v) } }

/-- The launch with a parse number. -/
def State.launch? (s : State) (id : Nat) : Option Launch := s.sched.launches.find? (fun l => l.id == id)

/-- A launch replaced. -/
def State.putLaunch (s : State) (l : Launch) : State :=
  { s with sched := { s.sched with launches := s.sched.launches.map (fun m => if m.id == l.id then l else m) } }

/-- A bound queue. -/
def State.queue? (s : State) (id : Nat) : Option Queue := s.sched.queues.find? (fun q => q.id == id)

/-- A queue replaced. -/
def State.putQueue (s : State) (q : Queue) : State :=
  { s with sched := { s.sched with queues := s.sched.queues.map (fun p => if p.id == q.id then q else p) } }

/-- A context that is not FREE. -/
def State.ctx? (s : State) (id : Nat) : Option Context := s.sched.ctxs.find? (fun c => c.id == id)

/-- A context replaced. -/
def State.putCtx (s : State) (c : Context) : State :=
  { s with sched := { s.sched with ctxs := s.sched.ctxs.map (fun d => if d.id == c.id then c else d) } }

/-- A change to one context. -/
def State.mapCtx (s : State) (id : Nat) (f : Context → Context) : State :=
  { s with sched := { s.sched with ctxs := s.sched.ctxs.map (fun d => if d.id == id then f d else d) } }

/-- The launch of a group, through its unit. -/
def State.launchOf (s : State) (g : Group) : Option Launch :=
  match s.unit? g.unit with
  | none => none
  | some u => s.launch? u.launch

/-- The die of a core, the cluster of a core, the base of a die (R16). -/
def dieOfCore (core : Nat) : Nat := core / 32
/-- The cluster of a core. -/
def clusterOfCore (core : Nat) : Nat := core / 4
/-- The die of a cluster. -/
def dieOfCluster (c : Nat) : Nat := c / 8
/-- The base die under a compute die. -/
def baseOfDie (d : Nat) : Nat := d / 4

/-! ## Masks and elements (R8) -/

/-- Every element of members 0 to m − 1. -/
def fullMask (m : Nat) : Mask := BitVec.ofNat 256 (2 ^ (32 * m) - 1)

/-- The element numbers that a mask holds among the first n. -/
def maskElems (k : Mask) (n : Nat) : List Nat := (List.range n).filter (fun e => k.getLsbD e)

/-- The mask of listed elements. -/
def maskOf (es : List Nat) : Mask := es.foldl (fun k e => k ||| BitVec.ofNat 256 (2 ^ e)) 0

/-! ## Registers of a group (R30, R67, R159) -/

/-- The bits of a vector register in an element. -/
def Group.v (g : Group) (r e : Nat) : Word32 := (g.vregs.getD r []).getD e 0

/-- A vector register's row with the elements of a mask replaced. -/
def setElems (m : Mask) (f : Nat → Word32) : Nat → List Word32 → List Word32
  | _, [] => []
  | e, x :: xs => (if m.getLsbD e then f e else x) :: setElems m f (e + 1) xs

/-- A vector register written in the elements of a mask. -/
def Group.setV (g : Group) (r : Nat) (m : Mask) (f : Nat → Word32) : Group :=
  { g with vregs := g.vregs.modify r (setElems m f 0) }

/-- The 64-bit value of an even–odd pair in an element. -/
def Group.v64 (g : Group) (r e : Nat) : Word64 := (g.v (r + 1) e ++ g.v r e : BitVec 64)

/-- A pair written in the elements of a mask: low bits in the even register. -/
def Group.setV64 (g : Group) (r : Nat) (m : Mask) (f : Nat → Word64) : Group :=
  (g.setV r m (fun e => (f e).setWidth 32)).setV (r + 1) m (fun e => ((f e) >>> 32).setWidth 32)

/-- A uniform register. -/
def Group.s (g : Group) (r : Nat) : Word64 := g.sregs.getD r 0

/-- A uniform register written. -/
def Group.setS (g : Group) (r : Nat) (x : Word64) : Group := { g with sregs := g.sregs.set r x }

/-- A predicate register. -/
def Group.p (g : Group) (r : Nat) : Mask := g.pregs.getD r 0

/-- A predicate register written in the elements of a mask. -/
def Group.setP (g : Group) (r : Nat) (m x : Mask) : Group :=
  { g with pregs := g.pregs.modify r (fun old => (old &&& ~~~m) ||| (x &&& m)) }

/-- The mask of the elements where a test holds. -/
def maskWhere (n : Nat) (f : Nat → Bool) : Mask := maskOf ((List.range n).filter f)

/-- The members of a group, from the length of a register's row. -/
def Group.members (g : Group) : Nat := (g.vregs.getD 0 []).length / 32

/-- The elements of a group, 32 a member. -/
def Group.width (g : Group) : Nat := (g.vregs.getD 0 []).length

/-! ## PC slots and the divergence stack (R163 to R166) -/

/-- A PC slot by number: 0, 1, or the handler's (2). -/
def Group.pcSlot (g : Group) (i : Nat) : PcSlot :=
  match i with
  | 0 => g.slot0
  | 1 => g.slot1
  | _ => match g.hdl with
    | some h => h.slot
    | none => PcSlot.empty

/-- A PC slot replaced. -/
def Group.setPcSlot (g : Group) (i : Nat) (p : PcSlot) : Group :=
  match i with
  | 0 => { g with slot0 := p }
  | 1 => { g with slot1 := p }
  | _ => match g.hdl with
    | some h => { g with hdl := some { h with slot := p } }
    | none => g

/-- Whether a PC slot is live. -/
def PcSlot.live (p : PcSlot) : Bool := p.mask != 0

/-- A PC moved by a signed number of bytes. -/
def pcPlus (pc : Nat) (d : Int) : Nat := (((pc : Int) + d) % (2 ^ 64 : Int)).toNat

/-- The issuing slot moved past its instruction. -/
def Group.advance (g : Group) (i len : Nat) : Group :=
  g.setPcSlot i { g.pcSlot i with pc := pcPlus (g.pcSlot i).pc len }

/-- The issuing slot moved to an address. -/
def Group.jump (g : Group) (i pc : Nat) : Group := g.setPcSlot i { g.pcSlot i with pc := pc }

/-- The depth of the stack. -/
def Group.depth (g : Group) : Nat := g.stack.length

/-- The entry at a position, counted from 1. -/
def Group.entry? (g : Group) (pos : Nat) : Option StackEntry := if pos == 0 then none else g.stack[pos - 1]?

/-- Dead entries at the top removed. -/
def dropDead (st : List StackEntry) : List StackEntry := (st.reverse.dropWhile (fun e => e.kind == .dead)).reverse

/-- An entry pushed on top. -/
def Group.push (g : Group) (e : StackEntry) : Group := { g with stack := g.stack ++ [e] }

/-- The entry at a position marked dead; dead entries at the top go at once. -/
def Group.markDead (g : Group) (pos : Nat) : Group :=
  { g with stack := dropDead (g.stack.modify (pos - 1) (fun e => { e with kind := .dead })) }

/-- complete(f) of R166. -/
def Group.complete (g : Group) (f : Nat) : Bool :=
  !(g.slot0.live && g.slot0.frame == f) && !(g.slot1.live && g.slot1.frame == f) &&
    !g.stack.any (fun e => (e.kind == .path || e.kind == .join) && e.link == f)

/-- The position of the topmost live PATH entry. -/
def Group.topPath (g : Group) : Option Nat :=
  ((List.range g.stack.length).reverse.find? (fun i => (g.stack[i]?.map (·.kind)) == some .path)).map (· + 1)

/-- One slot of fill(): an empty slot takes the topmost live PATH entry. -/
def Group.fillSlot (g : Group) (i : Nat) : Group :=
  if (g.pcSlot i).live then g
  else
    match g.topPath with
    | none => g
    | some pos =>
      match g.entry? pos with
      | none => g
      | some e =>
        (g.markDead pos).setPcSlot i { pc := e.addr, mask := e.mask, frame := e.link, cptr := e.cptr, last := (g.pcSlot i).last }

/-- fill() of R166: empty slots in ascending order. -/
def Group.fill (g : Group) : Group := (g.fillSlot 0).fillSlot 1

/-- A continuation started in the lowest empty slot. -/
def Group.startLowest (g : Group) (p : PcSlot) : Group :=
  if g.slot0.live then { g with slot1 := { p with last := g.slot1.last } }
  else { g with slot0 := { p with last := g.slot0.last } }

/-- settle(f) of R166. The recursion follows parent frames, at most one for each stack entry: that is the fuel. -/
def Group.settle : Nat → Group → Nat → Group
  | 0, g, _ => g.fill
  | n + 1, g, f =>
    match (if f == 0 || !g.complete f then none else g.entry? f) with
    | none => g.fill
    | some e =>
      if e.mask == 0 then Group.settle n (g.markDead f) e.link
      else ((g.markDead f).startLowest { pc := pcPlus e.addr 4, mask := e.mask, frame := e.link, cptr := e.cptr, last := 0 }).fill

/-- The other of slots 0 and 1. -/
def otherSlot (i : Nat) : Nat := if i == 0 then 1 else 0

/-- The entries that the core keeps on chip: the two topmost live ones (R165). -/
def onChip (st : List StackEntry) : List Nat :=
  (((List.range st.length).reverse.filter (fun i => (st[i]?.map (·.kind)) != some .dead)).take 2)

/-- The KIND code of an entry (R164). -/
def StackKind.code : StackKind → Nat
  | .dead => 0
  | .join => 1
  | .path => 2
  | .call => 3

/-- The 48 bytes of a stack entry (R164). -/
def StackEntry.bytes (e : StackEntry) : List Byte :=
  leBytes 8 (e.kind.code + e.link * 4 + e.cptr * 512) ++ leBytes 8 (e.addr % 2 ^ 57) ++ leBytes 32 e.mask.toNat

/-- Stack entries written to the spill region at 128 + 48 (d − 1) (R165): those whose position a test names. -/
def State.writeStack (s : State) (g : Group) (which : Nat → Bool) : State :=
  (List.range g.stack.length).foldl (fun s i =>
    if which i then
      match g.stack[i]? with
      | some e => s.serveWrite (g.spill + 128 + 48 * i) e.bytes
      | none => s
    else s) s

/-- What the spill of a stack waits for (R228). -/
def State.stackGate (s : State) (g : Group) : Option State :=
  if g.stack.length ≤ 2 then none else s.devGate (g.spill + 128) (48 * g.stack.length)

/-- A group put back with its stack mirrored: every entry that is not on chip lies in the spill region. -/
def State.putStack (s : State) (g : Group) : State :=
  (s.putGroup g).writeStack g (fun i => !(onChip g.stack).contains i)

/-! ## Regions (R87 to R93) -/

/-- A region of a context. -/
def Context.region? (c : Context) (r : Nat) : Option Region := c.regions.find? (fun x => x.id == r)

/-- The path from a region up to region 0. Levels are at most 3, which bounds it. -/
def Context.path (c : Context) (r : Nat) : List Nat :=
  let p1 := (c.region? r).map (·.parent)
  if r == 0 then [0]
  else match p1 with
    | none => [r]
    | some a =>
      if a == 0 then [r, 0]
      else match c.region? a with
        | none => [r, a]
        | some ra =>
          if ra.parent == 0 then [r, a, 0]
          else [r, a, ra.parent, 0]

/-- Whether a region lies in the subtree of another. -/
def Context.inSubtree (c : Context) (root r : Nat) : Bool := (c.path r).contains root

/-- The nearest region upward with FDROOT; region 0 is a root (R92). -/
def Context.faultRoot (c : Context) (r : Nat) : Nat :=
  ((c.path r).find? (fun q => match c.region? q with
    | some x => x.fdroot
    | none => false)).getD 0

/-- The region of a launch is open. -/
def State.regionOpen (s : State) (ctx r : Nat) : Bool :=
  match s.ctx? ctx with
  | none => false
  | some c => match c.region? r with
    | some x => x.st == .opened
    | none => false

/-! ## The error log (R457) -/

/-- The number of a link state in log details (R389). -/
def LState.code : LState → Nat
  | .training => 0
  | .up => 1
  | .degraded => 2
  | .retraining => 3
  | .down => 4
  | .retired => 5

/-- An MSI-X vector raised on a port. -/
def State.raiseMsix (s : State) (port vec : Nat) : State :=
  { s with mgmt := { s.mgmt with msix := s.mgmt.msix ++ [(port, vec)] } }

/-- A counter of 8 bytes that has counted one more. -/
def next64 (n : Nat) : Nat := (n + 1) % 2 ^ 64

/-- The records of the log that no host has taken: ERRPROD − ERRCONS, in 64 bits. -/
def State.logHeld (s : State) : Nat := (s.mgmt.errProd + 2 ^ 64 - s.mgmt.errCons % 2 ^ 64) % 2 ^ 64

/-- A record appended to the log, or counted as lost when the ring is full. -/
def State.logRecord (s : State) (w0 addr detail : Nat) : State :=
  if s.logHeld == 1024 then { s with mgmt := { s.mgmt with errLost := next64 s.mgmt.errLost } }
  else
    let r : ErrRecord := (BitVec.ofNat 64 w0, BitVec.ofNat 64 addr, BitVec.ofNat 64 detail, BitVec.ofNat 64 s.mgmt.errSeq)
    let s1 := { s with mgmt := { s.mgmt with
      errLog := assign s.mgmt.errLog (s.mgmt.errProd % 1024) r, errProd := next64 s.mgmt.errProd, errSeq := next64 s.mgmt.errSeq } }
    (s1.raiseMsix 0 0).raiseMsix 1 0

/-- A record without context or region. -/
def State.logUnit (s : State) (cls kind unit addr detail : Nat) : State :=
  s.logRecord (cls + kind * 16 + unit * 4096) addr detail

/-- A record that names a context and a region (CVALID). -/
def State.logRegion (s : State) (cls kind ctx region : Nat) (trunc : Bool) (addr : Nat) : State :=
  s.logRecord (cls + kind * 16 + ctx * 2 ^ 22 + region * 2 ^ 29 + 2 ^ 37 + (if trunc then 2 ^ 38 else 0)) addr 0

/-- The device enters FATAL (R454): the record of kind 11 and DEVSTAT.STATE. Issue and walking stop because on a FATAL device
no step acts but a reset and the dumps that it attempts (log 11). -/
def State.enterFatal (s : State) : State :=
  if s.mgmt.devState == .fatal then s
  else
    let s1 := s.logUnit 3 11 0 0 0
    { s1 with mgmt := { s1.mgmt with devState := .fatal } }

/-! ## Fencing (R93) -/

/-- Whether the region's present fence already contains the subtree of `root`. -/
def Context.fenceContains (c : Context) (root : Nat) : Bool :=
  c.fences.any (fun f => c.inSubtree f.root root) ||
    (match c.region? root with
     | some r => r.st == .fenced && c.inSubtree r.fenceRoot root
     | none => false)

/-- What a fence of a subtree stops: walking of its queues (HELD, R116), its CE copies with their pending completions
dropped, its collectives that have fired (FAILED with ERR 2, R403). Its groups stop at the next instruction boundary
because their region is not open. -/
def State.stopRegions (s : State) (ctx root : Nat) : State :=
  match s.ctx? ctx with
  | none => s
  | some c =>
    { s with
      sched := { s.sched with queues := s.sched.queues.map (fun q =>
        if q.ctx == ctx && c.inSubtree root q.region && (q.st == .active || q.st == .stopped) then
          { q with heldFrom := q.st, st := .held } else q) },
      eng := { s.eng with
        ctt := s.eng.ctt.map (fun e => if e.ctx == ctx && e.st == .fired && c.inSubtree root e.region then
          { e with st := .failed, err := 2 } else e),
        counts := s.eng.counts.filter (fun m => !s.eng.ceCmds.any (fun k =>
          k.ctx == ctx && c.inSubtree root k.region && k.id == m.src)),
        ceCmds := s.eng.ceCmds.filter (fun k => !(k.ctx == ctx && c.inSubtree root k.region)) } }

/-- A fence of the subtree of `root` begins: every open region of it becomes FENCING. A fence of region 0 makes the
context FENCED (R86). -/
def State.startFence (s : State) (ctx root : Nat) (fatal : Bool) (reply : Option (Nat × Nat)) : State :=
  match s.ctx? ctx with
  | none => s
  | some c =>
    let op : FenceOp := { root := root, st := .fencing, replies := reply.toList, fatal := fatal }
    let c1 := { c with
      regions := c.regions.map (fun r => if r.st == .opened && c.inSubtree root r.id then { r with st := .fencing } else r),
      fences := c.fences ++ [op],
      st := if root == 0 then .fenced else c.st }
    (s.putCtx c1).stopRegions ctx root

/-- A fatal error of a region (R91, R92): the nearest fault domain's subtree is fenced. Where its present fence
already contains that subtree the error is logged only (R93). -/
def State.fatalRegion (s : State) (ctx r kind addr : Nat) : State :=
  match s.ctx? ctx with
  | none => s
  | some c =>
    let root := c.faultRoot r
    let s1 := if kind == 0 then s else s.logRegion 1 kind ctx r false addr
    if c.fenceContains root then (if kind == 0 then s.logRegion 1 9 ctx root false 0 else s1)
    else (s1.logRegion 1 9 ctx root false 0).startFence ctx root true none

/-! ## The end of groups and units (R138, R148, R152) -/

/-- Whether an ME operation writes registers of its group. -/
def MeOp.writesRegs (m : MeOp) : Bool :=
  match m.work with
  | .xround _ _ _ _ _ _ => true
  | _ => false

/-- Whether a group still has writes, atomics or batched operations under way. -/
def Group.hasOutgoing (g : Group) : Bool := !g.stores.isEmpty || !g.atoms.isEmpty || !g.sent.isEmpty || !g.meq.isEmpty

/-- What is left of a group that has given up its slot: its writes, atomics and batched operations under way (R146), under a
slot number that no core has (log 7); every register is gone (R148). Its `unit` names its launch from here on. -/
def Group.ghost (g : Group) (slot launch : Nat) : Group :=
  { g with slot := slot, unit := launch, ghostUnit := g.unit, st := .ended false, prevSt := .ended false, saved := none,
           slot0 := PcSlot.empty, slot1 := PcSlot.empty, stack := [], hdl := none, vregs := [], sregs := [], pregs := [], flags := 0,
           watch := [], loads := [], meq := g.meq.filter (fun m => !m.writesRegs), lateTrap := none, blocked := none, regroup := none,
           pendTrap := false, preemptReq := false, flush := [], released := false, acquire := none, relFence := none }

/-- Whether a group is such a rest. -/
def Group.isGhost (g : Group) : Bool := 32 ≤ g.slot

/-- The unit that a group, or a group's rest, belongs or belonged to. -/
def Group.home (g : Group) : Nat := if g.isGhost then g.ghostUnit else g.unit

/-- Whether a rest of a launch still has something under way. -/
def Group.busyGhost (g : Group) (launch : Nat) : Bool := g.isGhost && g.unit == launch && g.hasOutgoing

/-- The state of a group that runs again: in its handler where one is active. -/
def Group.resumeSt (g : Group) : GState :=
  match g.hdl with
  | none => .running
  | some h => if h.pre then .phandler else .handler

/-- The barrier object and phase that a group waits for in bwait. -/
def Group.barWait (g : Group) : Option (Nat × Nat) :=
  match g.st with
  | .wait w => match w with
    | .bar o q => some (o, q)
    | .batch _ => none
    | .pack _ => none
    | .fence => none
    | .regroup => none
  | .running => none
  | .faultWait _ _ => none
  | .handler => none
  | .phandler => none
  | .held => none
  | .ended _ => none

/-- A group that stops waiting in bwait leaves WAITERS of its object (R281). -/
def State.leaveBar (s : State) (g : Group) : State :=
  match (if g.released || g.saved.isSome then none else g.barWait) with
  | some (o, _) =>
    let c := clusterOfCore g.core
    s.sramWrite c (o + 16) (leBytes 2 (s.sramLE c (o + 16) 2 - 1))
  | none => s

/-- A packet of the group under its new slot number. -/
def Packet.rename (p : Packet) (core old new : Nat) : Packet :=
  if p.core == core && p.slot == old then { p with slot := new } else p

/-- The key of a group slot's region number. -/
def slotKey (core slot : Nat) : Nat := core * 32 + slot

/-- The region number of a group slot. -/
def State.regionNum (s : State) (core slot : Nat) : BitVec 32 := lookupD 0 s.ms.regionNo (slotKey core slot)

/-- A group slot's region closes: its number increments, its stamps die. -/
def State.closeRegion (s : State) (core slot : Nat) : State :=
  { s with ms := { s.ms with
      regionNo := assign s.ms.regionNo (slotKey core slot) (s.regionNum core slot + 1) } }

/-- A group leaves its slot: what it has under way goes on as a ghost, its queue entries are discarded, its region closes
(R244). -/
def State.dropGroup (s0 : State) (g : Group) : State :=
  let s := s0.leaveBar g
  let n := 32 + s.sched.genSeq
  let keep := s.sched.groups.filter (fun h => !(h.core == g.core && h.slot == g.slot))
  let launch := match s.launchOf g with
    | some l => l.id
    | none => 0
  { s.closeRegion g.core g.slot with
    sched := { s.sched with
      genSeq := s.sched.genSeq + 1, selectDue := true,
      groups := if g.hasOutgoing then keep ++ [g.ghost n launch] else keep },
    eng := { s.eng with
      sfq := s.eng.sfq.filter (fun q => !(q.core == g.core && q.slot == g.slot)),
      cvtq := s.eng.cvtq.filter (fun q => !(q.core == g.core && q.slot == g.slot)) },
    fab := { s.fab with
      flows := s.fab.flows.map (fun f => { f with unacked := f.unacked.map (fun p => p.rename g.core g.slot n) }) } }

/-- The live groups of a unit, without ghosts. -/
def State.unitGroups (s : State) (u : Nat) : List Group := s.sched.groups.filter (fun g => g.unit == u && !g.isGhost)

/-- The groups of a workgroup, without ghosts. -/
def State.wgGroups (s : State) (u w : Nat) : List Group :=
  s.sched.groups.filter (fun g => g.unit == u && g.wg == w && !g.isGhost)

/-- Scratch in granules of 4 KiB (R136). -/
def roundUp4k (n : Nat) : Nat := (n + 4095) / 4096 * 4096

/-- A scratch run cleared (R148). -/
def State.scrubScratch (s : State) (cluster : Nat) (run : Option (Nat × Nat)) : State :=
  match run with
  | none => s
  | some (off, len) =>
    let s1 := s.withSram cluster ((s.sramOf cluster).clear off len)
    { s1 with ms := { s1.ms with
      barriers := s1.ms.barriers.filter (fun b => !(b.1 == cluster && off ≤ b.2 && b.2 < off + len)) } }

/-- Whether an endpoint lies in a unit's scratch run. -/
def Endpoint.inRun (e : Endpoint) (cluster : Nat) (run : Option (Nat × Nat)) : Bool :=
  match e, run with
  | .sram c o, some (off, len) => c == cluster && off ≤ o && o < off + len
  | .sram _ _, none => false
  | .virt _, _ => false

/-- Save area pieces given back (R94, R165). -/
def State.freeSave (s : State) (ctx : Nat) (pieces : List (Nat × Nat)) : State :=
  s.mapCtx ctx (fun c => { c with saveUsed := c.saveUsed.filter (fun p => !pieces.contains p) })

/-- The spill region of a group as a piece of the save area. -/
def Group.spillPiece (g : Group) : Nat × Nat := (g.spill, 4096)

/-- A unit gives up everything it holds and disappears: its groups, workgroups and scratch run (scrubbed), its spill
regions and save records. -/
def State.releaseUnit (s : State) (u : HUnit) : State :=
  let gs := s.unitGroups u.id
  let ctx := match s.launch? u.launch with
    | some l => l.ctx
    | none => 0
  let s1 := gs.foldl (fun s g => s.dropGroup g) s
  let s2 := (s1.scrubScratch u.cluster (if u.saved then none else u.scratch)).freeSave ctx (gs.map Group.spillPiece ++ u.saveAt)
  { s2 with sched := { s2.sched with
      units := s2.sched.units.filter (fun v => v.id != u.id),
      wgs := s2.sched.wgs.filter (fun w => w.unit != u.id),
      selectDue := true } }

/-- A kill of a unit (R152): its copies, and copies and deliveries into its scratch, are cancelled; batches are
discarded with its groups; everything is scrubbed and released. -/
def State.killUnit (s : State) (u : HUnit) : State :=
  let s1 := { s with eng := { s.eng with
    counts := s.eng.counts.filter (fun m => m.unit != some u.id),
    ceCmds := s.eng.ceCmds.filter (fun k => !(k.unit == u.id || (!u.saved && k.dst.inRun u.cluster u.scratch))),
    feCmds := s.eng.feCmds.filter (fun k =>
      !(k.unit == u.id || (!k.put && !u.saved && k.loc.inRun u.cluster u.scratch))) } }
  (s1.mapGroups (fun g => if g.home == u.id then { g with meq := [] } else g)).releaseUnit u

/-- Every unit of a launch killed. -/
def State.killLaunch (s : State) (id : Nat) : State :=
  (s.sched.units.filter (fun u => u.launch == id)).foldl (fun s u => s.killUnit u) s

/-- A launch ends with a status of R118; its completion follows as its own step. -/
def State.endLaunch (s : State) (id code cause : Nat) : State :=
  { s with sched := { s.sched with launches := s.sched.launches.map (fun l =>
      if l.id == id && l.status.isNone then { l with status := some code, cause := cause } else l) } }

/-- The fault policy for a trap with no handler (R92): fence the fault domain, or fail the launch. -/
def State.faultPolicy (s : State) (ctx launch region cause : Nat) : State :=
  match s.ctx? ctx with
  | none => s
  | some c =>
    if c.cmode.getLsbD 3 then (s.killLaunch launch).endLaunch launch 5 cause
    else s.fatalRegion ctx region 0 0

/-! ## Taking an exception (R161, R162, R175 to R179) -/

/-- The cause codes of R12. -/
def causeIllegalInsn : Nat := 0x01
/-- ILLEGAL_OPERAND. -/
def causeIllegalOperand : Nat := 0x02
/-- REG_BOUND. -/
def causeRegBound : Nat := 0x03
/-- ILLEGAL_CONVERGENCE. -/
def causeConvergence : Nat := 0x04
/-- DIVERGENCE_SPILL_FAULT. -/
def causeSpill : Nat := 0x05
/-- XLATE_FAULT. -/
def causeXlate : Nat := 0x08
/-- PERMISSION_FAULT. -/
def causePermission : Nat := 0x09
/-- FORMAT_FAULT. -/
def causeFormat : Nat := 0x0A
/-- ALIGN_FAULT. -/
def causeAlign : Nat := 0x0B
/-- MMX. -/
def causeMmx : Nat := 0x0C
/-- BARRIER_FAULT. -/
def causeBarrier : Nat := 0x10
/-- ACC_FAULT. -/
def causeAcc : Nat := 0x11
/-- TILE_FAULT. -/
def causeTile : Nat := 0x12
/-- HEADNOTE_FAULT. -/
def causeHeadnote : Nat := 0x13
/-- SUCCESSOR_FAULT. -/
def causeSuccessor : Nat := 0x14
/-- REGROUP_FAULT. -/
def causeRegroup : Nat := 0x15
/-- FENCE_INCOMPLETE. -/
def causeFence : Nat := 0x18
/-- LINK_DOWN. -/
def causeLinkDown : Nat := 0x19
/-- HANG. -/
def causeHang : Nat := 0x1C
/-- PREEMPT. -/
def causePreempt : Nat := 0x1D
/-- SOFTWARE_TRAP. -/
def causeSoftware : Nat := 0x1E

/-- The word TINFO3 (R161). -/
def TrapInfo.tinfo3 (t : TrapInfo) (slot : Nat) : Nat :=
  (match t.first with
   | some e => e % 32 + e / 32 % 8 * 32 + 256
   | none => 0) + t.nelem * 512 +
  (match t.field with
   | some f => f * 2 ^ 18 + 2 ^ 25
   | none => 0) + slot % 2 * 2 ^ 24

/-- The trap state of a group written: CAUSE, TRAPPC and TINFO0 to TINFO3 for a trap at a PC slot. -/
def Group.trapState (g : Group) (slot : Nat) (t : TrapInfo) : Group :=
  { g with cause := BitVec.ofNat 64 t.cause, trappc := BitVec.ofNat 64 (g.pcSlot slot).pc,
           tinfo0 := BitVec.ofNat 64 t.tinfo0, tinfo1 := BitVec.ofNat 64 t.tinfo1, tinfo2 := BitVec.ofNat 64 t.tinfo2,
           tinfo3 := BitVec.ofNat 64 (t.tinfo3 (t.slot.getD slot)) }

/-- No trap is being handled: CAUSE, TRAPPC and TINFO0 to TINFO3 read zero (R13, R181). -/
def Group.clearTrap (g : Group) : Group :=
  { g with cause := 0, trappc := 0, tinfo0 := 0, tinfo1 := 0, tinfo2 := 0, tinfo3 := 0 }

/-- The trap frame: s0 to s7, then p0 (R165, R177). -/
def Group.trapFrame (g : Group) : List Byte :=
  (List.range 8).flatMap (fun i => leBytes 8 (g.s i).toNat) ++ leBytes 32 (g.p 0).toNat

/-- The group enters its handler: the slots and the stack freeze, the handler's slot starts with every element that
has not exited (R177). `framed`: whether the trap frame is written. -/
def Group.enterHandler (g : Group) (pc : Nat) (phandler framed : Bool) : Group :=
  { g with st := if phandler then .phandler else .handler, pendTrap := false, blocked := none,
           hdl := some { pre := phandler,
                         slot := { pc := pc, mask := fullMask g.members &&& ~~~g.exited, frame := 0, cptr := 0, last := 0 },
                         base := g.stack.length, retired := 0, restored := false, framed := framed } }

/-- Every other live group of the workgroup becomes HELD; one that is held already keeps the state it returns to. -/
def Group.hold (g : Group) : Group :=
  match g.st with
  | .ended _ => g
  | .held => g
  | .running => { g with prevSt := g.st, st := .held }
  | .wait _ => { g with prevSt := g.st, st := .held }
  | .faultWait _ _ => { g with prevSt := g.st, st := .held }
  | .handler => { g with prevSt := g.st, st := .held }
  | .phandler => { g with prevSt := g.st, st := .held }

/-- Whether a group runs its trap handler, one that waits or is in a fault-wait there included (R97, R178). -/
def Group.inTrapHandler (g : Group) : Bool := g.hdl.any (fun h => !h.pre)

/-- Whether another group of the workgroup is in HANDLER. -/
def State.wgInHandler (s : State) (g : Group) : Bool :=
  (s.wgGroups g.unit g.wg).any (fun h => h.gi != g.gi && h.inTrapHandler)

/-- The trap frame of a group in a handler written, once no host holds bytes of it (R177, R228). -/
def State.writeFrame (s : State) (g : Group) : State :=
  (s.serveWrite g.spill g.trapFrame).putGroup { g with hdl := g.hdl.map (fun h => { h with framed := true }) }

/-- A group whose trap state is written enters HANDLER: trap frame, handler slot, siblings HELD (R177, R178). -/
def State.startHandler (s : State) (g : Group) (pc : Nat) (phandler : Bool) : State :=
  let s1 := if phandler then s
    else ((s.wgGroups g.unit g.wg).filter (fun h => h.gi != g.gi)).foldl (fun s h => s.leaveBar h) s
  let s2 := if phandler then s1
    else s1.mapGroups (fun h => if h.unit == g.unit && h.wg == g.wg && h.gi != g.gi && !h.isGhost then h.hold else h)
  let e := g.enterHandler pc phandler false
  match s2.devGate g.spill 96 with
  | some s3 => s3.putGroup e
  | none => s2.writeFrame e

/-- The address of the handler of a cause (R175); 0 means none. -/
def State.handlerOf (s : State) (u : HUnit) (ctx cause : Nat) : Nat :=
  if cause == causePreempt then u.kd.preemptH
  else if u.kd.trapH != 0 then u.kd.trapH
  else match s.ctx? ctx with
    | some c => c.handler
    | none => 0

/-- TAKING AN EXCEPTION. A trap of a group at one of its PC slots (R157, R175 to R179). In HANDLER or PHANDLER it is a
fatal error of the region. With no handler the fault policy applies. While a sibling is in HANDLER the group is HELD
with its trap pending; otherwise it enters its handler. The trapping instruction has no effect: `s` is the state
before it. A handler that waits is in HANDLER or PHANDLER still. -/
def State.takeTrap (s : State) (g : Group) (slot : Nat) (t : TrapInfo) : State :=
  match s.unit? g.unit with
  | none => s
  | some u =>
    match s.launch? u.launch with
    | none => s
    | some l =>
      if g.hdl.isSome then s.fatalRegion l.ctx l.region 0 0
      else
        let h := s.handlerOf u l.ctx t.cause
        if h == 0 then s.faultPolicy l.ctx l.id l.region t.cause
        else
          let g1 := g.trapState slot t
          let s := s.leaveBar g
          if s.wgInHandler g && t.cause != causePreempt then
            s.putGroup { g1 with pendTrap := true, st := .held, prevSt := if g.st == .held then g.prevSt else g.st }
          else s.startHandler g1 h (t.cause == causePreempt)

/-! ## Returning from an exception (R178, R181) -/

/-- A held group returns to its previous state; one that was in bwait issues its bwait again (R288). -/
def Group.unhold (g : Group) : Group :=
  match g.st with
  | .held => { g with st := if ({ g with st := g.prevSt } : Group).barWait.isSome then g.resumeSt else g.prevSt }
  | .running => g
  | .wait _ => g
  | .faultWait _ _ => g
  | .handler => g
  | .phandler => g
  | .ended _ => g

/-- The pending group with the lowest index of a workgroup. -/
def State.nextPending (s : State) (unit wg : Nat) : Option Group :=
  ((s.wgGroups unit wg).filter (fun h => h.pendTrap)).foldl (fun acc h => match acc with
    | none => some h
    | some a => if h.gi < a.gi then some h else some a) none

/-- The workgroup's held groups after a handler ends: all return, and the pending group with the lowest index enters
HANDLER, which holds the others again. -/
def State.releaseHeld (s : State) (unit wg : Nat) : State :=
  let s1 := s.mapGroups (fun h =>
    if h.unit == unit && h.wg == wg && !h.isGhost && !h.pendTrap then h.unhold else h)
  match s1.nextPending unit wg with
  | none => s1
  | some g =>
    match s1.unit? unit with
    | none => s1
    | some u =>
      match s1.launch? u.launch with
      | none => s1
      | some l => s1.startHandler g (s1.handlerOf u l.ctx g.cause.toNat) false

/-- The trap frame read back into s0 to s7 and p0. -/
def State.restoreFrame (s : State) (g : Group) : Group :=
  let g1 := (List.range 8).foldl (fun g i => g.setS i (BitVec.ofNat 64 (s.devLE (g.spill + 8 * i) 8))) g
  { g1 with pregs := g1.pregs.modify 0 (fun _ => BitVec.ofNat 256 (s.devLE (g.spill + 64) 32)) }

/-- The group's slots unfreeze: the slot that SLOT of TINFO3 names continues at TRAPPC, the trap state reads zero. -/
def Group.leaveHandler (g : Group) : Group :=
  let i := if g.tinfo3.getLsbD 24 then 1 else 0
  let g1 := g.setPcSlot i { g.pcSlot i with pc := g.trappc.toNat }
  { g1.clearTrap with hdl := none, st := .running, prevSt := .running }

/-- RETURNING FROM AN EXCEPTION: tret with or without the trap frame's registers (R181). -/
def State.trapReturn (s : State) (g : Group) (restore : Bool) : State :=
  let g1 := if restore then s.restoreFrame g else g
  let wasHandler := g.inTrapHandler
  let s1 := s.putGroup g1.leaveHandler
  if wasHandler then s1.releaseHeld g.unit g.wg else s1

end Sys2Proof.Machine
end

