-- ==== Sys2Proof/Machine/Flags.lean ====
section
/-! DEFINITION. FLAGS (R36, R37) and the uniform condition UCOND (R66): how they are set and tested. -/

namespace Sys2Proof.Machine

/-- Exception bits ORed into FLAGS (R37). -/
def Group.orFlags (g : Group) (f : Flags) : Group := { g with flags := g.flags ||| f }

/-- The flags of many elements together. -/
def orAll (fs : List Flags) : Flags := fs.foldl (· ||| ·) 0

/-- UCOND from EQ, LT and LO (R66). -/
def condBits (eq lt lo : Bool) : BitVec 3 := BitVec.ofBool lo ++ BitVec.ofBool lt ++ BitVec.ofBool eq

/-- The condition that scmp and scmpi leave (R66). -/
def compareCond (a b : Word64) : BitVec 3 := condBits (a == b) (a.slt b) (a.ult b)

/-- The condition that stest leaves (R66). -/
def testCond (a b : Word64) : BitVec 3 := condBits (a &&& b == 0) false false

/-- The conditions of R66 that read UCOND. -/
def condUniform (c : Nat) (u : BitVec 3) : Bool :=
  let eq := u.getLsbD 0
  let lt := u.getLsbD 1
  let lo := u.getLsbD 2
  match c with
  | 0 => true
  | 1 => eq
  | 2 => !eq
  | 3 => lt
  | 4 => !lt
  | 5 => lt || eq
  | 6 => !lt && !eq
  | 7 => lo
  | 8 => !lo
  | _ => false

/-- taken(c) of R170: UCOND, or p0 over the active elements of the issuing slot (.any, .all, .none). -/
def condTaken (c : Nat) (u : BitVec 3) (p0 active : Mask) : Bool :=
  match c with
  | 9 => p0 &&& active != 0
  | 10 => p0 &&& active == active
  | 11 => p0 &&& active == 0
  | _ => condUniform c u

end Sys2Proof.Machine
end

