-- ==== Sys2Proof/Machine/Operands.lean ====
section
/-! DEFINITION. Issuing an instruction: the issuing group and slot, every operand form with its checks of R67 and R68
in their order, the scoreboard (R159, R312), and what an instruction may do (complete, trap, wait, wait for a fault,
or not clear the scoreboard). -/

namespace Sys2Proof.Machine

/-! ## The issuing group -/

/-- What an issuing instruction sees: the state, the group, its PC slot's number and contents, unit and launch. -/
structure Iss where
  st : State
  g : Group
  which : Nat
  ps : PcSlot
  u : HUnit
  l : Launch
  raw : Word32
  len : Nat
  waiting : Bool

/-- The PC slot whose instruction a group in WAIT waits at: the one that issued last. -/
def Group.waitSlot (g : Group) : Nat :=
  if g.hdl.isSome then 2 else if g.slot1.live && (!g.slot0.live || g.slot0.last < g.slot1.last) then 1 else 0

/-- A group as it issues: one in WAIT tries its waiting instruction again (R157). -/
def Group.awake (g : Group) : Group :=
  match g.st with
  | .wait _ => { g with st := g.resumeSt }
  | .running => g
  | .faultWait _ _ => g
  | .handler => g
  | .phandler => g
  | .held => g
  | .ended _ => g

/-- Whether a group is in WAIT. -/
def Group.inWait (g : Group) : Bool :=
  match g.st with
  | .wait _ => true
  | .running => false
  | .faultWait _ _ => false
  | .handler => false
  | .phandler => false
  | .held => false
  | .ended _ => false

/-- Whether a group is in FAULTWAIT. -/
def Group.inFaultWait (g : Group) : Bool :=
  match g.st with
  | .faultWait _ _ => true
  | .running => false
  | .wait _ => false
  | .handler => false
  | .phandler => false
  | .held => false
  | .ended _ => false

/-- Whether a group may issue from a PC slot: RUNNING from slots 0 and 1, a handler from its own slot (R157, R158). -/
def Group.mayIssue (g : Group) (which : Nat) : Bool :=
  g.saved.isNone && g.blocked.isNone && (g.pcSlot which).live &&
  match g.st with
  | .running => which < 2
  | .handler => which == 2
  | .phandler => which == 2
  | .wait _ => false
  | .faultWait _ _ => false
  | .held => false
  | .ended _ => false

/-- Whether a workgroup waits for its next round boundary (R101, R145). -/
def State.wgHeld (s : State) (u w : Nat) : Bool :=
  match s.wg? u w with
  | some x => x.hold
  | none => false

/-- Whether a pre-emption request stops a group at its present instruction boundary: it is in no handler, and no group of its
workgroup is in HANDLER or HELD, nor does the regrouping unit move the workgroup's registers (R179, R184). -/
def State.preemptStops (s : State) (g : Group) : Bool :=
  g.preemptReq && g.saved.isNone && g.blocked.isNone && g.hdl.isNone &&
  !(s.wgGroups g.unit g.wg).any (fun h => h.inTrapHandler || h.st == .held) &&
  !(s.wg? g.unit g.wg).any (fun w => w.moving.isSome)

/-- The issuing group of the state, if there is one: its unit RUNNING and not saved, its region open, no pre-emption due. -/
def State.issuing (s : State) : Option Iss :=
  match s.cur with
  | none => none
  | some c =>
    match s.group? c.core c.slot with
    | none => none
    | some g =>
      match s.unit? g.unit with
      | none => none
      | some u =>
        match s.launch? u.launch with
        | none => none
        | some l =>
          if s.mgmt.devState == .ready && g.awake.mayIssue c.pcSlot && (!g.inWait || c.pcSlot == g.waitSlot) &&
              u.st == .running && !u.saved && s.regionOpen l.ctx l.region && !s.wgHeld g.unit g.wg && !s.preemptStops g
          then some { st := s, g := g.awake, which := c.pcSlot, ps := g.pcSlot c.pcSlot, u := u, l := l, raw := c.raw,
                      len := c.len, waiting := g.inWait }
          else none

/-- The active elements. -/
def Iss.mask (c : Iss) : Mask := c.ps.mask
/-- The active element numbers in ascending order. -/
def Iss.elems (c : Iss) : List Nat := maskElems c.ps.mask c.g.width
/-- Whether the issuing slot is fully converged (R168). -/
def Iss.converged (c : Iss) : Bool := c.ps.mask == fullMask c.g.members
/-- Whether the group is in a handler (R105). -/
def Iss.inHandler (c : Iss) : Bool := c.g.st == .handler || c.g.st == .phandler
/-- The context's id. -/
def Iss.ctx (c : Iss) : Nat := c.l.ctx
/-- The group's cluster. -/
def Iss.cluster (c : Iss) : Nat := clusterOfCore c.g.core

/-! ## What an instruction may do -/

/-- The outcome of an instruction's own execution. -/
inductive Eff where
  /-- It completes in this state, the PC moved as it says. -/
  | done (s : State)
  /-- It completes and its group has ended: the slot may hold a successor that has issued nothing (R145). -/
  | exited (s : State)
  /-- It traps with no effect (R176). -/
  | trap (t : TrapInfo)
  /-- It traps in a state that part of it has left: a release that has completed (R286). -/
  | trapIn (s : State) (g : Group) (t : TrapInfo)
  /-- It does not complete and issues again later: the group waits in this state (WAIT or FAULTWAIT), or goes on with
  an access that blocks it. -/
  | waits (s : State)
  /-- It does not clear the scoreboard, or a queue is full: the slot is not eligible (R129, R312). -/
  | stall

/-- The group written back with its PC past the instruction. -/
def Iss.done (c : Iss) (g : Group) : Eff := .done (c.st.putGroup (g.advance c.which c.len))

/-- The group written back into a state with its PC past the instruction. -/
def Iss.doneIn (c : Iss) (s : State) (g : Group) : Eff := .done (s.putGroup (g.advance c.which c.len))

/-- An instruction that waits for what an access of its meets: it stalls, or has sent the snoop that takes a half back (R228). -/
def Iss.gated (c : Iss) (s : State) : Eff := if s == c.st then .stall else .waits (s.putGroup c.g)

/-- The group written back with its divergence stack mirrored (R165), once no host holds bytes of its spill region. -/
def Iss.doneStack (c : Iss) (g : Group) : Eff :=
  match c.st.stackGate g with
  | some s => c.gated s
  | none => .done (c.st.putStack g)

/-- An outcome whose trap leaves what the instruction has already done: the state and the group as they are now. -/
def Iss.trapHere (c : Iss) (e : Eff) : Eff :=
  match e with
  | .trap t => .trapIn (c.st.putGroup c.g) c.g t
  | .done s => .done s
  | .exited s => .exited s
  | .trapIn s g t => .trapIn s g t
  | .waits s => .waits s
  | .stall => .stall

/-- The group in WAIT. -/
def Iss.waitFor (c : Iss) (w : WaitKind) : Eff :=
  let g := c.g.setPcSlot c.which { c.ps with last := c.g.retired + 1 }
  .waits (c.st.putGroup { g with st := .wait w, prevSt := c.g.st, released := false })

/-- A trap whose TINFO0 is the raw instruction. -/
def Iss.trapRaw (c : Iss) (cause tinfo1 : Nat) (field : Option Nat) : Eff :=
  .trap { cause := cause, tinfo0 := c.raw.toNat, tinfo1 := tinfo1, field := field }

/-- ILLEGAL_OPERAND naming a field. -/
def Iss.illegalOperand (c : Iss) (field : Nat) : Eff := c.trapRaw causeIllegalOperand 0 (some field)

/-! ## Operand checks (R67, R68) -/

/-- The classes of operands that have checks: vector, uniform, predicate registers and scope codes. -/
inductive OpClass where
  | vec | uni | pred | scope
  deriving DecidableEq, Repr

/-- An operand: the lowest bit of its field, its class, its register number or scope code, whether it is a pair,
whether it is written. -/
structure Opnd where
  field : Nat
  cls : OpClass
  idx : Nat
  pair : Bool
  dst : Bool
  deriving DecidableEq, Repr

/-- A vector source. -/
def opV (field idx : Nat) : Opnd := { field := field, cls := .vec, idx := idx, pair := false, dst := false }
/-- A vector destination. -/
def opVd (field idx : Nat) : Opnd := { field := field, cls := .vec, idx := idx, pair := false, dst := true }
/-- A 64-bit vector source. -/
def opW (field idx : Nat) : Opnd := { field := field, cls := .vec, idx := idx, pair := true, dst := false }
/-- A 64-bit vector destination. -/
def opWd (field idx : Nat) : Opnd := { field := field, cls := .vec, idx := idx, pair := true, dst := true }
/-- A uniform register. -/
def opS (field idx : Nat) : Opnd := { field := field, cls := .uni, idx := idx, pair := false, dst := false }
/-- A predicate source. -/
def opP (field idx : Nat) : Opnd := { field := field, cls := .pred, idx := idx, pair := false, dst := false }
/-- A predicate destination. -/
def opPd (field idx : Nat) : Opnd := { field := field, cls := .pred, idx := idx, pair := false, dst := true }
/-- A scope code. -/
def opScope (field code : Nat) : Opnd := { field := field, cls := .scope, idx := code, pair := false, dst := false }

/-- The second source of the V3 majors (R63): field 25 either way. -/
def opSrc (x : VSrc) (pair : Bool) : Opnd :=
  match x with
  | .v r => { field := 25, cls := .vec, idx := r, pair := pair, dst := false }
  | .s r => opS 25 r

/-- The declared count of a class (R67, R136). -/
def KDesc.count (k : KDesc) : OpClass → Nat
  | .vec => 8 * k.vgran
  | .uni => 8 * k.sgran
  | .pred => 4 * k.pgran
  | .scope => 0

/-- ILLEGAL_OPERAND of one operand: a reserved scope code, an odd 64-bit name. -/
def Opnd.illegal (o : Opnd) : Bool :=
  match o.cls with
  | .scope => 10 ≤ o.idx
  | .vec => o.pair && o.idx % 2 == 1
  | .uni => false
  | .pred => false

/-- REG_BOUND of one operand; of a pair the odd register counts. -/
def Opnd.outside (o : Opnd) (k : KDesc) : Bool :=
  match o.cls with
  | .scope => false
  | .vec => k.count .vec ≤ (if o.pair then o.idx + 1 else o.idx)
  | .uni => k.count .uni ≤ o.idx
  | .pred => k.count .pred ≤ o.idx

/-- The operand checks of R68, steps 2 and 3. The operands stand in ascending order of their fields. -/
def checkOperands (c : Iss) (ops : List Opnd) : Option TrapInfo :=
  match ops.find? Opnd.illegal with
  | some o => some { cause := causeIllegalOperand, tinfo0 := c.raw.toNat, field := some o.field }
  | none =>
    match ops.find? (fun o => o.outside c.u.kd) with
    | some o => some { cause := causeRegBound, tinfo0 := c.raw.toNat, tinfo1 := c.u.kd.count o.cls, field := some o.field }
    | none => none

/-! ## The scoreboard (R159, R312) -/

/-- The vector registers that earlier operations of the group have still to write. -/
def State.pendingRegs (s : State) (g : Group) : List Nat :=
  g.loads.flatMap (fun l => if l.pair then [l.dst, l.dst + 1] else [l.dst]) ++
  g.atoms.flatMap (fun a => if a.red then [] else if [1, 3, 13, 15].contains a.op then [a.dst, a.dst + 1] else [a.dst]) ++
  (s.eng.sfq ++ s.eng.cvtq).flatMap (fun q =>
    if q.core == g.core && q.slot == g.slot then (if q.pair then [q.dst, q.dst + 1] else [q.dst]) else []) ++
  g.meq.flatMap (fun m => match m.work with
    | .xround d _ _ wide _ _ => if wide then [d, d + 1] else [d]
    | _ => [])

/-- Whether an operand meets a pending register. -/
def Opnd.meets (o : Opnd) (rs : List Nat) : Bool :=
  match o.cls with
  | .vec => rs.contains o.idx || (o.pair && rs.contains (o.idx + 1))
  | .uni => false
  | .pred => false
  | .scope => false

/-- Whether the instruction clears the scoreboard. -/
def Iss.clears (c : Iss) (ops : List Opnd) : Bool :=
  let rs := c.st.pendingRegs c.g
  !ops.any (fun o => o.meets rs)

/-- Whether queue entries of the group are unfinished (R155, R156, R176). -/
def State.queued (s : State) (g : Group) : Bool :=
  (s.eng.sfq ++ s.eng.cvtq).any (fun q => q.core == g.core && q.slot == g.slot)

/-! ## Running an instruction -/

/-- The slot an instruction issued from, stamped with the group's issue count (R129). -/
def Group.stamp (g : Group) (which : Nat) : Group :=
  let n := g.retired + 1
  let g1 := g.setPcSlot which { g.pcSlot which with last := n }
  { g1 with retired := n, waitCount := 0,
            hdl := match g1.hdl with
              | some h => some { h with retired := h.retired + 1 }
              | none => none }

/-- What every completed instruction leaves beside its effect: no current instruction, one cycle of its core, the workgroup
started (R139), the context's hang counter at 0 (R96). -/
def Iss.retireOver (c : Iss) (s : State) : State :=
  let s1 := { s with cur := none }
  let s2 := match s1.wg? c.g.unit c.g.wg with
    | some w => if w.started then s1 else s1.putWg { w with started := true }
    | none => s1
  (s2.mapCtx c.l.ctx (fun x => { x with hang := 0 })).tick (.core c.g.core) 1

/-- The group that issued counts the instruction (R106, R129, R186). -/
def Iss.stampIn (c : Iss) (s : State) : State :=
  match s.group? c.g.core c.g.slot with
  | some g => if g.unit == c.g.unit then s.putGroup (g.stamp c.which) else s
  | none => s

/-- What an instruction leaves whose group goes on. -/
def Iss.retire (c : Iss) (s : State) : State := c.retireOver (c.stampIn s)

/-- What any issue leaves, whether the instruction completes, waits or traps: no current instruction, one cycle of its core, the
context's hang counter at 0 (R96), the group's wait count at 0 (R129). -/
def Iss.issued (c : Iss) (s : State) : State :=
  let s1 := match s.group? c.g.core c.g.slot with
    | some g => s.putGroup { g with waitCount := 0 }
    | none => s
  (({ s1 with cur := none }).mapCtx c.l.ctx (fun x => { x with hang := 0 })).tick (.core c.g.core) 1

/-- What an instruction that starts to wait leaves. -/
def Iss.suspend (c : Iss) (s : State) : State := c.issued s

/-- The state in which a trap takes effect. -/
def Iss.trapped (c : Iss) (t : TrapInfo) : State := c.issued (({ c.st with cur := none }).takeTrap c.g c.which t)

/-- An outcome of exec from the outcome of an instruction. A stalled instruction leaves the state as it was, and so does
one that waits already and must go on waiting, or whose trap waits for queue entries (R176, R312). -/
def Iss.conclude (c : Iss) : Eff → Host.Outcome State Fault Refusal
  | .done s => .next (c.retire s)
  | .exited s => .next (c.retireOver s)
  | .trap t => if c.st.queued c.g then .next c.st else .next (c.trapped t)
  | .trapIn s g t => if c.st.queued c.g then .next c.st else .next ({ c with st := s, g := g }.trapped t)
  | .waits s =>
    if c.waiting && s.group? c.g.core c.g.slot == c.st.group? c.g.core c.g.slot && s.wg? c.g.unit c.g.wg == c.st.wg? c.g.unit c.g.wg then
      .next c.st else .next (c.suspend s)
  | .stall => .next c.st

/-- Peer copies of a die dropped by an acquire at .pd or wider (R247). -/
def State.dropPeerCopies (s : State) (die scope : Nat) : State :=
  if scope < 7 then s
  else { s with ms := { s.ms with peerCopies := s.ms.peerCopies.filter (fun p => p.die != die) } }

/-- The effect of an acquire whose waits are over. -/
def State.doAcquire (s : State) (g : Group) (scope : Nat) : State :=
  let s1 := s.dropPeerCopies (dieOfCore g.core) scope
  if 2 ≤ scope then s1.closeRegion g.core g.slot else s1

/-- The acquire that the first instruction of a started group performs before its own effect (R126, R145). -/
def Iss.acquired (c : Iss) : Iss :=
  match c.g.acquire with
  | none => c
  | some k =>
    let g := { c.g with acquire := none }
    { c with g := g, st := (c.st.doAcquire g k).putGroup g }

/-- Whether a word is yield (R180). -/
def isYield (w : Nat) : Bool := w % 2 ^ 18 == 0x1B9 && w < 2 ^ 30

/-- What comes before the fetch of a handler's first instruction: the group's queue entries complete and the trap frame is written
(R176, R177, R228). -/
def Iss.frameFirst (c : Iss) : Option Eff :=
  match c.g.hdl with
  | none => none
  | some h =>
    if h.retired == 0 && c.st.queued c.g then some .stall
    else if !h.framed then some (match c.st.devGate c.g.spill 96 with
      | some s => c.gated s
      | none => .waits (c.st.writeFrame c.g))
    else none

/-- What comes before an instruction of a handler: its frame; a pre-emption handler that has retired 4,096 instructions issues yield
only (R186). -/
def Iss.handlerFirst (c : Iss) : Option Eff :=
  c.frameFirst.orElse (fun _ => match c.g.hdl with
    | none => none
    | some h => if h.pre && !h.restored && 4096 ≤ h.retired && !isYield c.raw.toNat then some .stall else none)

/-- The trap of a discarded posted write, which the group takes at the instruction that it would issue next (R263), once its queue
entries are done. -/
def Iss.lateFirst (c : Iss) : Option Eff :=
  match c.g.lateTrap with
  | none => none
  | some t => some (if c.st.queued c.g then .stall
      else .trapIn (c.st.putGroup { c.g with lateTrap := none }) { c.g with lateTrap := none } t)

/-- Whether a word is ld (R336). -/
def isLd (w : Nat) : Bool := w % 2 ^ 7 == 0x41

/-- An instruction issued: what comes before one of a handler, the release of an earlier fence.rel, which only reads pass (R250), the
late trap of a discarded posted write (R263), the acquire of a group's first instruction (R126, R145), then the operand checks of
R68, the scoreboard, and its own execution. -/
def runInstr (s : State) (ops : List Opnd) (body : Iss → Eff) : Host.Outcome State Fault Refusal :=
  match s.issuing with
  | none => .refused .noIssuingGroup
  | some c =>
    match c.handlerFirst with
    | some e => c.conclude e
    | none =>
      if c.g.relFence.isSome && !isLd c.raw.toNat then c.conclude .stall
      else match c.lateFirst with
      | some e => c.conclude e
      | none =>
        let d := c.acquired
        match checkOperands c ops with
        | some t => d.conclude (.trap t)
        | none => if c.clears ops then d.conclude (body d) else c.conclude .stall

/-! ## Events -/

/-- A step of the part that is not a group's: taken where its condition holds, on a device that is not FATAL (R454). -/
def event (s : State) (name : String) (ok : Bool) (next : State) : Host.Outcome State Fault Refusal :=
  if s.mgmt.devState != .fatal && ok then .next next else .refused (.eventNotEnabled name)

/-- An event whose condition yields what it works on. -/
def eventOf {α : Type} (s : State) (name : String) (found : Option α) (next : α → State) :
    Host.Outcome State Fault Refusal :=
  match (if s.mgmt.devState == .fatal then none else found) with
  | some x => .next (next x)
  | none => .refused (.eventNotEnabled name)

/-- A condition as a value. -/
def when (b : Bool) : Option Unit := if b then some () else none

end Sys2Proof.Machine
end

