-- ==== Sys2Proof/Machine/Integer.lean ====
section
/-! DEFINITION. Integer, uniform and predicate instructions (spec file 12): majors 0x01 to 0x07, 0x10 to 0x15 and the
compact forms of R309. Each effect is stated once as a shared operation over its operand form; each instruction has
its own meaning over it. -/

namespace Sys2Proof.Machine

/-! ## Sources -/

/-- The 32-bit second source of an element: a vector register, or bits [31:0] of a uniform register (R63). -/
def Group.src32 (g : Group) (x : VSrc) (e : Nat) : Word32 :=
  match x with
  | .v r => g.v r e
  | .s r => (g.s r).setWidth 32

/-- The 64-bit second source of an element: a pair, or a uniform register (R63, R296). -/
def Group.src64 (g : Group) (x : VSrc) (e : Nat) : Word64 :=
  match x with
  | .v r => g.v64 r e
  | .s r => g.s r

/-! ## Operations on words -/

/-- Bits [63:32] of the signed product. -/
def mulhS32 (x y : Word32) : Word32 := ((x.signExtend 64 * y.signExtend 64) >>> 32).setWidth 32
/-- Bits [63:32] of the unsigned product. -/
def mulhU32 (x y : Word32) : Word32 := ((x.setWidth 64 * y.setWidth 64) >>> 32).setWidth 32
/-- Bits [127:64] of the signed product. -/
def mulhS64 (x y : Word64) : Word64 := ((x.signExtend 128 * y.signExtend 128) >>> 64).setWidth 64
/-- Bits [127:64] of the unsigned product. -/
def mulhU64 (x y : Word64) : Word64 := ((x.setWidth 128 * y.setWidth 128) >>> 64).setWidth 64
/-- Shifts take the low bits of the amount (R294, R301). -/
def shl32 (x y : Word32) : Word32 := x <<< (y.toNat % 32)
/-- Logical shift right. -/
def shr32 (x y : Word32) : Word32 := x >>> (y.toNat % 32)
/-- Arithmetic shift right. -/
def sar32 (x y : Word32) : Word32 := x.sshiftRight (y.toNat % 32)
/-- Shift left of a uniform register. -/
def shl64 (x y : Word64) : Word64 := x <<< (y.toNat % 64)
/-- Logical shift right of a uniform register. -/
def shr64 (x y : Word64) : Word64 := x >>> (y.toNat % 64)
/-- Arithmetic shift right of a uniform register. -/
def sar64 (x y : Word64) : Word64 := x.sshiftRight (y.toNat % 64)
/-- Signed minimum. -/
def minS {n : Nat} (x y : BitVec n) : BitVec n := if y.slt x then y else x
/-- Signed maximum. -/
def maxS {n : Nat} (x y : BitVec n) : BitVec n := if x.slt y then y else x
/-- Unsigned minimum. -/
def minU {n : Nat} (x y : BitVec n) : BitVec n := if y.ult x then y else x
/-- Unsigned maximum. -/
def maxU {n : Nat} (x y : BitVec n) : BitVec n := if x.ult y then y else x
/-- The number of 1 bits. -/
def popCount {n : Nat} (x : BitVec n) : Nat := ((List.range n).filter (fun i => x.getLsbD i)).length
/-- The number of 0 bits above the highest 1 bit. -/
def leadingZeros {n : Nat} (x : BitVec n) : Nat := if x == 0 then n else n - 1 - Nat.log2 x.toNat
/-- Rotate left; amount 0 gives x. -/
def rol32 (x : Word32) (n : Nat) : Word32 := x <<< n ||| (if n == 0 then 0 else x >>> (32 - n))

/-- vbfx of R295. -/
def bitField (x y : Word32) : Word32 :=
  let pos := y.toNat % 32
  let w := y.toNat / 256 % 32 + 1
  let f := x.toNat / 2 ^ pos % 2 ^ w
  if y.getLsbD 16 && f.testBit (w - 1) then BitVec.ofInt 32 ((f : Int) - 2 ^ w) else BitVec.ofNat 32 f

/-- The signed quotient of R302. -/
def quotS (x y : Word64) : Word64 := if y == 0 then BitVec.allOnes 64 else x.sdiv y
/-- The signed remainder of R302. -/
def remS (x y : Word64) : Word64 := if y == 0 then x else x.srem y
/-- The unsigned quotient of R302. -/
def quotU (x y : Word64) : Word64 := if y == 0 then BitVec.allOnes 64 else x.udiv y
/-- The unsigned remainder of R302. -/
def remU (x y : Word64) : Word64 := if y == 0 then x else x.umod y

/-! ## Operand forms -/

/-- vd := f(va, second source) in each active element (V3 layout). -/
def vecOp (s : State) (d a : Nat) (b : VSrc) (f : Word32 → Word32 → Word32) : Host.Outcome State Fault Refusal :=
  runInstr s [opVd 11 d, opV 18 a, opSrc b false] fun c =>
    c.done (c.g.setV d c.mask (fun e => f (c.g.v a e) (c.g.src32 b e)))

/-- The same on pairs (R296). -/
def vecOp64 (s : State) (d a : Nat) (b : VSrc) (f : Word64 → Word64 → Word64) : Host.Outcome State Fault Refusal :=
  runInstr s [opWd 11 d, opW 18 a, opSrc b true] fun c =>
    c.done (c.g.setV64 d c.mask (fun e => f (c.g.v64 a e) (c.g.src64 b e)))

/-- Bit e of pd := relation(va, second source) in each active element (R299). -/
def cmpOp (s : State) (p a : Nat) (b : VSrc) (f : Word32 → Word32 → Bool) : Host.Outcome State Fault Refusal :=
  runInstr s [opPd 11 p, opV 18 a, opSrc b false] fun c =>
    c.done (c.g.setP p c.mask (maskWhere c.g.width (fun e => f (c.g.v a e) (c.g.src32 b e))))

/-- The same on pairs. -/
def cmpOp64 (s : State) (p a : Nat) (b : VSrc) (f : Word64 → Word64 → Bool) : Host.Outcome State Fault Refusal :=
  runInstr s [opPd 11 p, opW 18 a, opSrc b true] fun c =>
    c.done (c.g.setP p c.mask (maskWhere c.g.width (fun e => f (c.g.v64 a e) (c.g.src64 b e))))

/-- vd := f(va) in each active element, fields of the I layout (R297, R298). -/
def immOp (s : State) (d a : Nat) (f : Word32 → Word32) : Host.Outcome State Fault Refusal :=
  runInstr s [opVd 7 d, opV 14 a] fun c => c.done (c.g.setV d c.mask (fun e => f (c.g.v a e)))

/-- Bit e of pd := test(va) in each active element (R300). -/
def cmpImmOp (s : State) (p a : Nat) (f : Word32 → Bool) : Host.Outcome State Fault Refusal :=
  runInstr s [opPd 7 p, opV 14 a] fun c =>
    c.done (c.g.setP p c.mask (maskWhere c.g.width (fun e => f (c.g.v a e))))

/-- sd := f(sa, sb), once per issue (R301). -/
def uniOp (s : State) (d a b : Nat) (f : Word64 → Word64 → Word64) : Host.Outcome State Fault Refusal :=
  runInstr s [opS 12 d, opS 18 a, opS 24 b] fun c => c.done (c.g.setS d (f (c.g.s a) (c.g.s b)))

/-- sd := f(sa), fields of the U layout. -/
def uniOp1 (s : State) (d a : Nat) (f : Word64 → Word64) : Host.Outcome State Fault Refusal :=
  runInstr s [opS 12 d, opS 18 a] fun c => c.done (c.g.setS d (f (c.g.s a)))

/-- sd := f(sa), fields of the I layout (R303). -/
def uniImm (s : State) (d a : Nat) (f : Word64 → Word64) : Host.Outcome State Fault Refusal :=
  runInstr s [opS 7 d, opS 14 a] fun c => c.done (c.g.setS d (f (c.g.s a)))

/-- UCOND := f(sa, sb) (R305). -/
def condOp (s : State) (a b : Nat) (f : Word64 → Word64 → BitVec 3) : Host.Outcome State Fault Refusal :=
  runInstr s [opS 18 a, opS 24 b] fun c => c.done { c.g with ucond := f (c.g.s a) (c.g.s b) }

/-- pd := f(pa, pb) in each active element (R306). -/
def predOp (s : State) (d a b : Nat) (f : Mask → Mask → Mask) : Host.Outcome State Fault Refusal :=
  runInstr s [opPd 11 d, opP 18 a, opP 25 b] fun c => c.done (c.g.setP d c.mask (f (c.g.p a) (c.g.p b)))

/-- vd := f(vd, vs) in each active element, compact form (R60, R309). -/
def compactOp (s : State) (d a : Nat) (f : Word32 → Word32 → Word32) : Host.Outcome State Fault Refusal :=
  runInstr s [opVd 5 d, opV 11 a] fun c => c.done (c.g.setV d c.mask (fun e => f (c.g.v d e) (c.g.v a e)))

/-! ## Majors 0x01 and 0x02 (R294 to R296) -/

/-- vadd.i32. -/
def execVaddI32 (d a : Fin 128) (b : VSrc) (s : State) : Host.Outcome State Fault Refusal :=
  vecOp s d a b (· + ·)

/-- vsub.i32. -/
def execVsubI32 (d a : Fin 128) (b : VSrc) (s : State) : Host.Outcome State Fault Refusal :=
  vecOp s d a b (· - ·)

/-- vmul.i32. -/
def execVmulI32 (d a : Fin 128) (b : VSrc) (s : State) : Host.Outcome State Fault Refusal :=
  vecOp s d a b (· * ·)

/-- vmulh.i32. -/
def execVmulhI32 (d a : Fin 128) (b : VSrc) (s : State) : Host.Outcome State Fault Refusal :=
  vecOp s d a b mulhS32

/-- vmulh.n32. -/
def execVmulhN32 (d a : Fin 128) (b : VSrc) (s : State) : Host.Outcome State Fault Refusal :=
  vecOp s d a b mulhU32

/-- vmin.i32. -/
def execVminI32 (d a : Fin 128) (b : VSrc) (s : State) : Host.Outcome State Fault Refusal :=
  vecOp s d a b minS

/-- vmax.i32. -/
def execVmaxI32 (d a : Fin 128) (b : VSrc) (s : State) : Host.Outcome State Fault Refusal :=
  vecOp s d a b maxS

/-- vshl. -/
def execVshl (d a : Fin 128) (b : VSrc) (s : State) : Host.Outcome State Fault Refusal :=
  vecOp s d a b shl32

/-- vshr. -/
def execVshr (d a : Fin 128) (b : VSrc) (s : State) : Host.Outcome State Fault Refusal :=
  vecOp s d a b shr32

/-- vsar. -/
def execVsar (d a : Fin 128) (b : VSrc) (s : State) : Host.Outcome State Fault Refusal :=
  vecOp s d a b sar32

/-- vand. -/
def execVand (d a : Fin 128) (b : VSrc) (s : State) : Host.Outcome State Fault Refusal :=
  vecOp s d a b (· &&& ·)

/-- vor. -/
def execVor (d a : Fin 128) (b : VSrc) (s : State) : Host.Outcome State Fault Refusal :=
  vecOp s d a b (· ||| ·)

/-- vxor. -/
def execVxor (d a : Fin 128) (b : VSrc) (s : State) : Host.Outcome State Fault Refusal :=
  vecOp s d a b (· ^^^ ·)

/-- vbfx, R295. -/
def execVbfx (d a : Fin 128) (b : VSrc) (s : State) : Host.Outcome State Fault Refusal :=
  vecOp s d a b bitField

/-- vadd.i64, R296. -/
def execVaddI64 (d a : Fin 128) (b : VSrc) (s : State) : Host.Outcome State Fault Refusal :=
  vecOp64 s d a b (· + ·)

/-- vsub.i64, R296. -/
def execVsubI64 (d a : Fin 128) (b : VSrc) (s : State) : Host.Outcome State Fault Refusal :=
  vecOp64 s d a b (· - ·)

/-! ## Compares (R299, R300) -/

/-- vcmp.eq.i32. -/
def execVcmpEqI32 (p : Fin 8) (a : Fin 128) (b : VSrc) (s : State) : Host.Outcome State Fault Refusal :=
  cmpOp s p a b (· == ·)

/-- vcmp.ne.i32. -/
def execVcmpNeI32 (p : Fin 8) (a : Fin 128) (b : VSrc) (s : State) : Host.Outcome State Fault Refusal :=
  cmpOp s p a b (· != ·)

/-- vcmp.lt.i32. -/
def execVcmpLtI32 (p : Fin 8) (a : Fin 128) (b : VSrc) (s : State) : Host.Outcome State Fault Refusal :=
  cmpOp s p a b BitVec.slt

/-- vcmp.le.i32. -/
def execVcmpLeI32 (p : Fin 8) (a : Fin 128) (b : VSrc) (s : State) : Host.Outcome State Fault Refusal :=
  cmpOp s p a b BitVec.sle

/-- vcmp.lt.n32. -/
def execVcmpLtN32 (p : Fin 8) (a : Fin 128) (b : VSrc) (s : State) : Host.Outcome State Fault Refusal :=
  cmpOp s p a b BitVec.ult

/-- vcmp.le.n32. -/
def execVcmpLeN32 (p : Fin 8) (a : Fin 128) (b : VSrc) (s : State) : Host.Outcome State Fault Refusal :=
  cmpOp s p a b BitVec.ule

/-- vcmp.eq.i64. -/
def execVcmpEqI64 (p : Fin 8) (a : Fin 128) (b : VSrc) (s : State) : Host.Outcome State Fault Refusal :=
  cmpOp64 s p a b (· == ·)

/-- vcmp.lt.i64. -/
def execVcmpLtI64 (p : Fin 8) (a : Fin 128) (b : VSrc) (s : State) : Host.Outcome State Fault Refusal :=
  cmpOp64 s p a b BitVec.slt

/-- vcmpi.eq. -/
def execVcmpiEq (p : Fin 8) (a : Fin 128) (i : BitVec 8) (s : State) : Host.Outcome State Fault Refusal :=
  cmpImmOp s p a (fun x => x == i.signExtend 32)

/-- vcmpi.ne. -/
def execVcmpiNe (p : Fin 8) (a : Fin 128) (i : BitVec 8) (s : State) : Host.Outcome State Fault Refusal :=
  cmpImmOp s p a (fun x => x != i.signExtend 32)

/-- vcmpi.lt.i32. -/
def execVcmpiLtI32 (p : Fin 8) (a : Fin 128) (i : BitVec 8) (s : State) : Host.Outcome State Fault Refusal :=
  cmpImmOp s p a (fun x => x.slt (i.signExtend 32))

/-- vcmpi.le.i32. -/
def execVcmpiLeI32 (p : Fin 8) (a : Fin 128) (i : BitVec 8) (s : State) : Host.Outcome State Fault Refusal :=
  cmpImmOp s p a (fun x => x.sle (i.signExtend 32))

/-- vcmpi.gt.i32. -/
def execVcmpiGtI32 (p : Fin 8) (a : Fin 128) (i : BitVec 8) (s : State) : Host.Outcome State Fault Refusal :=
  cmpImmOp s p a (fun x => (i.signExtend 32).slt x)

/-- vcmpi.ge.i32. -/
def execVcmpiGeI32 (p : Fin 8) (a : Fin 128) (i : BitVec 8) (s : State) : Host.Outcome State Fault Refusal :=
  cmpImmOp s p a (fun x => (i.signExtend 32).sle x)

/-- vcmpi.lt.n32. -/
def execVcmpiLtN32 (p : Fin 8) (a : Fin 128) (i : BitVec 8) (s : State) : Host.Outcome State Fault Refusal :=
  cmpImmOp s p a (fun x => x.ult (i.signExtend 32))

/-- vcmpi.ge.n32. -/
def execVcmpiGeN32 (p : Fin 8) (a : Fin 128) (i : BitVec 8) (s : State) : Host.Outcome State Fault Refusal :=
  cmpImmOp s p a (fun x => (i.signExtend 32).ule x)

/-! ## Vector operations with an immediate (R298) -/

/-- vaddi. -/
def execVaddi (d a : Fin 128) (i : BitVec 11) (s : State) : Host.Outcome State Fault Refusal :=
  immOp s d a (fun x => x + i.signExtend 32)

/-- vandi. -/
def execVandi (d a : Fin 128) (i : BitVec 9) (s : State) : Host.Outcome State Fault Refusal :=
  immOp s d a (fun x => x &&& i.signExtend 32)

/-- vori. -/
def execVori (d a : Fin 128) (i : BitVec 9) (s : State) : Host.Outcome State Fault Refusal :=
  immOp s d a (fun x => x ||| i.signExtend 32)

/-- vxori. -/
def execVxori (d a : Fin 128) (i : BitVec 9) (s : State) : Host.Outcome State Fault Refusal :=
  immOp s d a (fun x => x ^^^ i.signExtend 32)

/-- vshli. -/
def execVshli (d a : Fin 128) (n : Fin 32) (s : State) : Host.Outcome State Fault Refusal :=
  immOp s d a (fun x => x <<< n.val)

/-- vshri. -/
def execVshri (d a : Fin 128) (n : Fin 32) (s : State) : Host.Outcome State Fault Refusal :=
  immOp s d a (fun x => x >>> n.val)

/-- vsari. -/
def execVsari (d a : Fin 128) (n : Fin 32) (s : State) : Host.Outcome State Fault Refusal :=
  immOp s d a (fun x => x.sshiftRight n)

/-- vroli. -/
def execVroli (d a : Fin 128) (n : Fin 32) (s : State) : Host.Outcome State Fault Refusal :=
  immOp s d a (fun x => rol32 x n)

/-- vpopc. -/
def execVpopc (d a : Fin 128) (s : State) : Host.Outcome State Fault Refusal :=
  immOp s d a (fun x => BitVec.ofNat 32 (popCount x))

/-- vclz. -/
def execVclz (d a : Fin 128) (s : State) : Host.Outcome State Fault Refusal :=
  immOp s d a (fun x => BitVec.ofNat 32 (leadingZeros x))

/-- vbrev. -/
def execVbrev (d a : Fin 128) (s : State) : Host.Outcome State Fault Refusal :=
  immOp s d a (fun x => x.reverse)

/-! ## Uniform operations (R301 to R305) -/

/-- sadd. -/
def execSadd (d a b : Fin 64) (s : State) : Host.Outcome State Fault Refusal :=
  uniOp s d a b (· + ·)

/-- ssub. -/
def execSsub (d a b : Fin 64) (s : State) : Host.Outcome State Fault Refusal :=
  uniOp s d a b (· - ·)

/-- smul. -/
def execSmul (d a b : Fin 64) (s : State) : Host.Outcome State Fault Refusal :=
  uniOp s d a b (· * ·)

/-- smulh.i64. -/
def execSmulhI64 (d a b : Fin 64) (s : State) : Host.Outcome State Fault Refusal :=
  uniOp s d a b mulhS64

/-- smulh.n64. -/
def execSmulhN64 (d a b : Fin 64) (s : State) : Host.Outcome State Fault Refusal :=
  uniOp s d a b mulhU64

/-- sand. -/
def execSand (d a b : Fin 64) (s : State) : Host.Outcome State Fault Refusal :=
  uniOp s d a b (· &&& ·)

/-- sor. -/
def execSor (d a b : Fin 64) (s : State) : Host.Outcome State Fault Refusal :=
  uniOp s d a b (· ||| ·)

/-- sxor. -/
def execSxor (d a b : Fin 64) (s : State) : Host.Outcome State Fault Refusal :=
  uniOp s d a b (· ^^^ ·)

/-- sshl. -/
def execSshl (d a b : Fin 64) (s : State) : Host.Outcome State Fault Refusal :=
  uniOp s d a b shl64

/-- sshr. -/
def execSshr (d a b : Fin 64) (s : State) : Host.Outcome State Fault Refusal :=
  uniOp s d a b shr64

/-- ssar. -/
def execSsar (d a b : Fin 64) (s : State) : Host.Outcome State Fault Refusal :=
  uniOp s d a b sar64

/-- smin.i64. -/
def execSminI64 (d a b : Fin 64) (s : State) : Host.Outcome State Fault Refusal :=
  uniOp s d a b minS

/-- smax.i64. -/
def execSmaxI64 (d a b : Fin 64) (s : State) : Host.Outcome State Fault Refusal :=
  uniOp s d a b maxS

/-- smin.n64. -/
def execSminN64 (d a b : Fin 64) (s : State) : Host.Outcome State Fault Refusal :=
  uniOp s d a b minU

/-- smax.n64. -/
def execSmaxN64 (d a b : Fin 64) (s : State) : Host.Outcome State Fault Refusal :=
  uniOp s d a b maxU

/-- sdiv.i64. -/
def execSdivI64 (d a b : Fin 64) (s : State) : Host.Outcome State Fault Refusal :=
  uniOp s d a b quotS

/-- sdiv.n64. -/
def execSdivN64 (d a b : Fin 64) (s : State) : Host.Outcome State Fault Refusal :=
  uniOp s d a b quotU

/-- srem.i64. -/
def execSremI64 (d a b : Fin 64) (s : State) : Host.Outcome State Fault Refusal :=
  uniOp s d a b remS

/-- srem.n64. -/
def execSremN64 (d a b : Fin 64) (s : State) : Host.Outcome State Fault Refusal :=
  uniOp s d a b remU

/-- smov. -/
def execSmov (d a : Fin 64) (s : State) : Host.Outcome State Fault Refusal :=
  uniOp1 s d a (fun x => x)

/-- spopc. -/
def execSpopc (d a : Fin 64) (s : State) : Host.Outcome State Fault Refusal :=
  uniOp1 s d a (fun x => BitVec.ofNat 64 (popCount x))

/-- sclz. -/
def execSclz (d a : Fin 64) (s : State) : Host.Outcome State Fault Refusal :=
  uniOp1 s d a (fun x => BitVec.ofNat 64 (leadingZeros x))

/-- sshli. -/
def execSshli (d a : Fin 64) (n : Fin 64) (s : State) : Host.Outcome State Fault Refusal :=
  uniOp1 s d a (fun x => x <<< n.val)

/-- sshri. -/
def execSshri (d a : Fin 64) (n : Fin 64) (s : State) : Host.Outcome State Fault Refusal :=
  uniOp1 s d a (fun x => x >>> n.val)

/-- ssari. -/
def execSsari (d a : Fin 64) (n : Fin 64) (s : State) : Host.Outcome State Fault Refusal :=
  uniOp1 s d a (fun x => x.sshiftRight n)

/-- saddi. -/
def execSaddi (d a : Fin 64) (i : BitVec 11) (s : State) : Host.Outcome State Fault Refusal :=
  uniImm s d a (fun x => x + i.signExtend 64)

/-- sandi. -/
def execSandi (d a : Fin 64) (i : BitVec 11) (s : State) : Host.Outcome State Fault Refusal :=
  uniImm s d a (fun x => x &&& i.signExtend 64)

/-- sori. -/
def execSori (d a : Fin 64) (i : BitVec 11) (s : State) : Host.Outcome State Fault Refusal :=
  uniImm s d a (fun x => x ||| i.signExtend 64)

/-- sxori. -/
def execSxori (d a : Fin 64) (i : BitVec 11) (s : State) : Host.Outcome State Fault Refusal :=
  uniImm s d a (fun x => x ^^^ i.signExtend 64)

/-- sli (R304). -/
def execSli (d : Fin 64) (i : BitVec 18) (s : State) : Host.Outcome State Fault Refusal :=
  runInstr s [opS 7 d] fun c => c.done (c.g.setS d (i.signExtend 64))

/-- slih (R304): s[sd] × 2^18 + imm18. -/
def execSlih (d : Fin 64) (i : BitVec 18) (s : State) : Host.Outcome State Fault Refusal :=
  runInstr s [opS 7 d] fun c => c.done (c.g.setS d (c.g.s d <<< 18 ||| i.setWidth 64))

/-- scmp. -/
def execScmp (a b : Fin 64) (s : State) : Host.Outcome State Fault Refusal :=
  condOp s a b compareCond

/-- scmpi: a 6-bit signed constant. -/
def execScmpi (a : Fin 64) (i : BitVec 6) (s : State) : Host.Outcome State Fault Refusal :=
  runInstr s [opS 18 a] fun c => c.done { c.g with ucond := compareCond (c.g.s a) (i.signExtend 64) }

/-- stest. -/
def execStest (a b : Fin 64) (s : State) : Host.Outcome State Fault Refusal :=
  condOp s a b testCond

/-! ## Predicates (R306) -/

/-- pand. -/
def execPand (d a b : Fin 8) (s : State) : Host.Outcome State Fault Refusal :=
  predOp s d a b (· &&& ·)

/-- por. -/
def execPor (d a b : Fin 8) (s : State) : Host.Outcome State Fault Refusal :=
  predOp s d a b (· ||| ·)

/-- pxor. -/
def execPxor (d a b : Fin 8) (s : State) : Host.Outcome State Fault Refusal :=
  predOp s d a b (· ^^^ ·)

/-- pandn. -/
def execPandn (d a b : Fin 8) (s : State) : Host.Outcome State Fault Refusal :=
  predOp s d a b (fun x y => x &&& ~~~y)

/-- pnot. -/
def execPnot (d a : Fin 8) (s : State) : Host.Outcome State Fault Refusal :=
  runInstr s [opPd 11 d, opP 18 a] fun c => c.done (c.g.setP d c.mask (~~~(c.g.p a)))

/-- pset. -/
def execPset (d : Fin 8) (s : State) : Host.Outcome State Fault Refusal :=
  runInstr s [opPd 11 d] fun c => c.done (c.g.setP d c.mask (BitVec.allOnes 256))

/-- pclr. -/
def execPclr (d : Fin 8) (s : State) : Host.Outcome State Fault Refusal :=
  runInstr s [opPd 11 d] fun c => c.done (c.g.setP d c.mask 0)

/-- ppopc: the active elements whose bit is 1. -/
def execPpopc (d : Fin 64) (a : Fin 8) (s : State) : Host.Outcome State Fault Refusal :=
  runInstr s [opS 11 d, opP 18 a] fun c => c.done (c.g.setS d (BitVec.ofNat 64 (popCount (c.g.p a &&& c.mask))))

/-! ## Select and moves between classes (R307, R308) -/

/-- vsel: the predicate is named by the minor field, field 7. -/
def execVsel (n : Fin 8) (d a b : Fin 128) (s : State) : Host.Outcome State Fault Refusal :=
  runInstr s [opP 7 n, opVd 11 d, opV 18 a, opV 25 b] fun c =>
    c.done (c.g.setV d c.mask (fun e => if (c.g.p n).getLsbD e then c.g.v a e else c.g.v b e))

/-- vmov. -/
def execVmov (d a : Fin 128) (s : State) : Host.Outcome State Fault Refusal :=
  runInstr s [opVd 11 d, opV 18 a] fun c => c.done (c.g.setV d c.mask (fun e => c.g.v a e))

/-- vbcast. -/
def execVbcast (d : Fin 128) (a : Fin 64) (s : State) : Host.Outcome State Fault Refusal :=
  runInstr s [opVd 11 d, opS 18 a] fun c => c.done (c.g.setV d c.mask (fun _ => (c.g.s a).setWidth 32))

/-- pmov. -/
def execPmov (d a : Fin 8) (s : State) : Host.Outcome State Fault Refusal :=
  runInstr s [opPd 11 d, opP 18 a] fun c => c.done (c.g.setP d c.mask (c.g.p a))

/-- pext: word q, once per issue. -/
def execPext (d : Fin 64) (a : Fin 8) (q : Fin 4) (s : State) : Host.Outcome State Fault Refusal :=
  runInstr s [opS 11 d, opP 18 a] fun c => c.done (c.g.setS d ((c.g.p a >>> (64 * q.val)).setWidth 64))

/-- pins: the active elements of word q. -/
def execPins (d : Fin 8) (a : Fin 64) (q : Fin 4) (s : State) : Host.Outcome State Fault Refusal :=
  runInstr s [opPd 11 d, opS 18 a] fun c =>
    c.done (c.g.setP d (c.mask &&& ((BitVec.allOnes 64).setWidth 256 <<< (64 * q.val)))
      ((c.g.s a).setWidth 256 <<< (64 * q.val)))

/-- vmovp. -/
def execVmovp (d : Fin 128) (a : Fin 8) (s : State) : Host.Outcome State Fault Refusal :=
  runInstr s [opVd 11 d, opP 18 a] fun c =>
    c.done (c.g.setV d c.mask (fun e => if (c.g.p a).getLsbD e then 1 else 0))

/-- pmovv. -/
def execPmovv (d : Fin 8) (a : Fin 128) (s : State) : Host.Outcome State Fault Refusal :=
  runInstr s [opPd 11 d, opV 18 a] fun c =>
    c.done (c.g.setP d c.mask (maskWhere c.g.width (fun e => c.g.v a e != 0)))

/-! ## Compact forms (R60, R309) -/

/-- VaddI32, compact. -/
def execVaddI32Compact (d : Fin 64) (x : Fin 32) (s : State) : Host.Outcome State Fault Refusal :=
  compactOp s d x (· + ·)

/-- VsubI32, compact. -/
def execVsubI32Compact (d : Fin 64) (x : Fin 32) (s : State) : Host.Outcome State Fault Refusal :=
  compactOp s d x (· - ·)

/-- VmulI32, compact. -/
def execVmulI32Compact (d : Fin 64) (x : Fin 32) (s : State) : Host.Outcome State Fault Refusal :=
  compactOp s d x (· * ·)

/-- Vand, compact. -/
def execVandCompact (d : Fin 64) (x : Fin 32) (s : State) : Host.Outcome State Fault Refusal :=
  compactOp s d x (· &&& ·)

/-- Vor, compact. -/
def execVorCompact (d : Fin 64) (x : Fin 32) (s : State) : Host.Outcome State Fault Refusal :=
  compactOp s d x (· ||| ·)

/-- Vxor, compact. -/
def execVxorCompact (d : Fin 64) (x : Fin 32) (s : State) : Host.Outcome State Fault Refusal :=
  compactOp s d x (· ^^^ ·)

/-- Vshl, compact. -/
def execVshlCompact (d : Fin 64) (x : Fin 32) (s : State) : Host.Outcome State Fault Refusal :=
  compactOp s d x shl32

/-- Vshr, compact. -/
def execVshrCompact (d : Fin 64) (x : Fin 32) (s : State) : Host.Outcome State Fault Refusal :=
  compactOp s d x shr32

/-- Vsar, compact. -/
def execVsarCompact (d : Fin 64) (x : Fin 32) (s : State) : Host.Outcome State Fault Refusal :=
  compactOp s d x sar32

/-- vmov, compact. -/
def execVmovCompact (d : Fin 64) (x : Fin 32) (s : State) : Host.Outcome State Fault Refusal :=
  runInstr s [opVd 5 d, opV 11 x] fun c => c.done (c.g.setV d c.mask (fun e => c.g.v x e))

/-- vnot, compact. -/
def execVnotCompact (d : Fin 64) (x : Fin 32) (s : State) : Host.Outcome State Fault Refusal :=
  runInstr s [opVd 5 d, opV 11 x] fun c => c.done (c.g.setV d c.mask (fun e => ~~~(c.g.v x e)))

end Sys2Proof.Machine
end

