-- ==== Sys2Proof/Machine/Float.lean ====
section
/-! DEFINITION. Floating-point and lane instructions (spec file 13): majors 0x08 to 0x0F and the compact forms of R316.
Instructions of the special-function and conversion queues (R311, R312) read their operands at issue and write them
when their entry completes. -/

namespace Sys2Proof.Machine

/-! ## Results with flags -/

/-- vd := f(e) in each active element, the flags of the active elements ORed into FLAGS (R37, R313). -/
def Iss.floatResult (c : Iss) (d : Nat) (f : Nat → Nat × Flags) : Eff :=
  c.done ((c.g.setV d c.mask (fun e => BitVec.ofNat 32 (f e).1)).orFlags (orAll (c.elems.map (fun e => (f e).2))))

/-- The same for a pair. -/
def Iss.floatResult64 (c : Iss) (d : Nat) (f : Nat → Nat × Flags) : Eff :=
  c.done ((c.g.setV64 d c.mask (fun e => BitVec.ofNat 64 (f e).1)).orFlags (orAll (c.elems.map (fun e => (f e).2))))

/-- vd := f(va, second source) in f32 (R315). -/
def f32Op (s : State) (d a : Nat) (b : VSrc) (f : Nat → Nat → Nat × Flags) : Host.Outcome State Fault Refusal :=
  runInstr s [opVd 11 d, opV 18 a, opSrc b false] fun c =>
    c.floatResult d (fun e => f (c.g.v a e).toNat (c.g.src32 b e).toNat)

/-- vd := f(va, second source) in f64 (R315). -/
def f64Op (s : State) (d a : Nat) (b : VSrc) (f : Nat → Nat → Nat × Flags) : Host.Outcome State Fault Refusal :=
  runInstr s [opWd 11 d, opW 18 a, opSrc b true] fun c =>
    c.floatResult64 d (fun e => f (c.g.v64 a e).toNat (c.g.src64 b e).toNat)

/-- A 32-bit result from two 16-bit halves (R317). -/
def halves (lo hi : Nat × Flags) : Nat × Flags := (lo.1 + 65536 * hi.1, lo.2 ||| hi.2)

/-- The format of an h2 instruction (R317). -/
def h2Fmt (t : Fin 2) : Fmt := if t == 0 then fmtBf16 else fmtF16

/-- vd := f on both halves of va, the second source and the old vd (R317). -/
def h2Op (s : State) (d a : Nat) (b : VSrc) (f : Nat → Nat → Nat → Nat × Flags) : Host.Outcome State Fault Refusal :=
  runInstr s [opVd 11 d, opV 18 a, opSrc b false] fun c =>
    c.floatResult d (fun e =>
      let x := (c.g.v a e).toNat
      let y := (c.g.src32 b e).toNat
      let z := (c.g.v d e).toNat
      halves (f (x % 65536) (y % 65536) (z % 65536)) (f (x / 65536) (y / 65536) (z / 65536)))

/-- Bit e of pd := relation in f32 (R318). -/
def fcmp32 (s : State) (p a : Nat) (b : VSrc) (r : Fin 4) : Host.Outcome State Fault Refusal :=
  runInstr s [opPd 11 p, opV 18 a, opSrc b false] fun c =>
    c.done (c.g.setP p c.mask (maskWhere c.g.width (fun e => fCompare fmtF32 r (c.g.v a e).toNat (c.g.src32 b e).toNat)))

/-- Bit e of pd := relation in f64 (R318). -/
def fcmp64 (s : State) (p a : Nat) (b : VSrc) (r : Fin 4) : Host.Outcome State Fault Refusal :=
  runInstr s [opPd 11 p, opW 18 a, opSrc b true] fun c =>
    c.done (c.g.setP p c.mask (maskWhere c.g.width (fun e => fCompare fmtF64 r (c.g.v64 a e).toNat (c.g.src64 b e).toNat)))

/-- vd := ±(va × vb) + vd in f32 (R319). -/
def fma32 (s : State) (r : Fin 4) (d a b : Nat) (neg : Bool) : Host.Outcome State Fault Refusal :=
  runInstr s [opVd 11 d, opV 18 a, opV 25 b] fun c =>
    c.floatResult d (fun e => fFma fmtF32 r neg (c.g.v a e).toNat (c.g.v b e).toNat (c.g.v d e).toNat)

/-- vd := ±(va × vb) + vd in f64 (R319). -/
def fma64 (s : State) (r : Fin 4) (d a b : Nat) (neg : Bool) : Host.Outcome State Fault Refusal :=
  runInstr s [opWd 11 d, opW 18 a, opW 25 b] fun c =>
    c.floatResult64 d (fun e => fFma fmtF64 r neg (c.g.v64 a e).toNat (c.g.v64 b e).toNat (c.g.v64 d e).toNat)

/-- vd := f(vd, vs), compact form (R316). -/
def f32Compact (s : State) (d a : Nat) (f : Nat → Nat → Nat × Flags) : Host.Outcome State Fault Refusal :=
  runInstr s [opVd 5 d, opV 11 a] fun c => c.floatResult d (fun e => f (c.g.v d e).toNat (c.g.v a e).toNat)

/-! ## The two queues (R312) -/

/-- An entry of the issuing group: the value of every active element, the flags of all of them. -/
def Iss.qentry (c : Iss) (d : Nat) (pair : Bool) (mask : Mask) (f : Nat → Nat × Flags) : QEntry :=
  let rs := (List.range c.g.width).map (fun e => if mask.getLsbD e then f e else (0, 0))
  { core := c.g.core, slot := c.g.slot, dst := d, pair := pair, mask := mask, values := rs.map (·.1),
    flags := orAll (rs.map (·.2)) }

/-- The entries of a core. -/
def coreEntries (q : List QEntry) (core : Nat) : Nat := (q.filter (fun e => e.core == core)).length

/-- An entry taken in the special-function queue; 32 entries of the core fill it. -/
def Iss.sfqIssue (c : Iss) (d : Nat) (pair : Bool) (f : Nat → Nat × Flags) : Eff :=
  if 32 ≤ coreEntries c.st.eng.sfq c.g.core then .stall
  else c.doneIn { c.st with eng := { c.st.eng with sfq := c.st.eng.sfq ++ [c.qentry d pair c.mask f] } } c.g

/-- An entry taken in the conversion queue. -/
def Iss.cvtqIssue (c : Iss) (d : Nat) (pair : Bool) (f : Nat → Nat × Flags) : Eff :=
  if 32 ≤ coreEntries c.st.eng.cvtq c.g.core then .stall
  else c.doneIn { c.st with eng := { c.st.eng with cvtq := c.st.eng.cvtq ++ [c.qentry d pair c.mask f] } } c.g

/-- An entry's results written (R312). -/
def Group.writeEntry (g : Group) (q : QEntry) : Group :=
  (if q.pair then g.setV64 q.dst q.mask (fun e => BitVec.ofNat 64 (q.values.getD e 0))
   else g.setV q.dst q.mask (fun e => BitVec.ofNat 32 (q.values.getD e 0))).orFlags q.flags

/-- The oldest entry of a core in a queue, and the queue without it. -/
def popEntry (core : Nat) : List QEntry → Option (QEntry × List QEntry)
  | [] => none
  | q :: qs => if q.core == core then some (q, qs) else (popEntry core qs).map (fun r => (r.1, q :: r.2))

/-- An entry completes: its group, if it still exists, takes the results. -/
def State.completeEntry (s : State) (q : QEntry) : State :=
  match s.group? q.core q.slot with
  | none => s
  | some g => s.putGroup (g.writeEntry q)

/-- A unary f32 special function (R323). -/
def sf32 (s : State) (d a : Nat) (f : Nat → Nat × Flags) : Host.Outcome State Fault Refusal :=
  runInstr s [opVd 11 d, opV 18 a] fun c => c.sfqIssue d false (fun e => f (c.g.v a e).toNat)

/-- A unary f64 special function (R323). -/
def sf64 (s : State) (d a : Nat) (f : Nat → Nat × Flags) : Host.Outcome State Fault Refusal :=
  runInstr s [opWd 11 d, opW 18 a] fun c => c.sfqIssue d true (fun e => f (c.g.v64 a e).toNat)

/-! ## Lanes and members (R327 to R331) -/

/-- vd := va of element src(e), every read before the writes (R327). -/
def Iss.shuffle (c : Iss) (d a : Nat) (src : Nat → Nat) : Eff :=
  c.done (c.g.setV d c.mask (fun e => c.g.v a (src e)))

/-- A shuffle within a member by the lane distance of a uniform register. -/
def shuffleBy (s : State) (d a b : Nat) (src : Nat → Nat → Nat) : Host.Outcome State Fault Refusal :=
  runInstr s [opVd 11 d, opV 18 a, opS 25 b] fun c =>
    c.shuffle d a (fun e => src ((c.g.s b).toNat % 32) e)

/-- The elements of S(l): the active elements of a lane (R329). -/
def Iss.laneSet (c : Iss) (lane : Nat) : List Nat := c.elems.filter (fun e => e % 32 == lane)

/-- A statistic of each lane in f32. -/
def stat32 (s : State) (d a : Nat) (f : List Nat → Nat × Flags) : Host.Outcome State Fault Refusal :=
  runInstr s [opVd 11 d, opV 18 a] fun c =>
    c.sfqIssue d false (fun e => f ((c.laneSet (e % 32)).map (fun i => (c.g.v a i).toNat)))

/-- A statistic of each lane in f64. -/
def stat64 (s : State) (d a : Nat) (f : List Nat → Nat × Flags) : Host.Outcome State Fault Refusal :=
  runInstr s [opWd 11 d, opW 18 a] fun c =>
    c.sfqIssue d true (fun e => f ((c.laneSet (e % 32)).map (fun i => (c.g.v64 a i).toNat)))

/-- A result without flags. -/
def plain (x : Nat) : Nat × Flags := (x, 0)

/-! ## Binary arithmetic (R315) -/

/-- fadd.f32. -/
def execFaddF32 (d a : Fin 128) (b : VSrc) (s : State) : Host.Outcome State Fault Refusal :=
  f32Op s d a b (fAdd fmtF32)

/-- fsub.f32. -/
def execFsubF32 (d a : Fin 128) (b : VSrc) (s : State) : Host.Outcome State Fault Refusal :=
  f32Op s d a b (fSub fmtF32)

/-- fmul.f32. -/
def execFmulF32 (d a : Fin 128) (b : VSrc) (s : State) : Host.Outcome State Fault Refusal :=
  f32Op s d a b (fMul fmtF32)

/-- fmin.f32. -/
def execFminF32 (d a : Fin 128) (b : VSrc) (s : State) : Host.Outcome State Fault Refusal :=
  f32Op s d a b (fun x y => plain (fMinMax fmtF32 false false x y))

/-- fmax.f32. -/
def execFmaxF32 (d a : Fin 128) (b : VSrc) (s : State) : Host.Outcome State Fault Refusal :=
  f32Op s d a b (fun x y => plain (fMinMax fmtF32 true false x y))

/-- fmin.nan.f32. -/
def execFminNanF32 (d a : Fin 128) (b : VSrc) (s : State) : Host.Outcome State Fault Refusal :=
  f32Op s d a b (fun x y => plain (fMinMax fmtF32 false true x y))

/-- fmax.nan.f32. -/
def execFmaxNanF32 (d a : Fin 128) (b : VSrc) (s : State) : Host.Outcome State Fault Refusal :=
  f32Op s d a b (fun x y => plain (fMinMax fmtF32 true true x y))

/-- fcpsgn.f32. -/
def execFcpsgnF32 (d a : Fin 128) (b : VSrc) (s : State) : Host.Outcome State Fault Refusal :=
  f32Op s d a b (fun x y => plain (fCopySign fmtF32 x y))

/-- fadd.f64. -/
def execFaddF64 (d a : Fin 128) (b : VSrc) (s : State) : Host.Outcome State Fault Refusal :=
  f64Op s d a b (fAdd fmtF64)

/-- fsub.f64. -/
def execFsubF64 (d a : Fin 128) (b : VSrc) (s : State) : Host.Outcome State Fault Refusal :=
  f64Op s d a b (fSub fmtF64)

/-- fmul.f64. -/
def execFmulF64 (d a : Fin 128) (b : VSrc) (s : State) : Host.Outcome State Fault Refusal :=
  f64Op s d a b (fMul fmtF64)

/-- fmin.f64. -/
def execFminF64 (d a : Fin 128) (b : VSrc) (s : State) : Host.Outcome State Fault Refusal :=
  f64Op s d a b (fun x y => plain (fMinMax fmtF64 false false x y))

/-- fmax.f64. -/
def execFmaxF64 (d a : Fin 128) (b : VSrc) (s : State) : Host.Outcome State Fault Refusal :=
  f64Op s d a b (fun x y => plain (fMinMax fmtF64 true false x y))

/-- fmin.nan.f64. -/
def execFminNanF64 (d a : Fin 128) (b : VSrc) (s : State) : Host.Outcome State Fault Refusal :=
  f64Op s d a b (fun x y => plain (fMinMax fmtF64 false true x y))

/-- fmax.nan.f64. -/
def execFmaxNanF64 (d a : Fin 128) (b : VSrc) (s : State) : Host.Outcome State Fault Refusal :=
  f64Op s d a b (fun x y => plain (fMinMax fmtF64 true true x y))

/-- fcpsgn.f64. -/
def execFcpsgnF64 (d a : Fin 128) (b : VSrc) (s : State) : Host.Outcome State Fault Refusal :=
  f64Op s d a b (fun x y => plain (fCopySign fmtF64 x y))

/-! ## Packed halves (R317) -/

/-- fadd.bf16.h2 and fadd.f16.h2. -/
def execFaddH2 (t : Fin 2) (d a : Fin 128) (b : VSrc) (s : State) : Host.Outcome State Fault Refusal :=
  h2Op s d a b (fun x y _ => fAdd (h2Fmt t) x y)

/-- fsub.bf16.h2 and fsub.f16.h2. -/
def execFsubH2 (t : Fin 2) (d a : Fin 128) (b : VSrc) (s : State) : Host.Outcome State Fault Refusal :=
  h2Op s d a b (fun x y _ => fSub (h2Fmt t) x y)

/-- fmul.bf16.h2 and fmul.f16.h2. -/
def execFmulH2 (t : Fin 2) (d a : Fin 128) (b : VSrc) (s : State) : Host.Outcome State Fault Refusal :=
  h2Op s d a b (fun x y _ => fMul (h2Fmt t) x y)

/-- fma.bf16.h2 and fma.f16.h2. -/
def execFmaH2 (t : Fin 2) (d a : Fin 128) (b : VSrc) (s : State) : Host.Outcome State Fault Refusal :=
  h2Op s d a b (fun x y z => fFma (h2Fmt t) 0 false x y z)

/-! ## Compares (R318) -/

/-- fcmp.eq.f32. -/
def execFcmpEqF32 (p : Fin 8) (a : Fin 128) (b : VSrc) (s : State) : Host.Outcome State Fault Refusal :=
  fcmp32 s p a b 0

/-- fcmp.lt.f32. -/
def execFcmpLtF32 (p : Fin 8) (a : Fin 128) (b : VSrc) (s : State) : Host.Outcome State Fault Refusal :=
  fcmp32 s p a b 1

/-- fcmp.le.f32. -/
def execFcmpLeF32 (p : Fin 8) (a : Fin 128) (b : VSrc) (s : State) : Host.Outcome State Fault Refusal :=
  fcmp32 s p a b 2

/-- fcmp.un.f32. -/
def execFcmpUnF32 (p : Fin 8) (a : Fin 128) (b : VSrc) (s : State) : Host.Outcome State Fault Refusal :=
  fcmp32 s p a b 3

/-- fcmp.eq.f64. -/
def execFcmpEqF64 (p : Fin 8) (a : Fin 128) (b : VSrc) (s : State) : Host.Outcome State Fault Refusal :=
  fcmp64 s p a b 0

/-- fcmp.lt.f64. -/
def execFcmpLtF64 (p : Fin 8) (a : Fin 128) (b : VSrc) (s : State) : Host.Outcome State Fault Refusal :=
  fcmp64 s p a b 1

/-- fcmp.le.f64. -/
def execFcmpLeF64 (p : Fin 8) (a : Fin 128) (b : VSrc) (s : State) : Host.Outcome State Fault Refusal :=
  fcmp64 s p a b 2

/-- fcmp.un.f64. -/
def execFcmpUnF64 (p : Fin 8) (a : Fin 128) (b : VSrc) (s : State) : Host.Outcome State Fault Refusal :=
  fcmp64 s p a b 3

/-! ## Fused multiply-add (R319) -/

/-- fma.f32. -/
def execFmaF32 (r : Fin 4) (d a b : Fin 128) (s : State) : Host.Outcome State Fault Refusal :=
  fma32 s r d a b false

/-- fnma.f32. -/
def execFnmaF32 (r : Fin 4) (d a b : Fin 128) (s : State) : Host.Outcome State Fault Refusal :=
  fma32 s r d a b true

/-- fma.f64. -/
def execFmaF64 (r : Fin 4) (d a b : Fin 128) (s : State) : Host.Outcome State Fault Refusal :=
  fma64 s r d a b false

/-- fnma.f64. -/
def execFnmaF64 (r : Fin 4) (d a b : Fin 128) (s : State) : Host.Outcome State Fault Refusal :=
  fma64 s r d a b true

/-! ## Conversion (R320 to R322) -/

/-- Whether a type code names a 64-bit type. -/
def wideType (t : Nat) : Bool := t == 6 || t == 7 || t == 9

/-- A vector operand of a type: a pair for a 64-bit type. -/
def opTyped (field idx t : Nat) (dst : Bool) : Opnd :=
  { field := field, cls := .vec, idx := idx, pair := wideType t, dst := dst }

/-- The source code that cvt reads from an element. -/
def Group.typed (g : Group) (r t e : Nat) : Nat := if wideType t then (g.v64 r e).toNat else (g.v r e).toNat

/-- cvt. -/
def execCvt (r : Fin 4) (d a : Fin 128) (x t : Fin 16) (s : State) : Host.Outcome State Fault Refusal :=
  runInstr s [opTyped 11 d t true, opTyped 18 a x false] fun c =>
    c.cvtqIssue d (wideType t) (fun e => convert (numTy x) (numTy t) r (c.g.typed a x e))

/-! ## Special functions (R323, R324) -/

/-- frcp.f32. -/
def execFrcpF32 (d a : Fin 128) (s : State) : Host.Outcome State Fault Refusal :=
  sf32 s d a (fRcp fmtF32)

/-- frsqrt.f32. -/
def execFrsqrtF32 (d a : Fin 128) (s : State) : Host.Outcome State Fault Refusal :=
  sf32 s d a (fRsqrt fmtF32)

/-- fsqrt.f32. -/
def execFsqrtF32 (d a : Fin 128) (s : State) : Host.Outcome State Fault Refusal :=
  sf32 s d a (fSqrt fmtF32)

/-- fexp2.f32. -/
def execFexp2F32 (d a : Fin 128) (s : State) : Host.Outcome State Fault Refusal :=
  sf32 s d a (fExp2 fmtF32)

/-- flog2.f32. -/
def execFlog2F32 (d a : Fin 128) (s : State) : Host.Outcome State Fault Refusal :=
  sf32 s d a (fLog2 fmtF32)

/-- fsin.f32. -/
def execFsinF32 (d a : Fin 128) (s : State) : Host.Outcome State Fault Refusal :=
  sf32 s d a (fTrig fmtF32 false)

/-- fcos.f32. -/
def execFcosF32 (d a : Fin 128) (s : State) : Host.Outcome State Fault Refusal :=
  sf32 s d a (fTrig fmtF32 true)

/-- ftanh.f32. -/
def execFtanhF32 (d a : Fin 128) (s : State) : Host.Outcome State Fault Refusal :=
  sf32 s d a (fTanh fmtF32)

/-- fsqrt.f64. -/
def execFsqrtF64 (d a : Fin 128) (s : State) : Host.Outcome State Fault Refusal :=
  sf64 s d a (fSqrt fmtF64)

/-- frcp.f64. -/
def execFrcpF64 (d a : Fin 128) (s : State) : Host.Outcome State Fault Refusal :=
  sf64 s d a (fRcp fmtF64)

/-- fdiv.f32. -/
def execFdivF32 (d a b : Fin 128) (s : State) : Host.Outcome State Fault Refusal :=
  runInstr s [opVd 11 d, opV 18 a, opV 25 b] fun c =>
    c.sfqIssue d false (fun e => fDiv fmtF32 (c.g.v a e).toNat (c.g.v b e).toNat)

/-- fdiv.f64. -/
def execFdivF64 (d a b : Fin 128) (s : State) : Host.Outcome State Fault Refusal :=
  runInstr s [opWd 11 d, opW 18 a, opW 25 b] fun c =>
    c.sfqIssue d true (fun e => fDiv fmtF64 (c.g.v64 a e).toNat (c.g.v64 b e).toNat)

/-! ## Classification and rounding to integral (R325, R326), in the slot's turn -/

/-- fclass.f32. -/
def execFclassF32 (d a : Fin 128) (s : State) : Host.Outcome State Fault Refusal :=
  runInstr s [opVd 11 d, opV 18 a] fun c => c.floatResult d (fun e => plain (fClass fmtF32 (c.g.v a e).toNat))

/-- fclass.f64: vd is a single register. -/
def execFclassF64 (d a : Fin 128) (s : State) : Host.Outcome State Fault Refusal :=
  runInstr s [opVd 11 d, opW 18 a] fun c => c.floatResult d (fun e => plain (fClass fmtF64 (c.g.v64 a e).toNat))

/-- fround.f32. -/
def execFroundF32 (d a : Fin 128) (r : Fin 4) (s : State) : Host.Outcome State Fault Refusal :=
  runInstr s [opVd 11 d, opV 18 a] fun c => c.floatResult d (fun e => plain (fRound fmtF32 r (c.g.v a e).toNat))

/-- fround.f64. -/
def execFroundF64 (d a : Fin 128) (r : Fin 4) (s : State) : Host.Outcome State Fault Refusal :=
  runInstr s [opWd 11 d, opW 18 a] fun c => c.floatResult64 d (fun e => plain (fRound fmtF64 r (c.g.v64 a e).toNat))

/-! ## Lane and member movement (R327) -/

/-- shfl.idx: the lane of the element's own index. -/
def execShflIdx (d a b : Fin 128) (s : State) : Host.Outcome State Fault Refusal :=
  runInstr s [opVd 11 d, opV 18 a, opV 25 b] fun c =>
    c.shuffle d a (fun e => e / 32 * 32 + (c.g.v b e).toNat % 32)

/-- shfl.up. -/
def execShflUp (d a : Fin 128) (b : Fin 64) (s : State) : Host.Outcome State Fault Refusal :=
  shuffleBy s d a b (fun k e => if k ≤ e % 32 then e - k else e)

/-- shfl.down. -/
def execShflDown (d a : Fin 128) (b : Fin 64) (s : State) : Host.Outcome State Fault Refusal :=
  shuffleBy s d a b (fun k e => if e % 32 + k ≤ 31 then e + k else e)

/-- shfl.xor. -/
def execShflXor (d a : Fin 128) (b : Fin 64) (s : State) : Host.Outcome State Fault Refusal :=
  shuffleBy s d a b (fun k e => e / 32 * 32 + (e % 32 ^^^ k))

/-- mshfl: the member of the element's own index, 0 for a member at or above M. -/
def execMshfl (d a b : Fin 128) (s : State) : Host.Outcome State Fault Refusal :=
  runInstr s [opVd 11 d, opV 18 a, opV 25 b] fun c =>
    c.done (c.g.setV d c.mask (fun e =>
      let k := (c.g.v b e).toNat % 8
      if c.g.members ≤ k then 0 else c.g.v a (32 * k + e % 32)))

/-- vmovs: once per issue; an element index at or above 32 × M raises ILLEGAL_OPERAND, field 25. -/
def execVmovs (d : Fin 64) (a : Fin 128) (b : Fin 64) (s : State) : Host.Outcome State Fault Refusal :=
  runInstr s [opS 11 d, opV 18 a, opS 25 b] fun c =>
    let e := (c.g.s b).toNat % 256
    if 32 * c.g.members ≤ e then c.illegalOperand 25 else c.done (c.g.setS d ((c.g.v a e).setWidth 64))

/-- vlane. -/
def execVlane (d a : Fin 128) (b : Fin 64) (s : State) : Host.Outcome State Fault Refusal :=
  shuffleBy s d a b (fun k e => e / 32 * 32 + k)

/-! ## Member statistics (R328 to R331) -/

/-- mstat.mean.f32. -/
def execMstatMeanF32 (d a : Fin 128) (s : State) : Host.Outcome State Fault Refusal :=
  stat32 s d a (statMean fmtF32)

/-- mstat.var.f32. -/
def execMstatVarF32 (d a : Fin 128) (s : State) : Host.Outcome State Fault Refusal :=
  stat32 s d a (statVar fmtF32)

/-- mstat.mean.f64. -/
def execMstatMeanF64 (d a : Fin 128) (s : State) : Host.Outcome State Fault Refusal :=
  stat64 s d a (statMean fmtF64)

/-- mstat.var.f64. -/
def execMstatVarF64 (d a : Fin 128) (s : State) : Host.Outcome State Fault Refusal :=
  stat64 s d a (statVar fmtF64)

/-- mstat.quant. -/
def execMstatQuantF32 (d a : Fin 128) (b : Fin 64) (s : State) : Host.Outcome State Fault Refusal :=
  runInstr s [opVd 11 d, opV 18 a, opS 25 b] fun c =>
    c.sfqIssue d false (fun e =>
      plain (statQuant fmtF32 ((c.g.s b).toNat % 8) ((c.laneSet (e % 32)).map (fun i => (c.g.v a i).toNat))))

/-- mstat.rank. -/
def execMstatRankF32 (d a b : Fin 128) (s : State) : Host.Outcome State Fault Refusal :=
  runInstr s [opVd 11 d, opV 18 a, opV 25 b] fun c =>
    c.sfqIssue d false (fun e =>
      plain (statRank fmtF32 (c.g.v b e).toNat ((c.laneSet (e % 32)).map (fun i => (c.g.v a i).toNat))))

/-- mstat.min. -/
def execMstatMinF32 (d a : Fin 128) (s : State) : Host.Outcome State Fault Refusal :=
  stat32 s d a (fun xs => plain (statMinMax fmtF32 false xs))

/-- mstat.max. -/
def execMstatMaxF32 (d a : Fin 128) (s : State) : Host.Outcome State Fault Refusal :=
  stat32 s d a (fun xs => plain (statMinMax fmtF32 true xs))

/-! ## Compact forms (R316) -/

/-- fadd.f32, compact. -/
def execFaddF32Compact (d : Fin 64) (x : Fin 32) (s : State) : Host.Outcome State Fault Refusal :=
  f32Compact s d x (fAdd fmtF32)

/-- fsub.f32, compact. -/
def execFsubF32Compact (d : Fin 64) (x : Fin 32) (s : State) : Host.Outcome State Fault Refusal :=
  f32Compact s d x (fSub fmtF32)

/-- fmul.f32, compact. -/
def execFmulF32Compact (d : Fin 64) (x : Fin 32) (s : State) : Host.Outcome State Fault Refusal :=
  f32Compact s d x (fMul fmtF32)

/-- fmax.f32, compact. -/
def execFmaxF32Compact (d : Fin 64) (x : Fin 32) (s : State) : Host.Outcome State Fault Refusal :=
  f32Compact s d x (fun x y => plain (fMinMax fmtF32 true false x y))

/-- fmin.f32, compact. -/
def execFminF32Compact (d : Fin 64) (x : Fin 32) (s : State) : Host.Outcome State Fault Refusal :=
  f32Compact s d x (fun x y => plain (fMinMax fmtF32 false false x y))

/-! ## Queue completion -/

/-- SFQ_ENTRY_COMPLETE: the oldest entry of a core's special-function queue completes (R312). -/
def execSfqEntryComplete (core : Nat) (s : State) : Host.Outcome State Fault Refusal :=
  eventOf s "SFQ_ENTRY_COMPLETE" (popEntry core s.eng.sfq) fun x =>
    ({ s with eng := { s.eng with sfq := x.2 } } : State).completeEntry x.1

/-- CVTQ_ENTRY_COMPLETE: the oldest entry of a core's conversion queue completes (R312). -/
def execCvtqEntryComplete (core : Nat) (s : State) : Host.Outcome State Fault Refusal :=
  eventOf s "CVTQ_ENTRY_COMPLETE" (popEntry core s.eng.cvtq) fun x =>
    ({ s with eng := { s.eng with cvtq := x.2 } } : State).completeEntry x.1

end Sys2Proof.Machine
end

