-- ==== Sys2Proof/Machine/Control.lean ====
section
/-! DEFINITION. Control flow, traps and control registers: the branches of R169 to R174 with the divergence of R166,
trap, tret, ginsp and gresume (R180 to R183), mfcr, mtcr, clock and mode (R105 to R111), mkey (R191) and the illegal
encodings of R71. -/

namespace Sys2Proof.Machine

/-! ## Branches (R170 to R174) -/

/-- The target of a branch: halfwords from the branch's own address (R59). -/
def Iss.target {n : Nat} (c : Iss) (o : BitVec n) : Nat := pcPlus c.ps.pc (2 * o.toInt)

/-- The group's slot moved to an address. -/
def Iss.jumpTo (c : Iss) (g : Group) (pc : Nat) : Eff := .done (c.st.putGroup (g.jump c.which pc))

/-- bra. -/
def execBra (o : BitVec 21) (s : State) : Host.Outcome State Fault Refusal :=
  runInstr s [] fun c => c.jumpTo c.g (c.target o)

/-- brc: .any, .all and .none need a predicate register, field 7. -/
def execBrc (k : Fin 16) (o : BitVec 21) (s : State) : Host.Outcome State Fault Refusal :=
  runInstr s (if 9 ≤ k.val then [opP 7 0] else []) fun c =>
    if condTaken k c.g.ucond (c.g.p 0) c.mask then c.jumpTo c.g (c.target o) else c.done c.g

/-- ILLEGAL_CONVERGENCE with a reason of R168. -/
def Iss.convergence (c : Iss) (reason : Nat) : Eff := c.trapRaw causeConvergence reason none

/-- DIVERGENCE_SPILL_FAULT: the depth and the entries needed. -/
def Iss.spillFault (c : Iss) (need : Nat) : Eff :=
  .trap { cause := causeSpill, tinfo0 := c.raw.toNat, tinfo1 := c.g.depth, tinfo2 := need }

/-- The split of diverge(): a JOIN entry, the fall-through in the issuing slot, the taken elements in the other slot or
as a PATH entry. -/
def Group.split (g : Group) (i target meet : Nat) (t f : Mask) : Group :=
  let p := g.pcSlot i
  let o := g.pcSlot (otherSlot i)
  let pos := g.depth + 1
  let g1 := (g.push { kind := .join, addr := meet, mask := p.mask, link := p.frame, cptr := p.cptr }).setPcSlot i
    { p with mask := f, pc := pcPlus p.pc 4, frame := pos }
  if o.live then g1.push { kind := .path, addr := target, mask := t, link := pos, cptr := p.cptr }
  else g1.setPcSlot (otherSlot i) { pc := target, mask := t, frame := pos, cptr := p.cptr, last := o.last }

/-- brd: diverge() of R166. -/
def execBrd (n : Fin 8) (j : Fin 1024) (o : BitVec 11) (s : State) : Host.Outcome State Fault Refusal :=
  runInstr s [opP 7 n] fun c =>
    if c.inHandler then c.convergence 6
    else
      let t := c.mask &&& c.g.p n
      let f := c.mask &&& ~~~(c.g.p n)
      if t == 0 then c.done c.g
      else if f == 0 then c.jumpTo c.g (c.target o)
      else
        let need := if (c.g.pcSlot (otherSlot c.which)).live then 2 else 1
        if 64 < c.g.depth + need then c.spillFault need
        else c.doneStack (c.g.split c.which (c.target o) (pcPlus c.ps.pc (2 * j.val)) t f)

/-- join: arrive() of R166. -/
def execJoin (s : State) : Host.Outcome State Fault Refusal :=
  runInstr s [] fun c =>
    if c.inHandler then c.convergence 6
    else
      match c.g.entry? c.ps.frame with
      | none => c.convergence 2
      | some e =>
        let inner := match c.g.entry? c.ps.cptr with
          | some k => k.link == c.ps.frame
          | none => false
        if e.addr != c.ps.pc || inner then c.convergence 2
        else
          let g := c.g.setPcSlot c.which { PcSlot.empty with last := c.ps.last }
          c.doneStack (Group.settle 64 g c.ps.frame)

/-- call. -/
def execCall (o : BitVec 21) (s : State) : Host.Outcome State Fault Refusal :=
  runInstr s [] fun c =>
    if 64 < c.g.depth + 1 then c.spillFault 1
    else
      let g := c.g.push { kind := .call, addr := pcPlus c.ps.pc 4, mask := 0, link := c.ps.frame, cptr := c.ps.cptr }
      c.doneStack (g.setPcSlot c.which { c.ps with pc := c.target o, cptr := c.g.depth + 1 })

/-- ret. -/
def execRet (s : State) : Host.Outcome State Fault Refusal :=
  runInstr s [] fun c =>
    match c.g.entry? c.ps.cptr with
    | none => c.convergence 3
    | some e =>
      if e.link != c.ps.frame then c.convergence 4
      else
        let g := c.g.setPcSlot c.which { c.ps with pc := e.addr, cptr := e.cptr }
        c.doneStack (g.markDead c.ps.cptr)

/-- ALIGN_FAULT of a computed target (R162). -/
def alignFault (addr : Nat) : Eff := .trap { cause := causeAlign, tinfo0 := addr }

/-- jmpi. -/
def execJmpi (a : Fin 64) (s : State) : Host.Outcome State Fault Refusal :=
  runInstr s [opS 11 a] fun c =>
    let t := (c.g.s a).toNat
    if t % 2 == 1 then alignFault t else c.jumpTo c.g t

/-- loop: the register is s16 to s31. -/
def execLoop (n : Fin 16) (o : BitVec 21) (s : State) : Host.Outcome State Fault Refusal :=
  runInstr s [opS 7 (16 + n.val)] fun c =>
    let x := c.g.s (16 + n.val) - 1
    let g := c.g.setS (16 + n.val) x
    if x != 0 then c.jumpTo g (c.target o) else c.done g

/-- nop. -/
def execNop (s : State) : Host.Outcome State Fault Refusal := runInstr s [] fun c => c.done c.g

/-- An encoding that R69 does not assign: ILLEGAL_INSN with the raw instruction (R71). -/
def execIllegalEncoding (raw : BitVec 32) (s : State) : Host.Outcome State Fault Refusal :=
  runInstr s [] fun _ => .trap { cause := causeIllegalInsn, tinfo0 := raw.toNat }

/-! ## Traps and handlers (R180 to R183) -/

/-- trap #k. -/
def execTrap (k : Fin 64) (s : State) : Host.Outcome State Fault Refusal :=
  runInstr s [] fun c => c.trapRaw causeSoftware k none

/-- tret #k. -/
def execTret (k : Fin 64) (s : State) : Host.Outcome State Fault Refusal :=
  runInstr s [] fun c =>
    let restored := match c.g.hdl with
      | some h => h.restored
      | none => false
    if !c.inHandler || (c.g.st == .phandler && !restored) then c.illegalOperand 7
    else if c.g.trappc.getLsbD 0 then alignFault c.g.trappc.toNat
    else match (if k.val == 0 then c.st.devGate c.g.spill 96 else none) with
      | some s => c.gated s
      | none => .done (c.st.trapReturn c.g (k.val == 0))

/-- The state code of ginsp. -/
def GState.code : GState → Nat
  | .running => 0
  | .wait _ => 1
  | .faultWait _ _ => 2
  | .handler => 3
  | .phandler => 4
  | .held => 5
  | .ended _ => 6

/-- Whether a group has ended. -/
def Group.hasEnded (g : Group) : Bool :=
  match g.st with
  | .ended _ => true
  | .running => false
  | .wait _ => false
  | .faultWait _ _ => false
  | .handler => false
  | .phandler => false
  | .held => false

/-- The status item of ginsp (R182). -/
def Group.status (g : Group) : Nat :=
  if g.hasEnded then 6
  else g.st.code + (if g.pendTrap then 16 else 0) + (if g.slot0.live then 32 else 0) +
    (if g.slot1.live then 64 else 0) + g.depth * 128

/-- What ginsp finds for a selector. -/
inductive GItem where
  | value (x : Word64)
  | unlisted
  | bound (count : Nat)

/-- The item that a selector names of a group that has not ended (R182). `own` is the handler's own group, whose s0 to
s7 read the trap frame. -/
def State.inspect (s : State) (k : KDesc) (g : Group) (own : Bool) (sel elem : Nat) : GItem :=
  let pc := fun (p : PcSlot) => GItem.value (if p.live then BitVec.ofNat 64 p.pc else 0)
  if sel == 0 then .value (BitVec.ofNat 64 g.status)
  else if sel == 1 then .value g.cause
  else if sel == 2 then .value g.trappc
  else if sel == 3 then .value g.tinfo0
  else if sel == 4 then .value g.tinfo1
  else if sel == 5 then .value g.tinfo2
  else if sel == 6 then .value g.tinfo3
  else if sel == 7 then pc g.slot0
  else if sel == 8 then pc g.slot1
  else if 0x10 ≤ sel && sel ≤ 0x13 then .value ((g.slot0.mask >>> (64 * (sel - 0x10))).setWidth 64)
  else if 0x14 ≤ sel && sel ≤ 0x17 then .value ((g.slot1.mask >>> (64 * (sel - 0x14))).setWidth 64)
  else if sel == 0x18 then .value (g.flags.setWidth 64)
  else if sel == 0x19 then .value g.keys
  else if 0x40 ≤ sel && sel ≤ 0x7F then
    let r := sel - 0x40
    if k.count .uni ≤ r then .bound (k.count .uni)
    else if own && r < 8 then .value (BitVec.ofNat 64 (s.devLE (g.spill + 8 * r) 8))
    else .value (g.s r)
  else if 0x100 ≤ sel && sel ≤ 0x17F then
    let r := sel - 0x100
    if 32 * k.m ≤ elem then .unlisted
    else if k.count .vec ≤ r then .bound (k.count .vec)
    else .value ((g.v r elem).setWidth 64)
  else if 0x200 ≤ sel && sel ≤ 0x21F then
    let r := (sel - 0x200) / 4
    if k.count .pred ≤ r then .bound (k.count .pred)
    else .value ((g.p r >>> (64 * ((sel - 0x200) % 4))).setWidth 64)
  else .unlisted

/-- Whether ginsp lists a selector and element; an ENDED group's items read 0 but are selected alike. -/
def GItem.ended : GItem → GItem
  | .value _ => .value 0
  | .unlisted => .unlisted
  | .bound n => .bound n

/-- Whether earlier flag-setting instructions of a group are unfinished: queue entries and xround (R37). -/
def State.flagsOwed (s : State) (g : Group) : Bool := s.queued g || g.meq.any MeOp.writesRegs

/-- Whether an item that ginsp reads is still owed by an earlier operation of its group: a vector register by a load or a queue entry,
FLAGS by an earlier flag-setting instruction (R37, R159, R312). -/
def State.itemOwed (s : State) (g : Group) (sel : Nat) : Bool :=
  (0x100 ≤ sel && sel ≤ 0x17F && (s.pendingRegs g).contains (sel - 0x100)) || (sel == 0x18 && s.flagsOwed g)

/-- What ginsp waits for that reads s0 to s7 of the handler's own group: the trap frame (R228). -/
def State.itemGate (s : State) (g : Group) (own : Bool) (sel : Nat) : Option State :=
  if own && 0x40 ≤ sel && sel ≤ 0x47 then s.devGate g.spill 96 else none

/-- ginsp. -/
def execGinsp (d a b : Fin 64) (s : State) : Host.Outcome State Fault Refusal :=
  runInstr s [opS 12 d, opS 18 a, opS 24 b] fun c =>
    if !c.inHandler then c.illegalOperand 7
    else
      let n := (c.g.s a).toNat
      let sel := (c.g.s b).toNat % 65536
      let elem := (c.g.s b).toNat / 65536 % 256
      if c.u.kd.wgm1 + 1 ≤ n then c.illegalOperand 18
      else
        let t := (c.st.wgGroups c.g.unit c.g.wg).find? (fun h => h.gi == n)
        let gone := match t with
          | none => true
          | some h => h.hasEnded
        let h := t.getD c.g
        let item := c.st.inspect c.u.kd h (n == c.g.gi) sel elem
        match (if gone then (if sel == 0 then GItem.value 6 else item.ended) else item) with
        | .value x =>
          if !gone && c.st.itemOwed h sel then .stall
          else match (if gone then none else c.st.itemGate c.g (n == c.g.gi) sel) with
            | some s => c.gated s
            | none => c.done (c.g.setS d x)
        | .unlisted => c.illegalOperand 24
        | .bound k => c.trapRaw causeRegBound k (some 24)

/-- A HELD group released by gresume: a pending trap keeps it HELD; a new PC ends any wait (R183). -/
def Group.resumeAt (g : Group) (pc : Nat) : Group :=
  if pc == 0 then (if g.pendTrap then g else g.unhold)
  else
    let i := if g.slot0.live then 0 else 1
    { (g.jump i pc) with st := .running, prevSt := .running, blocked := none, regroup := none,
                         lateTrap := if ({ g with st := g.prevSt } : Group).inFaultWait then none else g.lateTrap }

/-- gresume. The slot that continues is the target's one live slot (log 12). -/
def execGresume (a b : Fin 64) (s : State) : Host.Outcome State Fault Refusal :=
  runInstr s [opS 18 a, opS 24 b] fun c =>
    if !c.inHandler then c.illegalOperand 7
    else
      let pc := (c.g.s b).toNat
      match (c.st.wgGroups c.g.unit c.g.wg).find? (fun h => h.gi == (c.g.s a).toNat) with
      | none => c.illegalOperand 18
      | some h =>
        if h.st != .held || h.gi == c.g.gi then c.illegalOperand 18
        else if pc != 0 && ((h.slot0.live && h.slot1.live) || h.pendTrap) then c.illegalOperand 24
        else if pc % 2 == 1 then alignFault pc
        else c.doneIn (c.st.putGroup (h.resumeAt pc)) c.g

/-! ## Control registers (R105 to R111) -/

/-- Whether a context runs in Drydown mode. -/
def State.drydown (s : State) (ctx : Nat) : Bool :=
  match s.ctx? ctx with
  | some c => c.cmode.getLsbD 0
  | none => false

/-- CLOCK (R106): the core's cycles, or in a Drydown context the group's retired instructions. -/
def Iss.clockValue (c : Iss) : Word64 :=
  BitVec.ofNat 64 (if c.st.drydown c.ctx then c.g.retired else c.st.clock (.core c.g.core))

/-- WTSTAT (R235). -/
def Group.wtstat (g : Group) : Nat :=
  let bits := fun (k : WatchState) => ((List.range 16).filter (fun i => (g.watch[i]?.map (·.st)) == some k)).foldl
    (fun acc i => acc + 2 ^ i) 0
  bits .pending + bits .confirmed * 2 ^ 16 + bits .struck * 2 ^ 32 + g.lastp1 % 32 * 2 ^ 48

/-- DETRANK (R107). -/
def Iss.detrank (c : Iss) : Nat :=
  if c.st.drydown c.ctx then
    c.g.slot % 32 + (match c.st.wg? c.g.unit c.g.wg with
      | some w => w.round % 2 ^ 48 * 256
      | none => 0)
  else 0

/-- A control register's value (R74, R105). -/
def Iss.readControl (c : Iss) (r : Nat) : Word64 :=
  if r == 0 then c.g.flags.setWidth 64
  else if r == 1 then c.g.cause
  else if r == 2 then c.g.trappc
  else if r == 3 then c.g.tinfo0
  else if r == 4 then c.g.tinfo1
  else if r == 5 then c.g.tinfo2
  else if r == 6 then c.g.tinfo3
  else if 7 ≤ r && r ≤ 10 then (c.g.slot0.mask >>> (64 * (r - 7))).setWidth 64
  else if 11 ≤ r && r ≤ 14 then (c.g.slot1.mask >>> (64 * (r - 11))).setWidth 64
  else if r == 15 then c.clockValue
  else if r == 16 then BitVec.ofNat 64 c.g.wtstat
  else if r == 17 then c.g.batch
  else if r == 18 then c.g.mmxcnt
  else if r == 19 then BitVec.ofNat 64 c.detrank
  else if r == 20 then c.g.cprog
  else c.g.ucond.setWidth 64

/-- Whether mtcr may write a control register (R105). -/
def controlWritable (r : Nat) (handler : Bool) : Bool :=
  r == 0 || r == 21 || (handler && ((1 ≤ r && r ≤ 6) || r == 18 || r == 20))

/-- A control register written, its reserved bits at zero (R36, R66, R109, R161, R358). -/
def Group.writeControl (g : Group) (r : Nat) (x : Word64) : Group :=
  if r == 0 then { g with flags := x.setWidth 5 }
  else if r == 1 then { g with cause := x }
  else if r == 2 then { g with trappc := x }
  else if r == 3 then { g with tinfo0 := x }
  else if r == 4 then { g with tinfo1 := x }
  else if r == 5 then { g with tinfo2 := x }
  else if r == 6 then { g with tinfo3 := (x.setWidth 26).setWidth 64 }
  else if r == 18 then { g with mmxcnt := x }
  else if r == 20 then { g with cprog := (x.setWidth 32).setWidth 64 }
  else { g with ucond := x.setWidth 3 }

/-- mfcr; FLAGS waits for the earlier flag-setting instructions. -/
def execMfcr (d r : Fin 64) (s : State) : Host.Outcome State Fault Refusal :=
  runInstr s [opS 12 d] fun c =>
    if r.val == 0 && c.st.flagsOwed c.g then .stall else c.done (c.g.setS d (c.readControl r))

/-- mtcr; a register that it may not write raises ILLEGAL_OPERAND, field 12. -/
def execMtcr (r a : Fin 64) (s : State) : Host.Outcome State Fault Refusal :=
  runInstr s [opS 18 a] fun c =>
    if !controlWritable r c.inHandler then c.illegalOperand 12
    else if r.val == 0 && c.st.flagsOwed c.g then .stall
    else c.done (c.g.writeControl r (c.g.s a))

/-- clock: waits until every earlier instruction's register results are written (R110). -/
def execClock (d : Fin 64) (s : State) : Host.Outcome State Fault Refusal :=
  runInstr s [opS 12 d] fun c =>
    if c.st.queued c.g || !c.g.loads.isEmpty || c.g.atoms.any (fun a => !a.red) then .stall
    else c.done (c.g.setS d c.clockValue)

/-- A region's own value of a field, and its effective value down the path (R89). -/
def Context.eff (c : Context) (r bit : Nat) (own : Region → Nat) : Nat :=
  ((c.path r).reverse.foldl (fun (acc : Option Nat) q =>
    match c.region? q with
    | none => acc
    | some x => match acc with
      | none => some (own x)
      | some p => if x.ovr.getLsbD bit then some (min (own x) p) else some p) none).getD 0

/-- mode #0: the context word; mode #1: the region word (R111). -/
def execMode (d k : Fin 64) (s : State) : Host.Outcome State Fault Refusal :=
  runInstr s [opS 12 d] fun c =>
    match c.st.ctx? c.ctx with
    | none => .stall
    | some x =>
      let lvl := match x.region? c.l.region with
        | some r => r.level
        | none => 0
      c.done (c.g.setS d (BitVec.ofNat 64 (
        if k.val == 0 then x.cmode.toNat + x.id * 2 ^ 16 + x.port * 2 ^ 23
        else c.l.region + x.eff c.l.region 0 (·.prio) * 2 ^ 8 + lvl * 2 ^ 11 + x.faultRoot c.l.region * 2 ^ 13)))

/-- mkey: the keys of members 0 to M − 1 (R191). -/
def execMkey (a : Fin 64) (s : State) : Host.Outcome State Fault Refusal :=
  runInstr s [opS 18 a] fun c =>
    c.done { c.g with keys := BitVec.ofNat 64 ((c.g.s a).toNat % 2 ^ (8 * c.g.members)) }

end Sys2Proof.Machine
end

