-- ==== Sys2Proof/Machine/Translate.lean ====
section
/-! DEFINITION. Pages and translation (spec file 08): page table entries, the walk with its caches, member addressing,
the classes of failure, pending fault entries and the fault queue, resolution. -/

namespace Sys2Proof.Machine

/-! ## Page table entries (R195 to R200) -/

/-- Bits [hi:lo] of a word. -/
def field (w : Word64) (lo n : Nat) : Nat := w.toNat / 2 ^ lo % 2 ^ n

/-- log2 of the page size of a SIZE code (R198). -/
def sizeLog (code : Nat) : Nat :=
  [12, 14, 16, 18, 20, 21, 22, 24, 26, 28, 30, 32].getD code 0

/-- The span of one entry of a level, as a power of two. -/
def spanLog (level : Nat) : Nat := 12 + 9 * level

/-- Whether a SIZE code is allowed at a level. -/
def sizeAtLevel (level code : Nat) : Bool :=
  match level with
  | 0 => code ≤ 4
  | 1 => 5 ≤ code && code ≤ 9
  | 2 => code == 10 || code == 11
  | _ => false

/-- Permissions and attributes of a leaf. -/
def Leaf.r (l : Leaf) : Bool := l.w0.getLsbD 2
/-- W. -/
def Leaf.w (l : Leaf) : Bool := l.w0.getLsbD 3
/-- X. -/
def Leaf.x (l : Leaf) : Bool := l.w0.getLsbD 4
/-- CHECKED. -/
def Leaf.checked (l : Leaf) : Bool := l.w0.getLsbD 5
/-- CLASS. -/
def Leaf.cls (l : Leaf) : Nat := field l.w0 6 2
/-- CACHE. -/
def Leaf.cache (l : Leaf) : Bool := l.w0.getLsbD 8
/-- MEMBER. -/
def Leaf.member (l : Leaf) : Bool := l.w0.getLsbD 9
/-- FORMAT. -/
def Leaf.format (l : Leaf) : Bool := l.w0.getLsbD 10
/-- SIZE. -/
def Leaf.size (l : Leaf) : Nat := field l.w0 12 4
/-- The physical address of the page. -/
def Leaf.frame (l : Leaf) : Nat := field l.w0 24 40 * 4096
/-- FMT. -/
def Leaf.fmt (l : Leaf) : Nat := field l.w1 0 4
/-- GEOM. -/
def Leaf.geom (l : Leaf) : Nat := field l.w1 4 1
/-- KEXP. -/
def Leaf.kexp (l : Leaf) : Nat := field l.w1 6 6
/-- TARGET. -/
def Leaf.target (l : Leaf) : Nat := field l.w1 12 8
/-- The scale frame's physical address. -/
def Leaf.sframe (l : Leaf) : Nat := field l.w1 24 40 * 4096
/-- The bytes of the page. -/
def Leaf.bytes (l : Leaf) : Nat := 2 ^ sizeLog l.size
/-- Whether FMT is bx8 or bx4. -/
def Leaf.isBx (l : Leaf) : Bool := l.format && (l.fmt == 8 || l.fmt == 9)
/-- Whether a page covers an address. -/
def Leaf.covers (l : Leaf) (va : Nat) : Bool := l.base ≤ va && va < l.base + l.bytes

/-- Device memory ends at 512 GiB (R217). -/
def devLimit : Nat := 2 ^ 39

/-- The scale bytes of a bx page (R199). -/
def Leaf.scaleBytes (l : Leaf) : Nat := if l.fmt == 8 then l.bytes / 16 else l.bytes / 8

/-- Whether a leaf's fields break R198, R199 or R217; replicas are checked by the walk. -/
def Leaf.malformed (l : Leaf) (level : Nat) : Bool :=
  l.w0.getLsbD 11 || field l.w0 16 8 != 0 || !sizeAtLevel level l.size || l.frame % l.bytes != 0 ||
  l.cls == 3 || ((l.checked || l.format) && l.cls != 0) || (l.format && l.x) ||
  10 ≤ l.fmt || (!l.format && l.fmt != 0) || l.w1.getLsbD 5 || field l.w1 20 4 != 0 ||
  (l.geom != 0 && !l.isBx) ||
  (if l.member then l.kexp < 12 || 36 < l.kexp else l.kexp != 0) ||
  (l.cls == 0 && l.target != 0) || (l.cls == 2 && 2 ≤ l.target) ||
  (if l.isBx then devLimit < l.sframe + l.scaleBytes else l.sframe != 0) ||
  (l.cls == 0 && devLimit < l.frame + l.bytes)

/-- Whether a non-leaf entry is malformed: V, LEAF and FRAME are its only fields, a table lies in device memory. -/
def tableMalformed (w0 w1 : Word64) : Bool :=
  field w0 2 22 != 0 || w1 != 0 || field w0 24 40 % 2 != 0 || devLimit < field w0 24 40 * 4096 + 8192

/-! ## The walk (R195 to R197, R205) -/

/-- The outcome of a translation: a leaf with its level, or how it fails and at which level. -/
inductive Walk where
  | leaf (l : Leaf) (level : Nat)
  | absent (level : Nat)
  | malformed (level : Nat)
  | noncanonical
  /-- A host holds the half of a line in which the entry at an address lies: the walker takes it back first (R228). -/
  | held (pa : Nat)
  deriving DecidableEq, Repr

/-- Whether a line of device memory is poisoned (R455). -/
def State.poisoned (s : State) (pa : Nat) : Bool := s.ms.lines.any (fun r => r.line == pa / 128 && r.poison)

/-- What a walker reads of an entry: its two words, poison, or nothing yet because a host holds bytes of it. -/
inductive EntryRead where
  | words (w0 w1 : Word64)
  | poison
  | held (pa : Nat)
  deriving DecidableEq, Repr

/-- The two words of an entry of a table (R196), read at device scope (R205). -/
def State.readEntry (s : State) (table i : Nat) : EntryRead :=
  let a := table + 8 * i
  if (s.devGate a 8).isSome then .held a
  else if (s.devGate (a + 4096) 8).isSome then .held (a + 4096)
  else if s.poisoned a || s.poisoned (a + 4096) then .poison
  else .words (BitVec.ofNat 64 (s.devLE a 8)) (BitVec.ofNat 64 (s.devLE (a + 4096) 8))

/-- A leaf entry read at an index: the replica's V and SIZE against the first entry of its run (R197). -/
def State.walkLeaf (s : State) (ctx table level va i : Nat) (w0 : Word64) : Walk :=
  let size := field w0 12 4
  if !sizeAtLevel level size then .malformed level
  else
    let first := i - i % 2 ^ (sizeLog size - spanLog level)
    match s.readEntry table first with
    | .held pa => .held pa
    | .poison => .malformed level
    | .words f0 f1 =>
      if !f0.getLsbD 0 || !f0.getLsbD 1 || field f0 12 4 != size then .malformed level
      else
        let l : Leaf := { ctx := ctx, base := va - va % 2 ^ sizeLog size, w0 := f0, w1 := f1 }
        if l.malformed level then .malformed level else .leaf l level

/-- The last level, which holds only leaves. -/
def State.walkLast (s : State) (ctx va table : Nat) : Walk :=
  let i := va / 2 ^ spanLog 0 % 512
  match s.readEntry table i with
  | .held pa => .held pa
  | .poison => .malformed 0
  | .words w0 _ =>
    if !w0.getLsbD 0 then .absent 0
    else if w0.getLsbD 1 then s.walkLeaf ctx table 0 va i w0
    else .malformed 0

/-- The walk cache's table for an entry, if it holds one (R205). -/
def State.walkCached (s : State) (base ctx level va : Nat) : Option Nat :=
  (s.ms.walkCache.find? (fun w => w.die == base && w.ctx == ctx && w.level == level &&
    w.vprefix == va / 2 ^ spanLog level)).map (·.table)

/-- The walk from a table of a level down, with the non-leaf entries that it read. -/
def State.walkFrom (s : State) (base ctx va : Nat) : Nat → Nat → Walk × List WalkEntry
  | 0, table => (s.walkLast ctx va table, [])
  | n + 1, table =>
    match s.walkCached base ctx (n + 1) va with
    | some t => s.walkFrom base ctx va n t
    | none =>
      let i := va / 2 ^ spanLog (n + 1) % 512
      match s.readEntry table i with
      | .held pa => (.held pa, [])
      | .poison => (.malformed (n + 1), [])
      | .words w0 w1 =>
        if !w0.getLsbD 0 then (.absent (n + 1), [])
        else if w0.getLsbD 1 then (s.walkLeaf ctx table (n + 1) va i w0, [])
        else if tableMalformed w0 w1 then (.malformed (n + 1), [])
        else
          let next := field w0 24 40 * 4096
          let r := s.walkFrom base ctx va n next
          (r.1, { die := base, ctx := ctx, level := n + 1, vprefix := va / 2 ^ spanLog (n + 1), table := next } :: r.2)

/-- A translation read from a core's TLB, the die's TLB, or by a walk (R205). -/
def State.lookup (s : State) (core : Option Nat) (die ctx va : Nat) : Walk × List WalkEntry :=
  if 2 ^ 57 ≤ va then (.noncanonical, [])
  else
    let hit := fun (k : Nat) (e : Nat × Leaf) => e.1 == k && e.2.ctx == ctx && e.2.covers va
    match (match core with
      | some c => s.ms.tlbCore.find? (hit c)
      | none => none).orElse (fun _ => s.ms.tlbDie.find? (hit die)) with
    | some e => (.leaf e.2 ((List.range 3).find? (fun l => sizeAtLevel l e.2.size) |>.getD 0), [])
    | none =>
      match s.ctx? ctx with
      | none => (.malformed 4, [])
      | some c => s.walkFrom (baseOfDie die) ctx va 4 (c.ptroot / 8192 * 8192)

/-- The translation of an address. -/
def State.translate (s : State) (core : Option Nat) (die ctx va : Nat) : Walk := (s.lookup core die ctx va).1

/-- An entry added to a cache of n entries for a key; the oldest of that key goes when it is full. -/
def cacheAdd {α : Type} [BEq α] (n : Nat) (same : α → Bool) (x : α) (l : List α) : List α :=
  if l.contains x then l
  else if n ≤ (l.filter same).length then
    (match l.find? same with
     | some y => l.erase y
     | none => l) ++ [x]
  else l ++ [x]

/-- What a successful translation leaves in the TLBs and in the walk cache (R205). -/
def State.fillTlb (s : State) (core : Option Nat) (die ctx va : Nat) : State :=
  let r := s.lookup core die ctx va
  match r.1 with
  | .leaf l _ =>
    { s with ms := { s.ms with
      tlbCore := match core with
        | some c => cacheAdd 512 (fun e => e.1 == c) (c, l) s.ms.tlbCore
        | none => s.ms.tlbCore
      tlbDie := cacheAdd 16384 (fun e => e.1 == die) (die, l) s.ms.tlbDie
      walkCache := r.2.foldl (fun w e => cacheAdd 4096 (fun x => x.die == e.die) e w) s.ms.walkCache } }
  | .absent _ => s
  | .malformed _ => s
  | .noncanonical => s
  | .held _ => s

/-! ## Permissions and member addressing (R201, R206) -/

/-- The kinds of access of R208. -/
inductive Access where
  | read | write | atomic | exec
  deriving DecidableEq, Repr

/-- The ACCESS code. -/
def Access.code : Access → Nat
  | .read => 0
  | .write => 1
  | .atomic => 2
  | .exec => 3

/-- Whether a leaf permits an access (R206). -/
def Leaf.permits (l : Leaf) (a : Access) : Bool :=
  match a with
  | .read => l.r
  | .write => l.w
  | .atomic => l.r && l.w
  | .exec => l.x

/-- The failures of R206 in the order of its table; before them the wait for a table entry that a host holds. -/
inductive XFail where
  | held | absent | perm | malformed | noncanonical | mismatch
  deriving DecidableEq, Repr

/-- Rank of a failure: the class listed highest applies to the whole instruction. -/
def XFail.rank : XFail → Nat
  | .held => 0
  | .absent => 1
  | .perm => 2
  | .malformed => 3
  | .noncanonical => 4
  | .mismatch => 5

/-- An element's translation: its effective address and leaf, or how it fails there and at which level (for a wait: at which
address of a table). -/
inductive Xl where
  | ok (ea : Nat) (l : Leaf)
  | fail (f : XFail) (ea level perm : Nat)
  deriving DecidableEq, Repr

/-- A walk's outcome for an access at an effective address. -/
def Walk.access (w : Walk) (a : Access) (ea : Nat) : Xl :=
  match w with
  | .leaf l n => if l.permits a then .ok ea l else .fail .perm ea n (l.r.toNat + 2 * l.w.toNat + 4 * l.x.toNat)
  | .absent n => .fail .absent ea n 0
  | .malformed n => .fail .malformed ea n 0
  | .noncanonical => .fail .noncanonical ea 0 0
  | .held pa => .fail .held ea pa 0

/-- An element's effective address and its leaf before permissions (R201). -/
def State.effective (s : State) (core : Option Nat) (die ctx member va : Nat) : Nat × Walk × Bool :=
  match s.translate core die ctx va with
  | .leaf l n =>
    if !l.member || member == 0 then (va, .leaf l n, true)
    else
      let ea := va + member * 2 ^ l.kexp
      let w := s.translate core die ctx ea
      (ea, w, match w with
        | .leaf k _ => k.member && k.kexp == l.kexp
        | .absent _ => true
        | .malformed _ => true
        | .noncanonical => true
        | .held _ => true)
  | .absent n => (va, .absent n, true)
  | .malformed n => (va, .malformed n, true)
  | .noncanonical => (va, .noncanonical, true)
  | .held pa => (va, .held pa, true)

/-- An element's translation for an access. -/
def State.xlElem (s : State) (core : Option Nat) (die ctx member va : Nat) (a : Access) : Xl :=
  let r := s.effective core die ctx member va
  if r.2.2 then r.2.1.access a r.1 else .fail .mismatch r.1 (match r.2.1 with
    | .leaf _ n => n
    | .absent n => n
    | .malformed n => n
    | .noncanonical => 0
    | .held _ => 0) 0

/-- Where an access reaches past its first page: the next page at the effective address that follows, held to the MEMBER and
KEXP of the first (R201). -/
def State.xlNext (s : State) (core : Option Nat) (die ctx : Nat) (first : Leaf) (ea : Nat) (a : Access) : Xl :=
  match s.translate core die ctx ea with
  | .leaf l n =>
    if first.member && !(l.member && l.kexp == first.kexp) then .fail .mismatch ea n 0 else (Walk.leaf l n).access a ea
  | .absent n => .fail .absent ea n 0
  | .malformed n => .fail .malformed ea n 0
  | .noncanonical => .fail .noncanonical ea 0 0
  | .held pa => .fail .held ea pa 0

/-- The place of an effective address on a leaf (R243). -/
def Leaf.place (l : Leaf) (ea : Nat) : Place :=
  let pa := l.frame + (ea - l.base)
  if l.cls == 1 then .peer l.target pa
  else if l.cls == 2 then .host (l.target % 2) pa
  else .dev pa

/-! ## Trap words of translation failures (R162, R210) -/

/-- The access word of R210. -/
def xAccessWord (f : XFail) (a : Access) (level perm : Nat) : Nat :=
  a.code + level * 4 + (match f with
    | .held => 0
    | .absent => 0
    | .perm => 0
    | .malformed => 1
    | .noncanonical => 2
    | .mismatch => 3) * 32 + perm * 256

/-- The trap of a failure at a first element with a count of failing elements. -/
def xTrap (f : XFail) (a : Access) (ea level perm : Nat) (first : Option Nat) (n : Nat) : TrapInfo :=
  { cause := if f == .perm then causePermission else causeXlate, tinfo0 := ea, tinfo1 := xAccessWord f a level perm,
    first := first, nelem := n }

/-! ## Pending fault entries and the fault queue (R95, R207, R208) -/

/-- Whether the ring is full: PROD − CONS, modulo 2^64, has reached N (R95). -/
def Context.fqFull (c : Context) : Bool := decide (2 ^ c.fqLog ≤ (c.fqProd + 2 ^ 64 - c.fqCons % 2 ^ 64) % 2 ^ 64)

/-- The address of the record that is written next. -/
def Context.fqNext (c : Context) : Nat := c.fqBase + 64 + 64 * (c.fqProd % 2 ^ c.fqLog)

/-- What the write of a record waits for: its own bytes and PROD (R228). -/
def State.fqGate (s : State) (c : Context) : Option State := s.devGates [(c.fqNext, 64), (c.fqBase, 8)]

/-- A record put on the fault queue's ring in device memory, PROD advanced after it (R95). -/
def State.pushFault (s : State) (c : Context) (r : FaultRecord) : State :=
  let s1 := s.serveWrite c.fqNext (leBytes 8 r.1.toNat ++ leBytes 8 r.2.1.toNat ++ leBytes 8 r.2.2.1.toNat ++
    leBytes 8 r.2.2.2.toNat ++ List.replicate 32 0)
  (s1.serveWrite c.fqBase (leBytes 8 ((c.fqProd + 1) % 2 ^ 64))).putCtx { c with fqProd := (c.fqProd + 1) % 2 ^ 64 }

/-- A record written, or held while the ring is full or a host holds the bytes that it goes to; none once the context drains
(R86). -/
def State.faultRecord (s : State) (ctx : Nat) (r : FaultRecord) : State :=
  match s.ctx? ctx with
  | none => s
  | some c =>
    if c.st == .draining then s
    else if !c.fqHeld.isEmpty || c.fqFull then s.putCtx { c with fqHeld := c.fqHeld ++ [r] }
    else match s.fqGate c with
      | some s1 => s1.putCtx { c with fqHeld := [r] }
      | none => s.pushFault c r

/-- A pending fault entry by base die and index. -/
def State.pfe (s : State) (base i : Nat) : Pfe :=
  match s.ms.pfes.find? (fun p => p.base == base && p.index == i) with
  | some p => p
  | none => { base := base, index := i, gen := 0, pending := false, ctx := 0, page := 0 }

/-- A pending fault entry replaced. -/
def State.putPfe (s : State) (p : Pfe) : State :=
  { s with ms := { s.ms with
      pfes := s.ms.pfes.filter (fun q => !(q.base == p.base && q.index == p.index)) ++ [p] } }

/-- The token of an entry (R208). -/
def Pfe.token (p : Pfe) : Nat := p.index + p.base * 512 + p.gen * 1024

/-- A restartable fault on a base die: the PENDING entry of its key, or a FREE one that becomes PENDING with one record;
none when all 512 are PENDING. `words` gives the record's words 1 and 3. -/
def State.attach (s : State) (base ctx ea : Nat) (w1 w3 : Nat) : State × Option Nat :=
  let page := ea / 4096
  match s.ms.pfes.find? (fun p => p.base == base && p.pending && p.ctx == ctx && p.page == page) with
  | some p => (s, some p.index)
  | none =>
    match (List.range 512).find? (fun i => !(s.pfe base i).pending) with
    | none => (s, none)
    | some i =>
      let p := { s.pfe base i with pending := true, ctx := ctx, page := page }
      ((s.putPfe p).faultRecord ctx (BitVec.ofNat 64 (ea % 2 ^ 57), BitVec.ofNat 64 w1, BitVec.ofNat 64 p.token,
        BitVec.ofNat 64 w3), some i)

/-- A group enters FAULTWAIT for a restartable fault (R207). What a resolution FAIL will report is kept beside
it. An instruction that names no element gives element 0 and count 1 to the record, none to the trap. -/
def Iss.faultWait (c : Iss) (s : State) (a : Access) (ea level : Nat) (elem : Option Nat) (n : Nat) : Eff :=
  let first := elem.getD 0
  let base := baseOfDie (dieOfCore c.g.core)
  let w1 := a.code + level * 4 + c.g.core * 2 ^ 8 + c.g.slot * 2 ^ 16 + first / 32 * 2 ^ 21 + first % 32 * 2 ^ 24 +
    n * 2 ^ 29 + c.l.region * 2 ^ 38
  let r := s.attach base c.ctx ea w1 c.l.addr
  let t := xTrap .absent a ea level 0 elem (if elem.isSome then n else 0)
  .waits (r.1.putGroup
    { c.g with st := .faultWait base r.2, prevSt := c.g.st, lateTrap := some { t with slot := some c.which } })

/-- The step that takes back the half in which a table entry lies; none while it is on its way. -/
def State.entryStep (s : State) (pa : Nat) : Option State := s.afterGate (s.devGate pa 8) none

/-- What an instruction does whose translation fails (R206): it waits for a table entry, enters FAULTWAIT, or traps. `elem` and n:
the first failing element and their count, none and 0 where the report names none. -/
def Iss.xStop (c : Iss) (f : XFail) (a : Access) (ea level perm : Nat) (elem : Option Nat) (n : Nat) : Eff :=
  if f == .held then (match c.st.entryStep level with
    | some s => .waits (s.putGroup c.g)
    | none => .stall)
  else if f == .absent then c.faultWait c.st a ea level elem (max n 1)
  else .trap (xTrap f a ea level perm elem n)

/-- The outcome of elements' translations that are not all allowed: the class listed highest in R206, its first element
and its count. -/
def worstFail (xs : List (Nat × Xl)) : Option (XFail × Nat × Nat × Nat × Nat × Nat) :=
  let fails := xs.filterMap (fun p => match p.2 with
    | .ok _ _ => none
    | .fail f ea lv pm => some (f, p.1, ea, lv, pm))
  match fails with
  | [] => none
  | x :: rest =>
    let best := rest.foldl (fun b y => if y.1.rank < b.1.rank then y else b) x
    some (best.1, best.2.1, best.2.2.1, best.2.2.2.1, best.2.2.2.2, (fails.filter (fun y => y.1 == best.1)).length)

/-- The failure of an instruction whose elements do not all translate. -/
def Iss.xFail (c : Iss) (a : Access) (xs : List (Nat × Xl)) : Option Eff :=
  (worstFail xs).map (fun r =>
    let (f, first, ea, level, perm, n) := r
    c.xStop f a ea level perm (some first) n)

/-! ## Resolution (R207, R209) -/

/-- The base die and the entry, if it has one, of a fault-wait that a group is in, held or not. A saved group has none: it issues
its instruction again on restore (R184). -/
def Group.faultOf (g : Group) : Option (Nat × Option Nat) :=
  if g.saved.isSome then none
  else match (if g.st == .held then g.prevSt else g.st) with
    | .faultWait b e => some (b, e)
    | .running => none
    | .wait _ => none
    | .handler => none
    | .phandler => none
    | .held => none
    | .ended _ => none

/-- Whether a group is attached to an entry. -/
def Group.attachedTo (g : Group) (base i : Nat) : Bool := g.faultOf == some (base, some i)

/-- Whether a group's fault-wait ends when an entry becomes FREE: it is attached to it, or waits on that base die without an
entry (R207). -/
def Group.freedBy (g : Group) (base i : Nat) : Bool := g.attachedTo base i || g.faultOf == some (base, none)

/-- A group that issues its faulting instruction again, once it is no longer held. -/
def Group.retryFault (g : Group) : Group :=
  if g.st == .held then { g with prevSt := g.resumeSt, lateTrap := none } else { g with st := g.resumeSt, lateTrap := none }

/-- A group in FAULTWAIT leaves its fault entry (R207). -/
def Group.detach (g : Group) : Group :=
  match g.faultOf with
  | none => g
  | some (b, _) => if g.st == .held then { g with prevSt := .faultWait b none } else { g with st := .faultWait b none }

/-- The precise XLATE_FAULT of a fault-wait whose resolution is FAIL. -/
def State.failFault (s : State) (g : Group) : State :=
  match g.lateTrap with
  | none => s
  | some t => (s.putGroup g.retryFault).takeTrap g.retryFault (t.slot.getD 0) t

/-- Transfers that are paused on an entry go on. -/
def State.resumeTransfers (s : State) (token : Nat) : State :=
  { s with eng := { s.eng with
      ceCmds := s.eng.ceCmds.map (fun k => if k.pausedOn == some token then { k with pausedOn := none } else k),
      feCmds := s.eng.feCmds.map (fun k => if k.pausedOn == some token then { k with pausedOn := none } else k),
      ctt := s.eng.ctt.map (fun k => if k.pausedOn == some token then { k with pausedOn := none } else k) } }

/-- An external event of R101 recorded for its workgroup's next round boundary. -/
def State.addEvent (s : State) (ctx : Nat) (e : ExtEvent) : State :=
  s.mapCtx ctx (fun c => { c with events := c.events ++ [e] })

/-- The parse number of a group's launch. -/
def State.launchId (s : State) (g : Group) : Nat :=
  match s.launchOf g with
  | some l => l.id
  | none => 0

/-- Transfers that are paused on an entry whose resolution is FAIL: a copy or remote transfer ends (R357, R416), a
collective entry will fail (R411). -/
def State.failTransfers (s : State) (token : Nat) : State :=
  { s with eng := { s.eng with
      ceCmds := s.eng.ceCmds.map (fun k => if k.pausedOn == some token then { k with pausedOn := none, ended := true } else k),
      feCmds := s.eng.feCmds.map (fun k => if k.pausedOn == some token then { k with pausedOn := none, ended := true } else k),
      ctt := s.eng.ctt.map (fun k => if k.pausedOn == some token then { k with pausedOn := none, failed := true } else k) } }

/-- The end of one fault-wait: the group issues its instruction again, or takes its trap. In a Drydown context its workgroup sees
that at a round boundary, as an event of kind 1 whose argument is the slot, plus 32 for a trap (R101, R102); until then the group
waits without an entry. -/
def State.endFaultWait (s : State) (core slot : Nat) (fail : Bool) : State :=
  match s.group? core slot with
  | none => s
  | some g =>
    match s.launchOf g with
    | none => s
    | some l =>
      if s.drydown l.ctx then
        let due := (s.ctx? l.ctx).any (fun c => c.events.any (fun e => e.kind == 1 && e.unit == g.unit && e.wg == g.wg && e.arg % 32 == slot))
        if due then s
        else (s.putGroup g.detach).addEvent l.ctx { kind := 1, launch := l.id, unit := g.unit, wg := g.wg,
                                                    arg := if fail then slot + 32 else slot, cluster := clusterOfCore core, phase := 0 }
      else if fail then s.failFault g
      else s.putGroup g.retryFault

/-- An entry of a base die has become FREE: the groups attached to it, and those that wait on that base die without an entry, go on
(R207). -/
def State.entryFreed (s : State) (p : Pfe) (fail : Bool) : State :=
  (s.sched.groups.filter (fun g => g.freedBy p.base p.index)).foldl
    (fun st g => st.endFaultWait g.core g.slot (fail && g.attachedTo p.base p.index)) s

/-- Whether queue entries of a group that a resolution FAIL makes trap are unfinished (R176, R312). -/
def State.failWaits (s : State) (p : Pfe) : Bool :=
  s.sched.groups.any (fun g => g.attachedTo p.base p.index && s.queued g)

/-- Resolution RETRY of a PENDING entry: it becomes FREE, the generation advances, its groups issue again. -/
def State.resolveRetry (s : State) (p : Pfe) : State :=
  ((s.putPfe { p with pending := false, gen := p.gen + 1 }).resumeTransfers p.token).entryFreed p false

/-- Resolution FAIL: every attached group takes XLATE_FAULT precisely, reason 0; transfers fail under their own rules. -/
def State.resolveFail (s : State) (p : Pfe) : State :=
  ((s.putPfe { p with pending := false, gen := p.gen + 1 }).failTransfers p.token).entryFreed p true

/-- The PENDING entry that a token names, if its generation matches. -/
def State.tokenEntry (s : State) (token : Nat) : Option Pfe :=
  let p := s.pfe (token / 512 % 2) (token % 512)
  if p.pending && p.gen == token / 1024 then some p else none

end Sys2Proof.Machine
end

