-- ==== Sys2Proof/Machine/Coherence.lean ====
section
/-! DEFINITION. Coherence and ordering (spec files 09 and 10): holders, versions and recalls (R223, R224), the host
bridge (R228), atomic operations (R344) with their update-only partials (R237, R238), race stamps (R244, R253 to R256),
releases and acquires (R248 to R250, R263). -/

namespace Sys2Proof.Machine

/-! ## Lines (R223, R224) -/

/-- A watch line that is still being checked is struck: its answer will say so (R232). -/
def strikeLine (n : Nat) (w : WatchLine) : WatchLine :=
  if w.line == n && w.st == .pending then { w with answer := some false } else w

/-- The home strikes the pending checks of a line whose tracking state it loses (R232). -/
def State.strikeChecks (s : State) (n : Nat) : State :=
  s.mapGroups (fun g => { g with watch := g.watch.map (fun e => { e with lines := e.lines.map (strikeLine n) }) })

/-- A counter of the LLC slice of a line counts one event (R459): HITS, MISSES, WBACK, RECALL, SHKILL, BANKOPS by number
(log 22). -/
def State.llcCount (s : State) (n k : Nat) : State :=
  let slice := llcSliceOf (128 * n)
  let cs := lookupD (List.replicate 6 0) s.ms.llcCounters slice
  { s with ms := { s.ms with llcCounters := assign s.ms.llcCounters slice (cs.modify k (fun x => (x + 1) % 2 ^ 64)) } }

/-- Whether a live stamp's region is open. -/
def State.stampLive (s : State) (t : Stamp) : Bool := t.region == s.regionNum t.core t.slot

/-- Whether a line carries a live stamp. -/
def State.lineStamped (s : State) (line : Nat) : Bool := s.ms.stamps.any (fun t => t.sector / 8 == line && s.stampLive t)

/-- The holder gives a line up: it writes the line back with its version, the record becomes none (R223). -/
def State.letGo (s : State) (n : Nat) : State :=
  let r := s.line n
  if r.holder.isNone then s
  else (s.putLine { r with holder := none, sharers := [], inexact := false, awayDie := none, awayCount := 0 }).strikeChecks n

/-- A recall (R223). -/
def State.recall (s : State) (n : Nat) : State := if (s.line n).holder.isNone then s else (s.letGo n).llcCount n 3

/-- An access that the LLC serves counts as a hit or a miss. -/
def State.llcServe (s : State) (n : Nat) : State :=
  let r := s.line n
  if r.holder.isNone then s.llcCount n (if r.cached then 0 else 1) else s

/-- A die's shadow of a line discarded. -/
def State.dropShadow (s : State) (die n : Nat) : State :=
  { s with ms := { s.ms with shadows := s.ms.shadows.filter (fun h => !(h.die == die && h.line == n)) } }

/-- The lines that a die L2 holds at most: 32 MiB (R20, R22). -/
def l2Lines : Nat := 262144

/-- The lines of a die L2: those that the die holds, shadows, copies of peer lines, and host lines of half the size. -/
def State.l2Used (s : State) (die : Nat) : Nat :=
  (s.ms.lines.filter (fun r => r.holder == some die)).length + (s.ms.shadows.filter (fun h => h.die == die)).length +
    (s.ms.peerCopies.filter (fun q => q.die == die)).length + ((s.ms.hostLines.filter (fun h => h.die == die)).length + 1) / 2

/-- Room made in a die L2 for one more line: a shadow goes first, then a copy of a peer line, a host line, the oldest line without a
live stamp; where every line carries one, the LLC recalls the oldest (R225, R244, R247; log 60). -/
def State.l2Room (s : State) (die : Nat) : State :=
  if s.l2Used die < l2Lines then s
  else match s.ms.shadows.find? (fun h => h.die == die) with
    | some h => s.dropShadow die h.line
    | none => match s.ms.peerCopies.find? (fun q => q.die == die) with
      | some q => { s with ms := { s.ms with peerCopies := s.ms.peerCopies.erase q } }
      | none => match s.ms.hostLines.find? (fun h => h.die == die) with
        | some h => s.returnHost h.port h.line
        | none =>
          let mine := s.ms.lines.filter (fun r => r.holder == some die)
          match mine.find? (fun r => !s.lineStamped r.line) with
          | some r => s.letGo r.line
          | none => match mine.head? with
            | some r => s.recall r.line
            | none => s

/-- A die becomes the holder of a line (R223, R225). -/
def State.takeLine (s0 : State) (die n : Nat) : State :=
  let s := s0.l2Room die
  (s.putLine { s.line n with holder := some die, recorded := true, cached := true, awayDie := none, awayCount := 0 }).dropShadow die n

/-- The lines of an L1: 256 KiB (R17, R22). -/
def l1Lines : Nat := 2048

/-- Whether a core's L1 holds partials of a line (R237). -/
def State.l1Partials (s : State) (core n : Nat) : Bool :=
  s.ms.partials.any (fun p => p.core == core && p.pa / 128 == n)

/-- A core's copy in its L1 of a line that its die holds, unless it has one. A full L1 gives up its oldest line without partials, and
tells the home slice (R221, R237; log 60). -/
def State.l1Keep (s : State) (core n : Nat) : State :=
  let q := s.line n
  if q.sharers.contains core then s
  else
    let held := s.ms.lines.filter (fun r => r.sharers.contains core && !r.inexact)
    if held.length < l1Lines then s.putLine { q with sharers := q.sharers ++ [core] }
    else match held.find? (fun r => !s.l1Partials core r.line) with
      | none => s
      | some r => (s.putLine { r with sharers := r.sharers.filter (· != core) }).putLine { q with sharers := q.sharers ++ [core] }

/-- A read of a line by a core: a cacheable line without a holder is fetched, and the core's L1 keeps a copy where its
die holds the line (R221, R223). -/
def State.readTouch (s0 : State) (core n : Nat) (cache : Bool) : State :=
  let die := dieOfCore core
  let s := s0.llcServe n
  let r := s.line n
  let s1 := if cache && r.holder.isNone then s.takeLine die n else s.putLine { r with recorded := true, cached := true }
  if cache && (s1.line n).holder == some die then s1.l1Keep core n else s1

/-- A write to a line by a core of a die: fetched when cacheable and not held; after 16 consecutive writes of one
non-holder die the line is recalled and the writer's die becomes its holder (R223). -/
def State.writeTouch (s0 : State) (die n : Nat) (cache : Bool) : State :=
  let s := s0.llcServe n
  let r := s.line n
  match r.holder with
  | none => if cache then s.takeLine die n else s.putLine { r with recorded := true, cached := true }
  | some h =>
    if h == die then s.putLine { r with awayDie := none, awayCount := 0 }
    else
      let k := if r.awayDie == some die then r.awayCount + 1 else 1
      if 16 ≤ k then (let s1 := s.recall n; if cache then s1.takeLine die n else s1)
      else s.putLine { r with awayDie := some die, awayCount := k }

/-- Whether any of n bytes lies in a poisoned line (R455). -/
def State.anyPoison (s : State) (pa n : Nat) : Bool := (linesOf pa n).any (fun l => (s.line l).poison)

/-! ## Atomic operations (R344) -/

/-- The width of an atomic operation. -/
def atomWidth (op : Nat) : Nat := if op == 1 || op == 3 || op == 13 then 8 else if op == 15 then 288 else 4

/-- Whether its operand is a pair. -/
def atomPair (op : Nat) : Bool := op == 1 || op == 3 || op == 13 || op == 14 || op == 15

/-- Whether atom returns a pair. -/
def atomWide (op : Nat) : Bool := op == 1 || op == 3 || op == 13 || op == 15

/-- The new value of a word of R344; y is the new value of cas. -/
def atomNew (op o x y : Nat) : Nat :=
  let a := BitVec.ofNat 32 o
  let b := BitVec.ofNat 32 x
  match op with
  | 0 => (a + b).toNat
  | 1 => (BitVec.ofNat 64 o + BitVec.ofNat 64 x).toNat
  | 2 => (fAdd fmtF32 o x).1
  | 3 => (fAdd fmtF64 o x).1
  | 4 => (fAdd fmtBf16 (o % 65536) (x % 65536)).1 + 65536 * (fAdd fmtBf16 (o / 65536) (x / 65536)).1
  | 5 => (minS a b).toNat
  | 6 => (maxS a b).toNat
  | 7 => (minU a b).toNat
  | 8 => (maxU a b).toNat
  | 9 => (a &&& b).toNat
  | 10 => (a ||| b).toNat
  | 11 => (a ^^^ b).toNat
  | 12 => x
  | 13 => x
  | 14 => if o == x then y else o
  | _ => o

/-! ## Update-only partials (R237, R238) -/

/-- A memory with a word's partials combined into it, oldest first. -/
def applyPartials (m : Memory) (pa n : Nat) (ops : List PartialOp) : Memory :=
  ops.foldl (fun m p => m.writeLE pa n (atomNew p.op (m.readLE pa n) p.x 0)) m

/-- Whether two byte ranges overlap. -/
def overlaps (a n b k : Nat) : Bool := decide (a < b + k) && decide (b < a + n)

/-- A memory as a core sees n bytes of it: combined with the pending partials of its cluster and with the core's own partials
(R237). A partial that overlaps these bytes may have been combined with others that reach past them, so every partial of the words'
lines counts. -/
def State.coreView (s : State) (core pa n : Nat) (m : Memory) : Memory :=
  let near := fun (a k : Nat) => overlaps (pa / 8 * 8) ((pa + n + 7) / 8 * 8 - pa / 8 * 8) a k
  let m1 := (s.ms.pendings.filter (fun p => clusterOfCore p.core == clusterOfCore core && near p.pa p.n)).foldl
    (fun m p => applyPartials m p.pa p.n p.ops) m
  (s.ms.partials.filter (fun p => p.core == core && near p.pa p.n)).foldl
    (fun m p => applyPartials m p.pa p.n p.ops) m1

/-- Device memory as a core sees n bytes of it. -/
def State.coreMem (s : State) (core pa n : Nat) : Memory := s.coreView core pa n s.ms.mem

/-- n bytes as a core sees them. -/
def State.coreRead (s : State) (core pa n : Nat) : List Byte := (s.coreMem core pa n).readN pa n

/-- The bytes of a copy of a line as a core sees n of them: its own partials over the copy (R237). -/
def State.shadowRead (s : State) (core line : Nat) (bs : List Byte) (pa n : Nat) : List Byte :=
  (s.coreView core pa n (Memory.writeN [] (128 * line) bs)).readN pa n

/-- An operand accumulated into a core's partial of a word: combined with the last partial of the same operation, else
behind it, which combines what was there into the base. -/
def addPartial (ops : List PartialOp) (op x : Nat) : List PartialOp :=
  match ops.reverse with
  | [] => [{ op := op, x := x }]
  | p :: rest =>
    if p.op == op then (({ p with x := atomNew op p.x x 0 } : PartialOp) :: rest).reverse
    else ops ++ [{ op := op, x := x }]

/-- A narrow-scope atomic added to a core's partials: to the last one over its bytes where that is one of the same word, else behind
them all, which combines what was there into the base (R237). -/
def State.pushPartial (s : State) (core pa n op x : Nat) : State :=
  let mine := fun (p : L1Partial) => p.core == core && overlaps pa n p.pa p.n
  let same := (s.ms.partials.reverse.find? mine).filter (fun q => q.pa == pa && q.n == n)
  let ps : List L1Partial := match same with
    | some q => s.ms.partials.erase q ++ [{ q with ops := addPartial q.ops op x }]
    | none => s.ms.partials ++ [{ core := core, pa := pa, n := n, ops := [{ op := op, x := x }] }]
  { s with ms := { s.ms with partials := ps } }

/-- Partials applied to the line itself at its serving copy. -/
def State.applyToLine (s : State) (pa n : Nat) (ops : List PartialOp) : State :=
  let m := applyPartials s.ms.mem pa n ops
  s.serveWrite pa (m.readN pa n)

/-- The pending store of a slice holds 1,024 words: its oldest is applied when one more comes (R237). -/
def State.pushPending (s : State) (p : L1Partial) : State :=
  let same := fun (q : PendPartial) => dieOfCore q.core == dieOfCore p.core && l2SliceOf q.pa == l2SliceOf p.pa
  let s1 := if 1024 ≤ (s.ms.pendings.filter same).length then
      match s.ms.pendings.find? same with
      | some q => ({ s with ms := { s.ms with pendings := s.ms.pendings.erase q } } : State).applyToLine q.pa q.n q.ops
      | none => s
    else s
  { s1 with ms := { s1.ms with pendings := s1.ms.pendings ++ [{ core := p.core, pa := p.pa, n := p.n, ops := p.ops }] } }

/-- What a release of a scope does with the core's partials: from .cl they become pending partials, from .di they and
the pending ones are applied to their lines (R237, R248). -/
def State.releasePartials (s : State) (core scope : Nat) : State :=
  if scope < 4 then s
  else
    let mine := s.ms.partials.filter (fun p => p.core == core)
    let s1 := { s with ms := { s.ms with partials := s.ms.partials.filter (fun p => p.core != core) } }
    if scope == 4 then mine.foldl (fun s p => s.pushPending p) s1
    else
      let pend := s1.ms.pendings.filter (fun p => p.core == core)
      let s2 := { s1 with ms := { s1.ms with pendings := s1.ms.pendings.filter (fun p => p.core != core) } }
      let s3 := pend.foldl (fun s p => s.applyToLine p.pa p.n p.ops) s2
      mine.foldl (fun s p => s.applyToLine p.pa p.n p.ops) s3

/-- The words of device memory that a release of a scope applies partials to. From .cl on it may only fill the pending store, and then
only its older words count. -/
def State.releaseWords (s : State) (core scope : Nat) : List (Nat × Nat) :=
  if scope < 4 then []
  else
    let mine := (s.ms.partials.filter (fun p => p.core == core)).map (fun p => (p.pa, p.n))
    if scope == 4 then
      (if s.ms.pendings.length + mine.length ≤ 1024 then [] else s.ms.pendings.map (fun p => (p.pa, p.n)))
    else mine ++ (s.ms.pendings.filter (fun p => p.core == core)).map (fun p => (p.pa, p.n))

/-- What a release of a scope waits for before it applies partials to their lines (R226, R228). -/
def State.releaseGate (s : State) (core scope : Nat) : Option State := s.devGates (s.releaseWords core scope)

/-- A core's partials of some bytes applied to their lines. -/
def State.settleWords (s : State) (core pa n : Nat) : State :=
  let pend := s.ms.pendings.filter (fun p => p.core == core && overlaps pa n p.pa p.n)
  let mine := s.ms.partials.filter (fun p => p.core == core && overlaps pa n p.pa p.n)
  let s1 := { s with ms := { s.ms with
    pendings := s.ms.pendings.filter (fun p => !(p.core == core && overlaps pa n p.pa p.n)),
    partials := s.ms.partials.filter (fun p => !(p.core == core && overlaps pa n p.pa p.n)) } }
  mine.foldl (fun s p => s.applyToLine p.pa p.n p.ops) (pend.foldl (fun s p => s.applyToLine p.pa p.n p.ops) s1)

/-- A store of a core discards the core's partials of the bytes it replaces (R238). -/
def State.discardPartials (s : State) (core pa n : Nat) : State :=
  { s with ms := { s.ms with
      partials := s.ms.partials.filter (fun p => !(p.core == core && overlaps pa n p.pa p.n)),
      pendings := s.ms.pendings.filter (fun p => !(p.core == core && overlaps pa n p.pa p.n)) } }

/-! ## Race stamps (R244, R253 to R256) -/

/-- Whether an access of a kind conflicts with a live stamp of another group (R254). -/
def conflicts (new old : StampKind) : Bool :=
  match new, old with
  | .read, .read => false
  | .read, .write => true
  | .read, .atomic => true
  | .write, .read => true
  | .write, .write => true
  | .write, .atomic => true
  | .atomic, .read => true
  | .atomic, .write => true
  | .atomic, .atomic => false

/-- The code of a stamp kind (R255). -/
def StampKind.code : StampKind → Nat
  | .read => 0
  | .write => 1
  | .atomic => 2

/-- The live stamp of another group of the context that an access to a sector meets. -/
def State.conflict (s : State) (ctx core slot sector : Nat) (k : StampKind) : Option Stamp :=
  s.ms.stamps.find? (fun t => t.sector == sector && t.ctx == ctx && !(t.core == core && t.slot == slot) &&
    conflicts k t.kind && s.stampLive t)

/-- The conflict word of R255. -/
def conflictWord (k : StampKind) (t : Stamp) : Nat :=
  k.code + t.kind.code * 4 + t.core * 16 + t.slot * 2 ^ 12 + t.region.toNat % 65536 * 2 ^ 34

/-- The outcome of placing a stamp: already there, placed at the line or in the die's overflow table, or no place. -/
inductive Placing where
  | have
  | at (heldBy : Option Nat)
  | full

/-- Where a stamp of a group goes (R244). -/
def State.placing (s : State) (ctx core slot sector : Nat) (k : StampKind) : Placing :=
  let live := s.ms.stamps.filter (fun t => t.sector == sector && s.stampLive t)
  if live.any (fun t => t.ctx == ctx && t.core == core && t.slot == slot && t.kind == k) then .have
  else
    let atLine := live.filter (fun t => t.heldBy.isNone)
    let n := (atLine.filter (fun t => (t.kind == .read) == (k == .read))).length
    if n < (if k == .read then 2 else 1) then .at none
    else if (s.ms.stamps.filter (fun t => t.heldBy == some (dieOfCore core))).length < 8192 then .at (some (dieOfCore core))
    else .full

/-- A stamp placed. -/
def State.addStamp (s : State) (ctx core slot sector : Nat) (k : StampKind) : State :=
  match s.placing ctx core slot sector k with
  | .have => s
  | .full => s
  | .at o => { s with ms := { s.ms with stamps := s.ms.stamps ++
      [{ sector := sector, ctx := ctx, core := core, slot := slot, region := s.regionNum core slot, kind := k, heldBy := o }] } }

/-- The 16-byte sectors that n bytes touch. -/
def sectorsOf (pa n : Nat) : List Nat := (List.range ((pa + n - 1) / 16 - pa / 16 + 1)).map (pa / 16 + ·)

/-! ## Waiting for earlier accesses (R246, R248) -/

/-- Whether an ME operation reads or writes memory (R259). -/
def MeWork.accesses : MeWork → Bool
  | .tld _ _ _ _ => true
  | .acld _ _ _ => true
  | .acst _ _ _ => true
  | .xld _ _ _ => true
  | .xst _ _ _ => true
  | .tzero _ => false
  | .abzero _ => false
  | .mma _ _ _ _ _ _ _ _ => false
  | .mred _ _ _ _ => false
  | .xinit _ _ => false
  | .xadd _ _ _ _ => false
  | .xaddp _ _ _ => false
  | .xmerge _ _ _ _ => false
  | .xround _ _ _ _ _ _ => false

/-- Whether an ME operation writes memory. -/
def MeWork.stores : MeWork → Bool
  | .acst _ _ _ => true
  | .xst _ _ _ => true
  | _ => false

/-- Whether every earlier read of a group has its value. -/
def Group.readsDone (g : Group) : Bool := g.loads.isEmpty && g.atoms.isEmpty && !g.meq.any (fun m => m.work.accesses)

/-- Whether a store of the group to a page with CHECKED = 1 is not applied. -/
def Group.checkedStore (g : Group) : Bool := g.stores.any (fun e => e.elems.any (fun x => x.checked))

/-- Whether every earlier access of a group to device memory has been performed. -/
def Group.drained (g : Group) : Bool := g.readsDone && g.stores.isEmpty

/-- Whether a place lies in peer memory. -/
def Place.isPeer : Place → Bool
  | .peer _ _ => true
  | .host _ _ => false
  | .dev _ => false

/-- Whether a watch entry of the group is in a state. -/
def Group.watching (g : Group) (k : WatchState) : Bool := g.watch.any (fun e => e.st == k)

/-- The mask of struck watch entries (R233). -/
def Group.struckMask (g : Group) : Nat :=
  ((List.range 16).filter (fun i => (g.watch[i]?.map (·.st)) == some .struck)).foldl (fun acc i => acc + 2 ^ i) 0

/-- HEADNOTE_FAULT of a release that finds struck entries (R233). -/
def Iss.headnoteFault (c : Iss) : Eff := c.trapRaw causeHeadnote c.g.struckMask none

/-- A release frees the confirmed entries (R234). -/
def Group.freeConfirmed (g : Group) : Group :=
  { g with watch := g.watch.map (fun e => if e.st == .confirmed then { st := .free, lines := [] } else e) }

/-- The sent writes that a release of a scope waits for: to peers from .pd, to hosts too from .ho (R248). -/
def Group.owed (g : Group) (scope : Nat) : List SentWrite :=
  g.sent.filter (fun w => if scope == 7 then w.place.isPeer else 8 ≤ scope)

/-- The state of a link. -/
def State.linkState (s : State) (id : Nat) : LState :=
  match s.fab.links.find? (fun l => l.id == id) with
  | some l => l.st
  | none => .retired

/-- Whether a link's traffic is lost for good. -/
def State.linkDead (s : State) (id : Nat) : Bool := s.linkState id == .down || s.linkState id == .retired

/-- The target number of a discarded write (R162): the peer id, or 0x100 plus the port. -/
def Place.targetNo : Place → Nat
  | .peer i _ => i
  | .host p _ => 0x100 + p
  | .dev _ => 0

/-- The discarded writes that a fence of a scope reports: those to peers at .pd, all from .ho (R263). -/
def reportable (scope target : Nat) : Bool := 7 ≤ scope && (target < 0x100 || 8 ≤ scope)

/-- FENCE_INCOMPLETE at the next instruction once a fence finds discarded writes (R263). -/
def Group.reportLost (g : Group) (scope : Nat) : Group :=
  match g.lost.filter (reportable scope) with
  | [] => g
  | x :: xs =>
    let t : TrapInfo := { cause := causeFence, tinfo0 := xs.foldl min x, tinfo1 := (x :: xs).length }
    { g with lost := g.lost.filter (fun y => !reportable scope y), lateTrap := some t }

/-- Whether a release at a scope has to wait for the group's earlier accesses (R248, R250). -/
def Group.releaseWaits (g : Group) (scope : Nat) : Bool := 2 ≤ scope && (!g.drained || !(g.owed scope).isEmpty)

/-- Whether an acquire has to wait for the group's earlier reads (R250), and for its stores to CHECKED pages: the region that it
closes holds their stamps (R257; log 61). -/
def Group.acquireWaits (g : Group) (scope : Nat) : Bool := 2 ≤ scope && (!g.readsDone || g.checkedStore)

/-- The effect of a release whose waits are over: partials move, the region closes from .wg, confirmed entries free. -/
def State.doRelease (s : State) (g : Group) (scope : Nat) : State :=
  let s1 := s.releasePartials g.core scope
  if 2 ≤ scope then s1.closeRegion g.core g.slot else s1

/-- A release as part of another instruction: none where it may proceed, else what the instruction does instead:
waits in a fence wait, or traps (R233, R234). -/
def Iss.releaseFirst (c : Iss) (scope : Nat) : Option Eff :=
  if c.g.watching .pending then some (c.waitFor .fence)
  else if c.g.watching .struck then some c.headnoteFault
  else if c.g.releaseWaits scope then some (c.waitFor .fence)
  else match c.st.releaseGate c.g.core scope with
    | some s => some ({ c with st := s }.waitFor .fence)
    | none => none

end Sys2Proof.Machine
end

