-- ==== Sys2Proof/Machine/Access.lean ====
section
/-! DEFINITION. Element accesses: forming addresses (R332), the checks of R333 in their order, formats against declared
types (R203, R204), bx blocks (R45, R338), routes to peers and hosts (R399 to R402), and the values that loads return. -/

namespace Sys2Proof.Machine

/-! ## Routes (R399, R400, R402) -/

/-- The Brodnus links of a port mask. -/
def maskLinks (mask : Nat) : List Nat := ((List.range 16).filter (fun i => mask.testBit i)).map (0x200 + ·)

/-- The links of the route to a peer. -/
def State.routeLinks (s : State) (peer : Nat) : List Nat := maskLinks (lookupD 0 s.fab.routes peer)

/-- Whether a link in TRAINING still holds its traffic: RETWIN has not passed since it began (R391, R400). -/
def State.trainingHolds (s : State) (id : Nat) : Bool :=
  s.fab.links.any (fun l => l.id == id && l.st == .training && decide (s.clock (.link id) - l.since < l.retwin))

/-- The link that an access to a peer line takes: a hash of the line among the ports that carry or hold traffic, else
among those in TRAINING; none when the route has no such port any more. The hash is the line number (log 13). -/
def State.routePort (s : State) (peer line : Nat) : Option Nat :=
  let ls := s.routeLinks peer
  let good := ls.filter (fun l => s.linkState l == .up || s.linkState l == .degraded || s.linkState l == .retraining)
  let set := if good.isEmpty then ls.filter s.trainingHolds else good
  set[line % set.length]?

/-- The link of a place in peer or host memory, while an access that has been issued may still go there. -/
def State.placeLink (s : State) (p : Place) : Option Nat :=
  match p with
  | .dev _ => none
  | .peer i a => s.routePort i (a / 128)
  | .host i _ =>
    if s.linkDead (0x300 + i) || (s.linkState (0x300 + i) == .training && !s.trainingHolds (0x300 + i)) then none
    else some (0x300 + i)

/-- Whether a place has a route when an instruction is issued: some port of it in UP, DEGRADED, RETRAINING or TRAINING
(R402). -/
def State.routeOpen (s : State) (p : Place) : Bool :=
  match p with
  | .dev _ => true
  | .peer i _ => (s.routeLinks i).any (fun l => !s.linkDead l)
  | .host i _ => !s.linkDead (0x300 + i)

/-- The link id and state that LINK_DOWN reports for a place without a route (R402). -/
def State.downLink (s : State) (p : Place) : Nat × Nat :=
  match p with
  | .host i _ => (0x300 + i, (s.linkState (0x300 + i)).code)
  | .peer i _ => match s.routeLinks i with
    | [] => (0x3FF, 0)
    | l :: _ => (l, (s.linkState l).code)
  | .dev _ => (0x3FF, 0)

/-- LINK_DOWN for a place. -/
def State.linkDownTrap (s : State) (p : Place) : TrapInfo :=
  { cause := causeLinkDown, tinfo0 := (s.downLink p).1, tinfo1 := (s.downLink p).2 }

/-- Whether a link carries traffic now (R391). -/
def State.linkCarries (s : State) (id : Nat) : Bool := s.linkState id == .up || s.linkState id == .degraded

/-- Whether a peer's export table refuses this device an access (R401; log 1). -/
def State.peerRefuses (s : State) (p : Place) (n : Nat) : Bool :=
  match p with
  | .peer i a => s.fab.peerDeny.any (fun d => d.1 == i && d.2.1 ≤ (a + n - 1) / 4096 && a / 4096 ≤ d.2.2)
  | .host _ _ => false
  | .dev _ => false

/-- The place of an effective address; a peer page that targets the device itself is its own memory (R399). -/
def State.placeOf (s : State) (l : Leaf) (ea : Nat) : Place :=
  match l.place ea with
  | .peer i a => if i == s.fab.devId then .dev a else .peer i a
  | .dev a => .dev a
  | .host i a => .host i a

/-- Whether accesses to a place may be cached on a die: device pages with CACHE = 1 (R223). -/
def Leaf.cached (l : Leaf) : Bool := l.cls == 0 && l.cache

/-! ## Formats against declared types (R203, R204) -/

/-- What a declared type does on a page. -/
inductive FMode where
  | raw | decode | encode | reject
  deriving DecidableEq, Repr

/-- The width of a type of R72 in bytes. -/
def typeWidth (t : Nat) : Nat :=
  if t == 6 || t == 7 || t == 9 then 8
  else if t == 4 || t == 5 || t == 8 || t == 14 then 4
  else if t == 2 || t == 3 || t == 10 || t == 11 then 2
  else 1

/-- The element size of a page format in bytes; a nibble counts as 1. -/
def fmtWidth (f : Nat) : Nat := if f == 0 then 8 else if f == 1 then 4 else if f == 2 || f == 3 then 2 else 1

/-- Whether a page format's elements are nibbles. -/
def fmtNibble (f : Nat) : Bool := f == 7 || f == 9

/-- Whether a type moves raw bytes on a FORMAT page. -/
def fmtRaw (f t : Nat) (store : Bool) : Bool :=
  if f == 0 then t == 9 || t == 6 || t == 7
  else if f == 1 then t == 8 || t == 4 || t == 5
  else if f == 2 then t == 10 || t == 14 || t == 2 || t == 3
  else if f == 3 then t == 11 || t == 14 || t == 2 || t == 3
  else if f == 4 || f == 5 || f == 6 then t == 0 || t == 1
  else if f == 7 then false
  else t == 0 && !store

/-- Whether a load decodes a page format into a type. -/
def fmtDecodes (f t : Nat) : Bool :=
  if f == 0 then false
  else if f == 1 then t == 9
  else if f == 6 then t == 5
  else if f == 7 then t == 1 || t == 5
  else t == 8 || t == 9

/-- Whether a store encodes a type into a page format. -/
def fmtEncodes (f t : Nat) : Bool :=
  if f == 0 || f == 6 || f == 7 then false
  else if f == 1 then t == 9
  else t == 8 || t == 9

/-- The row of R203 for a leaf, a declared type and a direction. -/
def Leaf.mode (l : Leaf) (t : Nat) (store : Bool) : FMode :=
  if !l.format || fmtRaw l.fmt t store then .raw
  else if store then (if fmtEncodes l.fmt t then .encode else .reject)
  else if fmtDecodes l.fmt t then .decode else .reject

/-- The float format of a page format code. -/
def fmtFloat (f : Nat) : Fmt :=
  match f with
  | 0 => fmtF64
  | 1 => fmtF32
  | 2 => fmtBf16
  | 3 => fmtF16
  | 4 => fmtE4m3
  | _ => fmtE5m2

/-- The number of an element within its page: bytes, or nibbles for bx4. -/
def Leaf.elemNo (l : Leaf) (ea : Nat) (high : Bool) : Nat :=
  if l.fmt == 9 then 2 * (ea - l.base) + high.toNat else ea - l.base

/-- The elements of a 128-byte line of a bx page (C of R45). -/
def Leaf.lineElems (l : Leaf) : Nat := if l.fmt == 9 then 256 else 128

/-- The block of an element and its place in the block (R45). -/
def Leaf.block (l : Leaf) (n : Nat) : Nat × Nat :=
  if l.geom == 0 then (n / 32, n % 32)
  else
    let c := l.lineElems
    let line := n / c
    let off := n % c
    (line / 4 * (c / 8) + off / 8, line % 4 * 8 + off % 8)

/-- The address of a block's scale pair. -/
def Leaf.scaleAt (l : Leaf) (b : Nat) : Nat := l.sframe + 2 * b

/-- The register bits of a loaded element from its bytes, with the scale pair of its block (R203, R336, R339). -/
def Conv.apply (c : Conv) (raw n e0 e1 : Nat) : Nat :=
  match c with
  | .zext => raw
  | .sext => bitsOfInt 32 (intOfBits (8 * n) true raw)
  | .nibble high _ => bitsOfInt 32 (intOfBits 4 true (if high then raw / 16 else raw % 16))
  | .float f wide high _ =>
    let v := if f == 8 then bxDecode true e0 e1 raw
      else if f == 9 then bxDecode false e0 e1 (if high then raw / 16 else raw % 16)
      else (fmtFloat f).decode raw
    (fpRound (if wide then fmtF64 else fmtF32) 0 v).1

/-! ## Elements of an access -/

/-- An element's address before translation: the address it forms, and whether it names the high nibble. -/
structure Formed where
  elem : Nat
  va : Nat
  high : Bool
  width : Nat
  mode : FMode
  base : Option Leaf
  deriving DecidableEq, Repr

/-- An element whose address has translated. -/
structure Placed where
  elem : Nat
  ea : Nat
  leaf : Leaf
  place : Place
  high : Bool
  width : Nat
  mode : FMode
  deriving DecidableEq, Repr

/-- s[sbase] + sext(v[vidx][e]) × width, modulo 2^64 (R332). -/
def Iss.formAddr (c : Iss) (sb : Nat) (vi : Option Nat) (e width : Nat) : Nat :=
  let off : Int := match vi with
    | some r => (c.g.v r e).toInt * width
    | none => 0
  (((c.g.s sb).toNat + off) % (2 ^ 64 : Int)).toNat

/-- The leaf that a walk ends at. -/
def Walk.leaf? : Walk → Option Leaf
  | .leaf l _ => some l
  | .absent _ => none
  | .malformed _ => none
  | .noncanonical => none
  | .held _ => none

/-- The address of a table entry that a walk must wait for. -/
def Walk.held? : Walk → Option Nat
  | .held pa => some pa
  | .leaf _ _ => none
  | .absent _ => none
  | .malformed _ => none
  | .noncanonical => none

/-- The walk of an element's address, with its member's offset. -/
def Iss.walkOf (c : Iss) (e va : Nat) : Walk := (c.st.effective (some c.g.core) (dieOfCore c.g.core) c.ctx (e / 32) va).2.1

/-- The page of an element's address. -/
def Iss.pageOf (c : Iss) (e va : Nat) : Option Leaf := (c.walkOf e va).leaf?

/-- The wait of an instruction that looks at the pages of addresses, while one of their table entries is with a host. -/
def Iss.pagesWait (c : Iss) (a : Access) (xs : List (Nat × Nat)) : Option Eff :=
  (xs.findSome? (fun x => (c.walkOf x.1 x.2).held?)).map (fun pa => c.xStop .held a 0 pa 0 none 0)

/-- The leaf that fixes an element's width: that of s[sbase], with the element's member offset (R204). -/
def Iss.baseLeaf (c : Iss) (sb e : Nat) : Option Leaf := c.pageOf e (c.g.s sb).toNat

/-- A decoding or encoding access: page elements, nibbles numbered from 2 × s[sbase] (R204). -/
def Iss.formPage (c : Iss) (sb : Nat) (vi : Option Nat) (e : Nat) (l : Leaf) (m : FMode) : Formed :=
  if fmtNibble l.fmt then
    let i : Int := match vi with
      | some r => (c.g.v r e).toInt
      | none => 0
    let n := ((2 * (c.g.s sb).toNat + i) % (2 ^ 65 : Int)).toNat
    { elem := e, va := n / 2, high := n % 2 == 1, width := 1, mode := m, base := some l }
  else { elem := e, va := c.formAddr sb vi e (fmtWidth l.fmt), high := false, width := fmtWidth l.fmt, mode := m, base := some l }

/-- An element of ld, st or ld.hn as its instruction forms it: decoded or encoded where the page of s[sbase] makes the access one,
else as wide as its type, whatever that page is (R203, R204, R336). -/
def Iss.form (c : Iss) (sb : Nat) (vi : Option Nat) (t : Nat) (store : Bool) (e : Nat) : Formed :=
  let raw : Formed :=
    { elem := e, va := c.formAddr sb vi e (typeWidth t), high := false, width := typeWidth t, mode := .raw, base := none }
  match c.baseLeaf sb e with
  | none => raw
  | some l => match l.mode t store with
    | .decode => c.formPage sb vi e l .decode
    | .encode => c.formPage sb vi e l .encode
    | .raw => raw
    | .reject => raw

/-- The access word of R334. -/
def accessWord (a : Access) (t : Nat) (l : Option Leaf) (reason : Nat) : Nat :=
  a.code + t * 4 + (match l with
    | some x => (if x.format then x.fmt * 64 + 1024 else 0)
    | none => 0) + reason * 2048

/-- A trap that names the first of some elements and counts them. -/
def elemTrap (cause tinfo1 : Nat) (bad : List (Nat × Nat)) : Option Eff :=
  match bad with
  | [] => none
  | (e, a) :: _ => some (.trap { cause := cause, tinfo0 := a, tinfo1 := tinfo1, first := some e, nelem := bad.length })

/-- ALIGN_FAULT of elements: its access word gives the format of the first one's page (R334). -/
def Iss.alignTrap (c : Iss) (a : Access) (t reason : Nat) (bad : List (Nat × Nat)) : Option Eff :=
  match bad with
  | [] => none
  | (e, va) :: _ => (c.pagesWait a [(e, va)]).orElse (fun _ => elemTrap causeAlign (accessWord a t (c.pageOf e va) reason) bad)

/-- ALIGN_FAULT of an address that belongs to no element, with the format of its page; `e` gives the member whose page it is (R334). -/
def Iss.alignAt (c : Iss) (a : Access) (e va reason : Nat) : Eff :=
  (c.pagesWait a [(e, va)]).getD (.trap { cause := causeAlign, tinfo0 := va, tinfo1 := accessWord a 15 (c.pageOf e va) reason })

/-- Check 2 of R333: alignment. -/
def Iss.alignCheck (c : Iss) (a : Access) (t : Nat) (fs : List Formed) : Option Eff :=
  c.alignTrap a t 1 ((fs.filter (fun f => f.va % f.width != 0)).map (fun f => (f.elem, f.va)))

/-- Check 3: translation and permission; else the elements with their places. -/
def Iss.translateAll (c : Iss) (a : Access) (fs : List Formed) : Except Eff (List Placed) :=
  let xs := fs.map (fun f => (f, c.st.xlElem (some c.g.core) (dieOfCore c.g.core) c.ctx (f.elem / 32) f.va a))
  match c.xFail a (xs.map (fun p => (p.1.elem, p.2))) with
  | some e => .error e
  | none => .ok (xs.filterMap (fun p => match p.2 with
    | .ok ea l => some { elem := p.1.elem, ea := ea, leaf := l, place := c.st.placeOf l ea, high := p.1.high,
                         width := p.1.width, mode := p.1.mode }
    | .fail _ _ _ _ => none))

/-- What the translations of an instruction leave in the TLBs. -/
def Iss.fillAll (c : Iss) (s : State) (vas : List Nat) : State :=
  vas.foldl (fun s va => s.fillTlb (some c.g.core) (dieOfCore c.g.core) c.ctx va) s

/-- Check 4: a raw access needs an element's own page to admit its type raw, a decoding or encoding one the format of the page of
s[sbase] (R203, R204). -/
def formatCheck (a : Access) (t : Nat) (fs : List Formed) (ps : List Placed) : Option Eff :=
  let bad := (fs.zip ps).filter (fun x => match x.1.base with
    | some b => b.format != x.2.leaf.format || b.fmt != x.2.leaf.fmt
    | none => x.2.leaf.mode t (a == .write) != .raw)
  elemTrap causeFormat (accessWord a t (bad.head?.map (fun x => x.2.leaf)) 1) (bad.map (fun x => (x.2.elem, x.2.ea)))

/-- The sectors of device memory on CHECKED pages that elements touch. -/
def checkedSectors (ps : List Placed) : List (Placed × Nat) :=
  ps.flatMap (fun p => match p.place with
    | .dev pa => if p.leaf.checked then (sectorsOf pa p.width).map (fun k => (p, k)) else []
    | .peer _ _ => []
    | .host _ _ => [])

/-- Check 5: conflicts with live stamps of other groups (R254). -/
def Iss.mmxCheck (c : Iss) (k : StampKind) (ps : List Placed) : Option Eff :=
  let hits := (checkedSectors ps).filterMap (fun x =>
    (c.st.conflict c.ctx c.g.core c.g.slot x.2 k).map (fun t => (x.1, t)))
  match hits with
  | [] => none
  | (p, t) :: _ =>
    let n := ((hits.map (fun h => h.1.elem)).eraseDups).length
    some (.trap
      { cause := causeMmx, tinfo0 := p.ea / 16 * 16, tinfo1 := conflictWord k t, first := some p.elem, nelem := n })

/-- Whether some stamp of an access has no place (R256): the stamps go in one after the other. -/
def Iss.stampFull (c : Iss) (k : StampKind) (ps : List Placed) : Bool :=
  ((checkedSectors ps).foldl (fun (acc : State × Bool) x =>
    (acc.1.addStamp c.ctx c.g.core c.g.slot x.2 k, acc.2 || (match acc.1.placing c.ctx c.g.core c.g.slot x.2 k with
      | .full => true
      | .at _ => false
      | .have => false))) (c.st, false)).2

/-- The forced fence of R256: the group's confirmed watch entries free (R234), its region closes and MMXCNT counts it. -/
def Iss.forcedFence (c : Iss) : Iss :=
  let g := { c.g.freeConfirmed with mmxcnt := c.g.mmxcnt + 1 }
  { c with g := g, st := (c.st.closeRegion g.core g.slot).putGroup g }

/-- The stamps of an access placed, and the holders of its CHECKED lines (R244, R253): a line without a holder is fetched where
R223 has it fetched, not for a page with CACHE = 0 nor for an atomic at a bank ALU (`bank`). -/
def State.stampAll (s : State) (ctx core slot : Nat) (k : StampKind) (bank : Bool) (ps : List Placed) : State :=
  (checkedSectors ps).foldl (fun s x =>
    let n := x.2 / 8
    let s1 := if x.1.leaf.cache && !bank && (s.line n).holder.isNone then s.takeLine (dieOfCore core) n else s
    s1.addStamp ctx core slot x.2 k) s

/-- What the stamps of an access wait for: their lines as any access to them (R226, R228). -/
def State.stampGate (s : State) (ps : List Placed) : Option State :=
  s.devGates (ps.filterMap (fun p => match p.place with
    | .dev pa => if p.leaf.checked then some (pa, p.width) else none
    | .peer _ _ => none
    | .host _ _ => none))

/-- Routes of the elements in peer and host memory (R402). -/
def Iss.routeCheck (c : Iss) (ps : List Placed) : Option Eff :=
  match ps.find? (fun p => !c.st.routeOpen p.place) with
  | some p => some (.trap (c.st.linkDownTrap p.place))
  | none => none

/-- Whether a place lies off the device. -/
def Place.remote : Place → Bool
  | .dev _ => false
  | .peer _ _ => true
  | .host _ _ => true

/-- The last check and what it allows: the access is made with its stamps placed, after a forced fence where one is
needed. A forced fence waits like fence.full.wg; until then the access does not issue. -/
def Iss.withStamps (c : Iss) (k : StampKind) (bank : Bool) (ps : List Placed) (body : Iss → Eff) : Eff :=
  match c.mmxCheck k ps with
  | some e => e
  | none =>
    match c.routeCheck ps with
    | some e => e
    | none =>
      match c.st.stampGate ps with
      | some s => c.gated s
      | none =>
        if c.stampFull k ps then
          if c.g.watching .pending || c.g.releaseWaits 2 then .stall
          else
            let d := c.forcedFence
            body { d with st := d.st.stampAll c.ctx c.g.core c.g.slot k bank ps }
        else body { c with st := c.st.stampAll c.ctx c.g.core c.g.slot k bank ps }

/-- The checks 2 to 5 of R333 for ld, st and ld.hn, then the access. `extra` belongs to the format check. -/
def Iss.checked (c : Iss) (a : Access) (t sb : Nat) (vi : Option Nat) (stamp : Option StampKind)
    (extra : List Placed → Option Eff) (body : Iss → List Placed → Eff) : Eff :=
  let fs := c.elems.map (fun e => c.form sb vi t (a == .write) e)
  match (c.pagesWait a (c.elems.map (fun e => (e, (c.g.s sb).toNat)))).orElse (fun _ => c.alignCheck a t fs) with
  | some e => e
  | none =>
    match c.translateAll a fs with
    | .error e => e
    | .ok ps =>
      match (formatCheck a t fs ps).orElse (fun _ => extra ps) with
      | some e => e
      | none =>
        let d := { c with st := c.fillAll c.st ((c.g.s sb).toNat :: ps.map (·.ea)) }
        match stamp with
        | some k => d.withStamps k false ps (fun i => body i ps)
        | none => match c.routeCheck ps with
          | some e => e
          | none => body d ps

/-! ## Own accesses under way (R246, R247) -/

/-- Bytes of a group's own earlier writes laid over bytes read at a place. -/
def overlayBytes (p : Place) (bs : List Byte) (w : Place) (ws : List Byte) : List Byte :=
  let mix := fun (a b : Nat) => (List.range bs.length).map (fun i =>
    if b ≤ a + i && a + i < b + ws.length then ws.getD (a + i - b) 0 else bs.getD i 0)
  match p, w with
  | .dev a, .dev b => mix a b
  | .peer i a, .peer j b => if i == j then mix a b else bs
  | .host i a, .host j b => if i == j then mix a b else bs
  | _, _ => bs

/-- The writes of a group that are earlier than a program-order number, oldest first, those already sent before those
that are not. -/
def Group.writesBefore (g : Group) (seq : Nat) : List (Place × List Byte) :=
  (g.sent.filter (fun w => w.cmd.isNone)).map (fun w => (w.place, w.bytes)) ++
  (g.stores.filter (fun e => e.seq < seq)).flatMap (fun e => e.elems.map (fun x => (x.place, x.bytes)))

/-- Whether two places overlap. -/
def Place.meets (p : Place) (n : Nat) (q : Place) (k : Nat) : Bool :=
  match p, q with
  | .dev a, .dev b => overlaps a n b k
  | .peer i a, .peer j b => i == j && overlaps a n b k
  | .host i a, .host j b => i == j && overlaps a n b k
  | _, _ => false

/-- A die's copy of a peer line, while it may still be read (R247). -/
def State.peerCopy? (s : State) (die peer line : Nat) : Option PeerCopy :=
  s.ms.peerCopies.find? (fun q => q.die == die && q.peer == peer && q.line == line && s.clock (.die die) - q.since < 2 ^ 20)

/-- A byte of a peer as a die sees it: its copy's, else the peer's. -/
def State.peerByte (s : State) (die peer a : Nat) : Byte :=
  match s.peerCopy? die peer (a / 128) with
  | some q => q.bytes.getD (a % 128) 0
  | none => (s.peerOf peer).read a

/-- The bytes at a place as a core of a die sees them before its group's own writes: its view of device memory, its
die's copies of peer lines or the peer, the lines of a host that a die holds or the host. -/
def State.viewRead (s : State) (core : Nat) (p : Place) (n : Nat) : List Byte :=
  match p with
  | .dev a => s.coreRead core a n
  | .peer i a => (List.range n).map (fun k => s.peerByte (dieOfCore core) i (a + k))
  | .host i a => (List.range n).map (fun k => s.hostByte i (a + k))

/-- The bytes a read of a group returns: the view under its own earlier writes (R246). -/
def State.groupRead (s : State) (g : Group) (seq : Nat) (p : Place) (n : Nat) : List Byte :=
  (g.writesBefore seq).foldl (fun bs w => overlayBytes p bs w.1 w.2) (s.viewRead g.core p n)

/-- The scale pair of an element's block as a read of the group sees it; unused where the conversion has none. -/
def State.scalePair (s : State) (g : Group) (seq : Nat) (c : Conv) : Nat × Nat :=
  match c with
  | .float f _ _ at' => if f == 8 || f == 9 then
      (leNat (s.groupRead g seq (.dev at') 1), leNat (s.groupRead g seq (.dev (at' + 1)) 1)) else (0, 0)
  | .zext => (0, 0)
  | .sext => (0, 0)
  | .nibble _ _ => (0, 0)

/-- The place of the scale pair of a conversion that has one. -/
def Conv.scale? : Conv → Option Place
  | .float f _ _ at' => if f == 8 || f == 9 then some (.dev at') else none
  | .zext => none
  | .sext => none
  | .nibble _ _ => none

/-- The bytes that an element of a load reads: its own, and its block's scale pair (R46, R245). -/
def LoadElem.touches (x : LoadElem) : List (Place × Nat) := (x.place, x.n) :: (x.conv.scale?.map (fun p => (p, 2))).toList

/-- The line number of a place. -/
def Place.lineNo : Place → Nat
  | .dev a => a / 128
  | .peer _ a => a / 128
  | .host _ a => a / 128

/-- The bytes of a place and its continuation in a second page. -/
def State.spanRead (s : State) (p : Place) (rest : Option (Nat × Place)) (n : Nat) : List Byte :=
  match rest with
  | none => s.placeRead p n
  | some (k, q) => s.placeRead p k ++ s.placeRead q (n - k)

/-- The pieces of an access of n bytes: its place, or two places. -/
def spanPieces (p : Place) (rest : Option (Nat × Place)) (n : Nat) : List (Place × Nat) :=
  match rest with
  | none => [(p, n)]
  | some (k, q) => [(p, k), (q, n - k)]

/-- The chunks of memory that an ME operation reads or writes. -/
def MeWork.chunks : MeWork → List (Place × Nat)
  | .tld _ _ rows scales => rows.flatten.map (fun c => (c.place, c.n)) ++ scales.flatten.map (fun p => (p.2.place, p.2.n))
  | .acld _ _ rows => rows.flatten.map (fun c => (c.place, c.n))
  | .acst _ _ rows => rows.flatten.map (fun c => (c.place, c.n))
  | .xld _ _ cs => cs.map (fun c => (c.place, c.n))
  | .xst _ _ cs => cs.map (fun c => (c.place, c.n))
  | .tzero _ => []
  | .abzero _ => []
  | .mma _ _ _ _ _ _ _ _ => []
  | .mred _ _ _ _ => []
  | .xinit _ _ => []
  | .xadd _ _ _ _ => []
  | .xaddp _ _ _ => []
  | .xmerge _ _ _ _ => []
  | .xround _ _ _ _ _ _ => []

/-- An earlier atomic, or ME access, that is not performed and touches n bytes at a place: nothing after it to the same
bytes goes first (R246, R259). A red on its way to a peer counts too. -/
def Group.updateBefore (g : Group) (seq : Nat) (p : Place) (n : Nat) : Bool :=
  g.atoms.any (fun a => decide (a.seq < seq) && a.elems.any (fun x => x.value.isNone &&
    (spanPieces x.place x.rest (atomWidth a.op)).any (fun q => p.meets n q.1 q.2))) ||
  g.meq.any (fun m => decide (m.seq < seq) && m.work.chunks.any (fun q => p.meets n q.1 q.2)) ||
  g.sent.any (fun w => match w.red with
    | some (op, _) => (spanPieces w.place w.rest (atomWidth op)).any (fun q => p.meets n q.1 q.2)
    | none => false)

/-- The bytes that a sent write changes. -/
def SentWrite.pieces (w : SentWrite) : List (Place × Nat) :=
  match w.red with
  | some (op, _) => spanPieces w.place w.rest (atomWidth op)
  | none => [(w.place, w.bytes.length)]

/-- An earlier load that has not its value and touches n bytes at a place. -/
def Group.loadBefore (g : Group) (seq : Nat) (p : Place) (n : Nat) : Bool :=
  g.loads.any (fun l => decide (l.seq < seq) && l.elems.any (fun x => x.value.isNone && x.touches.any (fun q => p.meets n q.1 q.2)))

/-- An earlier store that is not applied and touches n bytes at a place. -/
def Group.storeBefore (g : Group) (seq : Nat) (p : Place) (n : Nat) : Bool :=
  g.stores.any (fun e => decide (e.seq < seq) && e.elems.any (fun x => p.meets n x.place x.bytes.length))

/-- Whether a write that the group has sent touches n bytes at a place. -/
def Group.sentOver (g : Group) (p : Place) (n : Nat) : Bool :=
  g.sent.any (fun w => w.cmd.isNone && w.pieces.any (fun q => p.meets n q.1 q.2))

/-- Whether two accesses are of one element; an access without an element is every element's. -/
def sameElem (a b : Option Nat) : Bool := a.isNone || b.isNone || a == b

/-- Whether an element of the group has an earlier access that is not performed; the accesses of the ME are every element's
(R246, R259). -/
def Group.elemBefore (g : Group) (seq : Nat) (elem : Option Nat) : Bool :=
  g.loads.any (fun l => decide (l.seq < seq) && l.elems.any (fun x => sameElem elem (some x.elem) && x.value.isNone)) ||
  g.stores.any (fun e => decide (e.seq < seq) && e.elems.any (fun x => sameElem elem (some x.elem))) ||
  g.atoms.any (fun a => decide (a.seq < seq) && a.elems.any (fun x => sameElem elem (some x.elem) && x.value.isNone)) ||
  g.meq.any (fun m => decide (m.seq < seq) && m.work.accesses)

/-- Whether a write that an element has sent is still on its way (R246). -/
def Group.sentElem (g : Group) (elem : Option Nat) : Bool := g.sent.any (fun w => w.cmd.isNone && sameElem elem w.elem)

/-- Whether a die holds the host line of an address (R230). -/
def State.holdsHost (s : State) (port addr : Nat) : Bool := s.ms.hostLines.any (fun h => h.port == port && h.line == addr / 64)

/-- Whether all of n bytes at a place are sent on a link. -/
def State.goesOver (s : State) (p : Place) (n link : Nat) : Bool :=
  match p with
  | .dev _ => false
  | .peer i a => (linesOf a n).all (fun l => s.placeLink (.peer i (128 * l)) == some link)
  | .host i a => s.placeLink p == some link && (linesOf a n).all (fun l => !s.holdsHost i (128 * l) && !s.holdsHost i (128 * l + 64))

/-- Whether a write that an element has sent is still on its way where a write to a place would not go behind it on the same link
(R246, R392). -/
def State.sentBefore (s : State) (g : Group) (elem : Option Nat) (p : Place) (n : Nat) : Bool :=
  g.sent.any (fun w => w.cmd.isNone && sameElem elem w.elem && !s.goesOver p n w.link)

/-- Whether a PENDING watch entry of the group names a line (R262). -/
def Group.watchesLine (g : Group) (p : Place) : Bool :=
  match p with
  | .dev a => g.watch.any (fun e => e.st == .pending && e.lines.any (fun w => w.line == a / 128))
  | .peer _ _ => false
  | .host _ _ => false

/-- Whether a read of the group may be performed now (R246). -/
def Group.mayRead (g : Group) (seq : Nat) (p : Place) (n : Nat) : Bool :=
  !g.loadBefore seq p n && !g.updateBefore seq p n

/-- Whether a write or atomic of an element may be performed now (R246, R262). -/
def Group.mayWrite (g : Group) (seq : Nat) (elem : Option Nat) (p : Place) (n : Nat) : Bool :=
  !g.loadBefore seq p n && !g.updateBefore seq p n && !g.storeBefore seq p n && !g.elemBefore seq elem &&
    !g.watchesLine p

/-- Whether a write or atomic of an element may be performed now, what its group has sent included. -/
def State.mayWrite (s : State) (g : Group) (seq : Nat) (elem : Option Nat) (p : Place) (n : Nat) : Bool :=
  g.mayWrite seq elem p n && !s.sentBefore g elem p n

/-- Whether a read of peer memory waits: its die has no copy of the bytes any more, and a write of another group of the die to them,
which a copy may have shown, is on its way to the peer (R243, R247). -/
def State.peerWaits (s : State) (g : Group) (p : Place) (n : Nat) : Bool :=
  match p with
  | .dev _ => false
  | .host _ _ => false
  | .peer i a =>
    !(linesOf a n).all (fun l => (s.peerCopy? (dieOfCore g.core) i l).isSome) &&
    s.sched.groups.any (fun h => dieOfCore h.core == dieOfCore g.core && !(h.core == g.core && h.slot == g.slot) &&
      h.sent.any (fun w => w.cmd.isNone && w.pieces.any (fun q => p.meets n q.1 q.2)))

/-- Whether a core rotates: a workgroup of a Drydown context is resident on it (R99). -/
def State.rotating (s : State) (core : Nat) : Bool :=
  s.sched.groups.any (fun g => g.core == core && g.slot < 32 && g.saved.isNone && (match s.launchOf g with
    | some l => s.drydown l.ctx
    | none => false))

/-- Under rotation, whether an atomic of another group of the core to the same bytes was issued before a cycle and is
not performed, or a red of one is on its way to a peer or host (R100). -/
def State.rotationWaits (s : State) (core slot cycle : Nat) (p : Place) (n : Nat) : Bool :=
  s.rotating core && s.sched.groups.any (fun g => g.core == core && g.slot != slot && (g.atoms.any (fun a =>
    decide (a.cycle < cycle) && a.elems.any (fun x => x.value.isNone &&
      (spanPieces x.place x.rest (atomWidth a.op)).any (fun q => p.meets n q.1 q.2))) ||
    g.sent.any (fun w => w.red.isSome && w.pieces.any (fun q => p.meets n q.1 q.2))))

/-- A fatal error that a group meets (R91): its region is fenced. -/
def State.groupFatal (s : State) (g : Group) (kind addr : Nat) : State :=
  match s.launchOf g with
  | some l => s.fatalRegion l.ctx l.region kind addr
  | none => s

/-- The state after a blocked group's instruction has completed: the PC past it, as any completed instruction. -/
def State.unblock (s : State) (g : Group) (which : Nat) : State :=
  let s1 := s.putGroup { (g.advance which 4).stamp which with blocked := none }
  let s2 := match s1.wg? g.unit g.wg with
    | some w => s1.putWg { w with started := true }
    | none => s1
  match s2.launchOf g with
  | some l => s2.mapCtx l.ctx (fun x => { x with hang := 0 })
  | none => s2

/-- A trap of a blocked group, at the instruction that waits (R401, R402). -/
def State.blockedTrap (s : State) (g : Group) (which : Nat) (t : TrapInfo) : State :=
  let g1 := { g with blocked := none }
  if g.st == .held then
    s.putGroup { (g1.trapState which t) with pendTrap := true }
  else (s.putGroup g1).takeTrap g1 which t

end Sys2Proof.Machine
end

