-- ==== Sys2Proof/Machine/LoadStore.lean ====
section
/-! DEFINITION. ld, st, lds, sts, the fences, pfetch and llcflush (R336 to R340, R347 to R349), with the events in which
their accesses are performed: loads returning and stores applied at their serving copies (R221 to R223, R246). -/

namespace Sys2Proof.Machine

/-! ## Loads (R336, R337) -/

/-- How a loaded element becomes register bits. -/
def Placed.conv (p : Placed) (t : Nat) : Conv :=
  if p.mode == .decode then
    (if p.leaf.fmt == 6 then .sext
     else if p.leaf.fmt == 7 then .nibble p.high false
     else .float p.leaf.fmt (t == 9) p.high
       (if p.leaf.isBx then p.leaf.scaleAt (p.leaf.block (p.leaf.elemNo p.ea p.high)).1 else 0))
  else if t == 1 || t == 3 then .sext
  else .zext

/-- The load of a placed element, not yet performed. -/
def Placed.load (p : Placed) (t : Nat) : LoadElem :=
  { elem := p.elem, va := p.ea, place := p.place, n := p.width, cache := p.leaf.cache, conv := p.conv t, value := none }

/-- The value of an element performed now. -/
def State.loadValue (s : State) (g : Group) (seq : Nat) (x : LoadElem) : Nat :=
  let e := s.scalePair g seq x.conv
  x.conv.apply (leNat (s.groupRead g seq x.place x.n)) x.n e.1 e.2

/-- A line of a host that a CXL.cache port lets the die hold, fetched for an access to a page with CACHE = 1 (R230). -/
def State.fetchHost (s : State) (die port addr : Nat) : State :=
  let ok := s.mgmt.ports.any (fun p => p.id == port && (match p.mode with
    | .cxl c _ => c
    | .pcie => false))
  if !ok || s.ms.hostLines.any (fun h => h.port == port && h.line == addr / 64) then s
  else
    let s := s.l2Room die
    let h : HostLine := { die := die, port := port, line := addr / 64, bytes := (s.hostOf port).readN (addr / 64 * 64) 64,
                          modified := false }
    { s with ms := { s.ms with hostLines := s.ms.hostLines ++ [h] } }

/-- Whether a write of a group of a die to a peer line is on its way to the peer. -/
def State.peerSending (s : State) (die peer line : Nat) : Bool :=
  s.sched.groups.any (fun h => dieOfCore h.core == die && h.sent.any (fun w => w.pieces.any (fun q =>
    (Place.peer peer (128 * line)).meets 128 q.1 q.2)))

/-- A copy of a peer line that a die keeps (R247); none while a write of the die to the line is on its way, which the copy would
miss. A copy that is too old to be read is replaced. -/
def State.keepPeer (s0 : State) (die peer line : Nat) : State :=
  if (s0.peerCopy? die peer line).isSome || s0.peerSending die peer line then s0
  else
    let s := ({ s0 with ms := { s0.ms with peerCopies := s0.ms.peerCopies.filter (fun q =>
      !(q.die == die && q.peer == peer && q.line == line)) } } : State).l2Room die
    let q : PeerCopy := { die := die, peer := peer, line := line, bytes := (s.peerOf peer).readN (128 * line) 128,
                          since := s.clock (.die die) }
    { s with ms := { s.ms with peerCopies := s.ms.peerCopies ++ [q] } }

/-- What a read leaves in the caches: holder and sharers, a peer copy, a host line. -/
def State.readCaches (s : State) (core : Nat) (p : Place) (cache : Bool) : State :=
  match p with
  | .dev a => s.readTouch core (a / 128) cache
  | .peer i a => if cache then s.keepPeer (dieOfCore core) i (a / 128) else s
  | .host i a => if cache then s.fetchHost (dieOfCore core) i a else s

/-- The same for a read of n bytes that may lie in several lines. -/
def State.readSpan (s : State) (core : Nat) (p : Place) (n : Nat) (cache : Bool) : State :=
  match p with
  | .dev a => (linesOf a n).foldl (fun s l => s.readCaches core (.dev (128 * l)) cache) s
  | .peer i a => (linesOf a n).foldl (fun s l => s.readCaches core (.peer i (128 * l)) cache) s
  | .host i a => (List.range ((a + n - 1) / 64 - a / 64 + 1)).foldl (fun s k => s.readCaches core (.host i (64 * (a / 64 + k))) cache) s

/-- Whether a place's bytes are poisoned. -/
def State.poisonAt (s : State) (p : Place) (n : Nat) : Bool :=
  match p with
  | .dev a => s.anyPoison a n
  | .peer _ _ => false
  | .host _ _ => false

/-- What an access to a place must wait for: the dies' answers to a shadow kill (the state as it is), or the host half
that it must take back first (R228). -/
def State.placeGate (s : State) (p : Place) (n : Nat) : Option State :=
  match p with
  | .dev a => s.devGate a n
  | .peer _ _ => none
  | .host _ _ => none

/-- Whether an element of a load may be performed now. -/
def LoadElem.ready (x : LoadElem) (g : Group) (seq : Nat) : Bool := x.touches.all (fun q => g.mayRead seq q.1 q.2)

/-- What an element of a load waits for. -/
def State.elemGate (s : State) (x : LoadElem) : Option State := x.touches.findSome? (fun q => s.placeGate q.1 q.2)

/-- Elements on CHECKED pages read at the moment their stamps are placed (R253): their values now; none while an earlier
access to their bytes is under way. -/
def Iss.performChecked (c : Iss) (xs : List (Placed × LoadElem)) : Option (List LoadElem) :=
  if xs.any (fun p => p.1.leaf.checked && !p.2.ready c.g c.g.seq) then none
  else some (xs.map (fun p =>
    if p.1.leaf.checked then { p.2 with value := some (c.st.loadValue c.g c.g.seq p.2) } else p.2))

/-- A load issued: its elements wait for their values; a load from a peer or a host holds the group (R402). -/
def Iss.startLoad (c : Iss) (t d : Nat) (ps : List Placed) : Eff :=
  let xs := ps.map (fun p => (p, p.load t))
  match xs.find? (fun p => p.1.leaf.checked && c.st.poisonAt p.2.place p.2.n) with
  | some p => .waits (c.st.groupFatal c.g 5 (p.1.place.lineNo * 128))
  | none =>
    match c.performChecked xs with
    | none => .stall
    | some elems =>
      let entry : LoadEntry := { seq := c.g.seq, dst := d, pair := typeWidth t == 8, slot := c.which, elems := elems }
      let g := { c.g with loads := c.g.loads ++ [entry], seq := c.g.seq + 1 }
      if ps.any (fun p => p.place.remote) then .waits (c.st.putGroup { g with blocked := some entry.seq })
      else c.done g

/-- What a load of CHECKED pages waits for before its stamps are placed, its scale pairs included (R228, R253). -/
def Iss.loadGate (c : Iss) (t : Nat) (ps : List Placed) : Option Eff :=
  (ps.findSome? (fun p => if p.leaf.checked then c.st.elemGate (p.load t) else none)).map c.gated

/-- ld. -/
def execLd (t : Fin 16) (d : Fin 128) (b : Fin 64) (i : Option (Fin 128)) (s : State) :
    Host.Outcome State Fault Refusal :=
  runInstr s ([if typeWidth t == 8 then opWd 11 d else opVd 11 d, opS 18 b] ++ (i.map (fun r => opV 24 r.val)).toList)
    fun c => c.checked .read t b (i.map (·.val)) (some .read) (c.loadGate t) (fun k ps => k.startLoad t d ps)

/-- A load whose last value has come: registers written, the entry gone, a blocked group released. -/
def State.finishLoad (s : State) (g : Group) (l : LoadEntry) (elems : List LoadElem) : State :=
  let m := maskOf (elems.map (·.elem))
  let f := fun e => match elems.find? (fun x => x.elem == e) with
    | some x => x.value.getD 0
    | none => 0
  let g1 := { g with loads := g.loads.filter (fun k => k.seq != l.seq) }
  let g2 := if l.pair then g1.setV64 l.dst m (fun e => BitVec.ofNat 64 (f e))
    else g1.setV l.dst m (fun e => BitVec.ofNat 32 (f e))
  if g.blocked == some l.seq then s.unblock g2 l.slot else s.putGroup g2

/-- A load dropped without effect. -/
def State.dropLoad (s : State) (g : Group) (l : LoadEntry) : State :=
  s.putGroup { g with loads := g.loads.filter (fun k => k.seq != l.seq) }

/-- The elements of a load that a line's return performs. -/
def LoadElem.due (x : LoadElem) (line : Nat) : Bool := x.value.isNone && x.place.lineNo == line

/-- The trap of a blocked load or atom whose far side cannot be reached, or refuses some of its elements (element,
address, place, bytes); none where it goes on (R401, R402). -/
def State.farTrap (s : State) (xs : List (Nat × Nat × Place × Nat)) (a : Access) : Option TrapInfo :=
  match xs.find? (fun x => x.2.2.1.remote && (s.placeLink x.2.2.1).isNone) with
  | some x => some (s.linkDownTrap x.2.2.1)
  | none =>
    match xs.filter (fun x => s.peerRefuses x.2.2.1 x.2.2.2) with
    | [] => none
    | x :: more => some (xTrap .perm a x.2.1 0 0 (some x.1) (more.length + 1))

/-- The elements of a load as farTrap takes them. -/
def LoadEntry.far (l : LoadEntry) : List (Nat × Nat × Place × Nat) := l.elems.map (fun x => (x.elem, x.va, x.place, x.n))

/-- Whether the link toward a place carries traffic now; device memory needs none. -/
def State.reachable (s : State) (p : Place) : Bool :=
  !p.remote || (match s.placeLink p with
    | some l => s.linkCarries l
    | none => false)

/-- One line of a load: the elements due there performed. -/
def State.performLine (s : State) (g : Group) (l : LoadEntry) (line : Nat) : State :=
  let due := l.elems.filter (fun x => x.due line)
  let elems := l.elems.map (fun x => if x.due line then { x with value := some (s.loadValue g l.seq x) } else x)
  let s1 := due.foldl (fun s x => s.readCaches g.core x.place x.cache) s
  if elems.all (fun x => x.value.isSome) then s1.finishLoad g l elems
  else s1.putGroup { g with loads := g.loads.map (fun k => if k.seq == l.seq then { k with elems := elems } else k) }

/-- LOAD_RETURN: the elements of the k-th load of a group in one line get their values from the line's serving copy
(R243, R246). A host half in the way is called back first; poison is fatal to the region; a lost route or a refusal
traps. -/
def execLoadReturn (core slot k line : Nat) (s : State) : Host.Outcome State Fault Refusal :=
  eventOf s "LOAD_RETURN"
    (match s.group? core slot with
     | none => none
     | some g => match g.loads[k]? with
       | none => none
       | some l =>
         let due := l.elems.filter (fun x => x.due line)
         if (due.isEmpty && l.elems.any (fun x => x.value.isNone)) || !l.elems.any (fun x => x.place.lineNo == line) ||
             due.any (fun x => !x.ready g l.seq) then none
         else
           match (if due.any (fun x => x.place.remote) then s.farTrap l.far .read else none) with
           | some t => some ((s.dropLoad g l).blockedTrap { g with loads := g.loads.filter (fun j => j.seq != l.seq) } l.slot t)
           | none =>
             if due.any (fun x => !s.reachable x.place || s.peerWaits g x.place x.n) then none
             else match due.findSome? s.elemGate with
               | some s' => if s' == s then none else some s'
               | none =>
                 match due.find? (fun x => s.poisonAt x.place x.n) with
                 | some x => some ((s.dropLoad g l).groupFatal g 5 (x.place.lineNo * 128))
                 | none => some (s.performLine g l line))
    (fun s' => s')

/-! ## Stores (R336 to R338) -/

/-- The register bits that a store takes for an element. -/
def Iss.storeBits (c : Iss) (t d e : Nat) : Nat :=
  if typeWidth t == 8 then (c.g.v64 d e).toNat else (c.g.v d e).toNat % 2 ^ (8 * typeWidth t)

/-- The block of a bx page that an element names: page, block, position. -/
def Placed.blockOf (p : Placed) : Nat × Nat × Nat :=
  let b := p.leaf.block (p.leaf.elemNo p.ea p.high)
  (p.leaf.base, b.1, b.2)

/-- The element that names a position of a block: the one of highest index. -/
def blockElem (ps : List Placed) (page block pos : Nat) : Option Placed :=
  (ps.filter (fun p => p.blockOf == (page, block, pos))).getLast?

/-- The blocks that a store touches. -/
def touchedBlocks (ps : List Placed) : List (Nat × Nat) :=
  ((ps.filter (fun p => p.mode == .encode && p.leaf.isBx)).map (fun p => (p.blockOf.1, p.blockOf.2.1))).eraseDups

/-- The 32 elements of a block, if the store names every position. -/
def fullBlock (ps : List Placed) (b : Nat × Nat) : Option (List Placed) :=
  let xs := (List.range 32).filterMap (fun i => blockElem ps b.1 b.2 i)
  if xs.length == 32 then some xs else none

/-- FORMAT_FAULT of a store that covers part of a block (R338). -/
def partialBlocks (a : Access) (t : Nat) (ps : List Placed) : Option Eff :=
  let broken := (touchedBlocks ps).filter (fun b => (fullBlock ps b).isNone)
  let bad := ps.filter (fun p => p.mode == .encode && p.leaf.isBx && broken.contains (p.blockOf.1, p.blockOf.2.1))
  elemTrap causeFormat (accessWord a t (bad.head?.map (·.leaf)) 2) (bad.map (fun p => (p.elem, p.ea)))

/-- The write of a placed element. -/
def Placed.store (p : Placed) (place : Place) (bytes : List Byte) : StoreElem :=
  { elem := p.elem, place := place, bytes := bytes, cache := p.leaf.cache, checked := p.leaf.checked, arrived := true }

/-- The writes of one block and its scale pair: bx_encode of R47 (R46). -/
def encodeBlock (bits : Placed → Nat) (wide : Bool) (xs : List Placed) : List StoreElem × Flags :=
  match xs with
  | [] => ([], 0)
  | p :: _ =>
    let narrow := xs.map (fun x => if wide then floatToFloat fmtF64 fmtF32 0 (bits x) else (bits x, 0))
    let is8 := p.leaf.fmt == 8
    let (e0, e1, codes, fl) := bxEncode is8 (narrow.map (·.1))
    let pairs := xs.zip codes
    let data := if is8 then pairs.map (fun q => q.1.store q.1.place (leBytes 1 q.2))
      else (pairs.filter (fun q => !q.1.high)).map (fun q =>
        let hi := match pairs.find? (fun r => r.1.high && r.1.ea == q.1.ea) with
          | some r => r.2
          | none => 0
        q.1.store q.1.place (leBytes 1 (q.2 + 16 * hi)))
    (data ++ [p.store (.dev (p.leaf.scaleAt p.blockOf.2.1)) (leBytes 1 e0 ++ leBytes 1 e1)],
      fl ||| orAll (narrow.map (·.2)))

/-- The writes of a store, ascending in element index, and the flags its encoders set (R203, R37). -/
def storeWrites (t : Nat) (bits : Placed → Nat) (ps : List Placed) : List StoreElem × Flags :=
  let wide := t == 9
  let plain := (ps.filter (fun p => !(p.mode == .encode && p.leaf.isBx))).map (fun p =>
    if p.mode == .encode then
      let r := floatToFloat (if wide then fmtF64 else fmtF32) (fmtFloat p.leaf.fmt) 0 (bits p)
      (p.store p.place (leBytes p.width r.1), r.2)
    else (p.store p.place (leBytes p.width (bits p)), (0 : Flags)))
  let blocks := (touchedBlocks ps).map (fun b => encodeBlock bits wide ((fullBlock ps b).getD []))
  (plain.map (·.1) ++ blocks.flatMap (·.1), orAll (plain.map (·.2) ++ blocks.map (·.2)))

/-- The elevator router of a die that its traffic takes: the lowest that is not retired or retiring (R394). -/
def State.routerOf (s : State) (die : Nat) : Nat :=
  ((List.range 4).find? (fun r => s.linkState (0x100 + 4 * die + r) != .retired &&
    !s.fab.drains.any (fun d => d.router == 4 * die + r))).getD 0 + 4 * die

/-- A packet put into the retry buffer of its source and destination (R395). -/
def State.sendPacket (s : State) (src dst : Nat) (p : Packet) : State :=
  let flow := match s.fab.flows.find? (fun f => f.src == src && f.dst == dst) with
    | some f => f
    | none => { id := src * 128 + dst, src := src, dst := dst, next := 0, expected := 0, unacked := [] }
  let flow1 := { flow with next := flow.next + 1, unacked := flow.unacked ++ [{ p with seq := flow.next }] }
  { s with fab := { s.fab with flows := s.fab.flows.filter (fun f => f.id != flow.id) ++ [flow1] } }

/-- Whether a write of a core to a line leaves its die: another die holds it, or none does and the page is not cached
(R223). -/
def State.leavesDie (s : State) (core line : Nat) (cache : Bool) : Bool :=
  match (s.line line).holder with
  | some d => d != dieOfCore core
  | none => !cache

/-- The lines of device memory whose writes leave the die of the group, each as a packet to its LLC home slice. -/
def offDieLines (s : State) (core : Nat) (ws : List StoreElem) : List Nat :=
  (ws.filterMap (fun w => match w.place with
    | .dev a => if s.leavesDie core (a / 128) w.cache then some (a / 128) else none
    | .peer _ _ => none
    | .host _ _ => none)).eraseDups

/-- Packets of a store's lines sent. -/
def State.sendLines (s : State) (g : Group) (seq : Nat) (lines : List Nat) : State :=
  let die := dieOfCore g.core
  lines.foldl (fun s n => s.sendPacket die (llcSliceOf (128 * n))
    { seq := 0, via := s.routerOf die, core := g.core, slot := g.slot, store := seq, line := n }) s

/-- A store issued: its writes wait to be applied. -/
def Iss.startStore (c : Iss) (t d : Nat) (ps : List Placed) : Eff :=
  let (ws, fl) := storeWrites t (fun p => c.storeBits t d p.elem) ps
  let off := offDieLines c.st c.g.core ws
  let ws1 := ws.map (fun w => { w with arrived := !(!w.place.remote && off.contains w.place.lineNo) })
  let g := ({ c.g with stores := c.g.stores ++ [{ seq := c.g.seq, elems := ws1 }], seq := c.g.seq + 1 } : Group).orFlags fl
  c.doneIn (c.st.sendLines c.g c.g.seq off) g

/-- st. -/
def execSt (t : Fin 16) (d : Fin 128) (b : Fin 64) (i : Option (Fin 128)) (s : State) :
    Host.Outcome State Fault Refusal :=
  runInstr s ([if typeWidth t == 8 then opW 11 d else opV 11 d, opS 18 b] ++ (i.map (fun r => opV 24 r.val)).toList)
    fun c => c.checked .write t b (i.map (·.val)) (some .write) (partialBlocks .write t) (fun k ps => k.startStore t d ps)

/-- A device write applied at its serving copy: holder and recall, bytes, version, partials of the storing core dropped
(R221, R223, R224, R238). -/
def State.applyStore (s : State) (core pa : Nat) (bs : List Byte) (cache : Bool) : State :=
  ((linesOf pa bs.length).foldl (fun s n => s.writeTouch (dieOfCore core) n cache) s |>.discardPartials core pa bs.length).serveWrite pa bs

/-- What a write that leaves for a peer does to the copies of the writer's die: they take its bytes at once; an atomic's new value is
not known there, so its lines' copies are dropped (R247). -/
def State.peerWritten (s : State) (die : Nat) (w : SentWrite) : State :=
  { s with ms := { s.ms with peerCopies :=
      if w.red.isSome then s.ms.peerCopies.filter (fun q => !(q.die == die && w.pieces.any (fun p =>
        (Place.peer q.peer (128 * q.line)).meets 128 p.1 p.2)))
      else s.ms.peerCopies.map (fun q =>
        if q.die == die then { q with bytes := overlayBytes (.peer q.peer (128 * q.line)) q.bytes w.place w.bytes } else q) } }

/-- A write counted as discarded by a link (R389, R390). -/
def State.countDiscard (s : State) (link : Nat) : State :=
  { s with fab := { s.fab with links := s.fab.links.map (fun l =>
      if l.id == link then { l with discards := (l.discards + 1) % 2 ^ 32 } else l) } }

/-- Whether a Brodnus port's retry buffer of 1,024 flits is full (R392). -/
def State.retryFull (s : State) (link : Nat) : Bool := s.fab.links.any (fun l => l.id == link && decide (1024 ≤ l.retry.length))

/-- The number of the next flit that a link sends. -/
def State.nextFlit (s : State) (link : Nat) : Nat := ((s.fab.links.find? (fun l => l.id == link)).map (·.txSeq)).getD 0

/-- A flit of load and store packets sent on a Brodnus port: its retry buffer keeps it (R392). -/
def State.pushFlit (s : State) (link : Nat) : State :=
  if 0x300 ≤ link then s
  else { s with fab := { s.fab with links := s.fab.links.map (fun l =>
    if l.id == link then { l with retry := l.retry ++ [{ seq := l.txSeq, kind := 1, replays := 0 }], txSeq := (l.txSeq + 1) % 4096 } else l) } }

/-- Whether an earlier write of the die to the same line is on its way over another link: writes of a die to a line stay in order
(R243). -/
def State.otherLink (s : State) (die : Nat) (p : Place) (link : Nat) : Bool :=
  s.sched.groups.any (fun h => dieOfCore h.core == die && h.sent.any (fun w => w.link != link &&
    w.pieces.any (fun q => match p, q.1 with
      | .peer i a, .peer j b => i == j && a / 128 == b / 128
      | .host i a, .host j b => i == j && a / 128 == b / 128
      | _, _ => false)))

/-- A write to a peer or a host leaves the device, or is discarded where the route is gone (R402); none while its link
holds traffic. -/
def State.sendWrite (s : State) (g : Group) (elem : Option Nat) (p : Place) (rest : Option (Nat × Place)) (bs : List Byte)
    (red : Option (Nat × Nat)) (cmd : Option Nat) : Option (State × Group) :=
  match s.placeLink p with
  | none => some (s.countDiscard (s.downLink p).1, { g with lost := g.lost ++ [p.targetNo] })
  | some l =>
    if s.linkCarries l && !s.retryFull l && !s.otherLink (dieOfCore g.core) p l then
      let w : SentWrite := { elem := elem, place := p, rest := rest, bytes := bs, red := red, link := l, flit := s.nextFlit l, cmd := cmd }
      some ((s.pushFlit l).peerWritten (dieOfCore g.core) w, { g with sent := g.sent ++ [w] })
    else none

/-- Bytes from an address cut at multiples of k, with a fuel of at least as many. -/
def cutLines (k : Nat) : Nat → Nat → List Byte → List (Nat × List Byte)
  | 0, _, _ => []
  | n + 1, a, bs => if bs.isEmpty then [] else (a, bs.take (k - a % k)) :: cutLines k n (a + (k - a % k)) (bs.drop (k - a % k))

/-- A write of a group applied in device memory or in the host lines that a die holds, else sent, a line at a time; none where it must
wait. -/
def State.applyWrite (s : State) (g : Group) (elem : Option Nat) (p : Place) (bs : List Byte) (cache : Bool) : Option (State × Group) :=
  match p with
  | .dev a => some (s.applyStore g.core a bs cache, g)
  | .host i a => (cutLines 64 bs.length a bs).foldl (fun acc x => acc.bind (fun r =>
      if r.1.holdsHost i x.1 then some (r.1.hostStore i x.1 x.2, r.2)
      else r.1.sendWrite r.2 elem (.host i x.1) none x.2 none none)) (some (s, g))
  | .peer i a => (cutLines 128 bs.length a bs).foldl (fun acc x => acc.bind (fun r =>
      r.1.sendWrite r.2 elem (.peer i x.1) none x.2 none none)) (some (s, g))

/-- The writes of a line applied or sent, ascending in element index; none where one must wait. -/
def State.applyLine (s : State) (g : Group) (ws : List StoreElem) : Option (State × Group) :=
  ws.foldl (fun acc w => acc.bind (fun r => r.1.applyWrite r.2 (some w.elem) w.place w.bytes w.cache)) (some (s, g))

/-- STORE_AT_HOME_SLICE: the writes of the k-th store of a group in one line are applied at the line's serving copy, or
sent to a peer or host (R221, R223, R246, R263). -/
def execStoreAtHomeSlice (core slot k line : Nat) (s : State) : Host.Outcome State Fault Refusal :=
  eventOf s "STORE_AT_HOME_SLICE"
    (match s.group? core slot with
     | none => none
     | some g => match g.stores[k]? with
       | none => none
       | some e =>
         let due := e.elems.filter (fun w => w.place.lineNo == line)
         if due.isEmpty || due.any (fun w => !w.arrived || !s.mayWrite g e.seq (some w.elem) w.place w.bytes.length) then none
         else
           match due.findSome? (fun w => s.placeGate w.place w.bytes.length) with
           | some s' => if s' == s then none else some s'
           | none =>
             let left := e.elems.filter (fun w => w.place.lineNo != line)
             let g1 := { g with stores := if left.isEmpty then g.stores.filter (fun x => x.seq != e.seq)
                                  else g.stores.map (fun x => if x.seq == e.seq then { x with elems := left } else x) }
             (s.applyLine g1 due).map (fun r => r.1.putGroup r.2))
    (fun s' => s')

/-! ## lds and sts (R339, R340) -/

/-- The width of a type of R339. -/
def sramWidth (t : Nat) : Nat := [1, 1, 2, 2, 4, 8].getD t 4

/-- The access word of cluster SRAM accesses: no format (R334). -/
def sramWord (a : Access) (t reason : Nat) : Nat := accessWord a t none reason

/-- Elements with their offsets, after the alignment and run checks (R333, R340). -/
def Iss.sramElems (c : Iss) (a : Access) (t sb : Nat) (vi : Option Nat) : Except Eff (List (Nat × Nat)) :=
  let w := sramWidth t
  let xs := c.elems.map (fun e => (e, c.formAddr sb vi e w))
  match elemTrap causeAlign (sramWord a t 1) (xs.filter (fun x => x.2 % w != 0)) with
  | some e => .error e
  | none =>
    let inRun := fun o => match c.u.scratch with
      | some (off, len) => decide (off ≤ o) && decide (o + w ≤ off + len)
      | none => false
    match elemTrap causePermission a.code (xs.filter (fun x => !inRun x.2)) with
    | some e => .error e
    | none => .ok xs

/-- lds. -/
def execLds (t : Fin 8) (d : Fin 128) (b : Fin 64) (i : Option (Fin 128)) (s : State) :
    Host.Outcome State Fault Refusal :=
  runInstr s ([if t.val == 5 then opWd 11 d else opVd 11 d, opS 18 b] ++ (i.map (fun r => opV 24 r.val)).toList) fun c =>
    match c.sramElems .read t b (i.map (·.val)) with
    | .error e => e
    | .ok xs =>
      let w := sramWidth t
      let v := fun e => match xs.find? (fun x => x.1 == e) with
        | some x => c.st.sramLE c.cluster x.2 w
        | none => 0
      c.done (if t.val == 5 then c.g.setV64 d c.mask (fun e => BitVec.ofNat 64 (v e))
        else c.g.setV d c.mask (fun e => BitVec.ofNat 32
          (if t.val == 1 || t.val == 3 then bitsOfInt 32 (intOfBits (8 * w) true (v e)) else v e)))

/-- The valid barrier object that n bytes of a cluster's SRAM touch, if any. Objects lie at multiples of 32 (R272). -/
def State.barrierTouched (s : State) (cluster o n : Nat) : Option Nat :=
  (s.ms.barriers.find? (fun b => b.1 == cluster && overlaps o n b.2 32)).map (·.2)

/-- sts: after the checks an object's bytes are refused (R274), and the elements' earlier accesses come first (R246).
Under rotation one core's accesses apply in issue order because each applies at its issue (R100). -/
def execSts (t : Fin 8) (d : Fin 128) (b : Fin 64) (i : Option (Fin 128)) (s : State) :
    Host.Outcome State Fault Refusal :=
  runInstr s ([if t.val % 8 == 5 then opW 11 d else opV 11 d, opS 18 b] ++ (i.map (fun r => opV 24 r.val)).toList) fun c =>
    match c.sramElems .write t b (i.map (·.val)) with
    | .error e => e
    | .ok xs =>
      let w := sramWidth t
      let bad := xs.filterMap (fun x => (c.st.barrierTouched c.cluster x.2 w).map (fun o => (x.1, o)))
      match bad with
      | (e, o) :: _ =>
        .trap { cause := causeBarrier, tinfo0 := o, tinfo1 := 8, first := some e, nelem := bad.length }
      | [] =>
        if xs.any (fun x => c.g.elemBefore c.g.seq (some x.1) || c.g.sentElem (some x.1)) then .stall
        else
          let v := fun e => if t.val == 5 then (c.g.v64 d e).toNat else (c.g.v d e).toNat
          c.doneIn (xs.foldl (fun s x => s.sramWrite c.cluster x.2 (leBytes w (v x.1))) c.st) c.g

/-! ## Fences (R250, R347) -/

/-- The effect of a release that may complete, on the group and the state: the confirmed watch entries free, the
discarded writes due for report, partials, region (R234, R248, R263). -/
def Iss.released (c : Iss) (scope : Nat) : Iss :=
  let g := (c.g.freeConfirmed).reportLost scope
  { c with g := g, st := c.st.doRelease g scope }

/-- fence.acq. -/
def execFenceAcq (k : Fin 16) (s : State) : Host.Outcome State Fault Refusal :=
  runInstr s [opScope 28 k] fun c =>
    if c.g.watching .pending || c.g.acquireWaits k then c.waitFor .fence
    else c.doneIn (c.st.doAcquire c.g k) c.g

/-- Whether a fence.rel lets later reads go first: the group takes that choice, no watch entry is in the way, and the context is not
replayed (R104, R250). -/
def Iss.passes (c : Iss) (scope : Nat) : Bool :=
  c.g.relax && !c.g.watching .pending && !c.g.watching .struck && c.g.releaseWaits scope && !c.st.drydown c.ctx

/-- fence.rel. Its release completes here, or later reads pass it and it completes on its own (R250, R267). -/
def execFenceRel (k : Fin 16) (s : State) : Host.Outcome State Fault Refusal :=
  runInstr s [opScope 28 k] fun c =>
    match c.releaseFirst k with
    | some e => if c.passes k then c.done { c.g with relax := false, relFence := some k.val } else e
    | none =>
      let d := c.released k
      d.doneIn d.st d.g

/-- fence.full. -/
def execFenceFull (k : Fin 16) (s : State) : Host.Outcome State Fault Refusal :=
  runInstr s [opScope 28 k] fun c =>
    match c.releaseFirst k with
    | some e => e
    | none =>
      if c.g.acquireWaits k then c.waitFor .fence
      else
        let d := c.released k
        d.doneIn (d.st.dropPeerCopies (dieOfCore d.g.core) k) d.g

/-- The release of a fence.rel that reads have passed completes once its waits are over and the group is in no fault-wait, whose trap
the report of a discarded write would take the place of. -/
def State.settleRelease (s : State) (g : Group) : Option State :=
  match (if g.saved.isSome then none else g.relFence) with
  | none => none
  | some k =>
    if g.releaseWaits k || g.lateTrap.isSome then none
    else
      let h := ({ g with relFence := none } : Group).freeConfirmed.reportLost k
      s.afterGate (s.releaseGate g.core k) (some ((s.doRelease g k).putGroup h))

/-! ## pfetch and llcflush (R348, R349) -/

/-- pfetch of one element: a readable device page with CACHE = 1 makes the die the holder of a line that has none. -/
def Iss.prefetch (c : Iss) (e va : Nat) (l1 : Bool) (s : State) : State :=
  match s.xlElem (some c.g.core) (dieOfCore c.g.core) c.ctx (e / 32) va .read with
  | .ok ea l =>
    match s.placeOf l ea with
    | .dev pa =>
      if l.cls == 0 && l.cache && !s.poisoned pa && (s.devGate (pa / 128 * 128) 128).isNone then
        (if l1 then s.readTouch c.g.core (pa / 128) true
         else if (s.line (pa / 128)).holder.isNone then s.takeLine (dieOfCore c.g.core) (pa / 128) else s)
      else s
    | .peer _ _ => s
    | .host _ _ => s
  | .fail _ _ _ _ => s

/-- pfetch. -/
def execPfetch (l : Fin 128) (b : Fin 64) (i : Option (Fin 128)) (s : State) : Host.Outcome State Fault Refusal :=
  runInstr s ([opS 18 b] ++ (i.map (fun r => opV 24 r.val)).toList) fun c =>
    c.doneIn (c.elems.foldl (fun s e => c.prefetch e (c.formAddr b (i.map (·.val)) e 1) (l.val == 0) s) c.st) c.g

/-- Whether a group is privileged (R213). -/
def Iss.privileged (c : Iss) : Bool := c.inHandler || c.l.region == 0

/-- The entries of a table of a level that cover addresses of a range, each with the first address that it covers (R195, R196). -/
def State.tableEntries (s : State) (level table base lo hi : Nat) : List (Nat × EntryRead) :=
  ((List.range 512).map (fun i => (base + i * 2 ^ spanLog level, i))).filterMap (fun e =>
    if e.1 < hi && lo < e.1 + 2 ^ spanLog level then some (e.1, s.readEntry table e.2) else none)

/-- The walks of a range end at these: its valid leaves, and entries that a host holds. -/
def Walk.found (w : Walk) : List Walk :=
  match w with
  | .leaf _ _ => [w]
  | .held _ => [w]
  | .absent _ => []
  | .malformed _ => []
  | .noncanonical => []

/-- Every valid leaf of a context that lies in a range of addresses, and every entry on the way that a host holds. -/
def State.leavesIn (s : State) (ctx lo hi : Nat) : Nat → Nat → Nat → List Walk
  | 0, table, base => (s.tableEntries 0 table base lo hi).flatMap (fun e => match e.2 with
      | .held pa => [.held pa]
      | .poison => []
      | .words w0 _ => if w0.getLsbD 0 then (s.walkLeaf ctx table 0 e.1 (e.1 / 4096 % 512) w0).found else [])
  | n + 1, table, base => (s.tableEntries (n + 1) table base lo hi).flatMap (fun e => match e.2 with
      | .held pa => [.held pa]
      | .poison => []
      | .words w0 w1 =>
        if !w0.getLsbD 0 then []
        else if w0.getLsbD 1 then (s.walkLeaf ctx table (n + 1) e.1 (e.1 / 2 ^ spanLog (n + 1) % 512) w0).found
        else if tableMalformed w0 w1 then []
        else State.leavesIn s ctx lo hi n (field w0 24 40 * 4096) e.1)

/-- The walks of a range of a context. -/
def State.rangeWalks (s : State) (ctx lo hi : Nat) : List Walk :=
  match s.ctx? ctx with
  | none => []
  | some x => State.leavesIn s ctx lo hi 4 (x.ptroot / 8192 * 8192) 0

/-- The dirty lines of device memory in the CLASS 0 pages of a range that no die holds. -/
def State.dirtyIn (s : State) (ctx lo hi : Nat) : List Nat :=
  let ls := ((s.rangeWalks ctx lo hi).filterMap Walk.leaf?).filter (fun l => l.cls == 0)
  (s.ms.lines.filter (fun r => r.dirty && r.holder.isNone && ls.any (fun l =>
    let a := max lo l.base
    let z := min hi (l.base + l.bytes)
    decide (a < z) && decide (l.frame + (a - l.base) < 128 * (r.line + 1)) &&
      decide (128 * r.line < l.frame + (z - l.base))))).map (·.line)

/-- llcflush: waits in a fence wait until the dirty lines it found are written back. -/
def execLlcflush (l : Fin 64) (b : Fin 64) (s : State) : Host.Outcome State Fault Refusal :=
  runInstr s [opS 11 l, opS 18 b] fun c =>
    if !c.privileged then c.illegalOperand 7
    else
      let n := (c.g.s l).toNat
      let a := (c.g.s b).toNat
      if 2 ^ 40 < n then c.illegalOperand 11
      else if 2 ^ 57 ≤ a then .trap (xTrap .noncanonical .read a 0 0 none 0)
      else if c.waiting then (if c.g.flush.isEmpty then c.done c.g else c.waitFor .fence)
      else
        match (if n == 0 then none else (c.st.rangeWalks c.ctx a (a + n)).findSome? Walk.held?) with
        | some pa => c.xStop .held .read a pa 0 none 0
        | none =>
          let d := if n == 0 then [] else c.st.dirtyIn c.ctx a (a + n)
          if d.isEmpty then c.done c.g
          else
            let g := { c.g with flush := d }
            { c with g := g, st := c.st.putGroup g }.waitFor .fence

/-- LLCFLUSH_WRITEBACK_COMPLETE: the lines that a group's llcflush named are in HBM, and the LLC has dropped their data; their records
stay (R226, R349; log 59). -/
def execLlcflushWritebackComplete (core slot : Nat) (s : State) : Host.Outcome State Fault Refusal :=
  eventOf s "LLCFLUSH_WRITEBACK_COMPLETE"
    (match s.group? core slot with
     | some g => if g.flush.isEmpty then none else some g
     | none => none)
    (fun g =>
      let clean := fun (r : LineRec) => if g.flush.contains r.line then { r with dirty := false, cached := false } else r
      let s1 := g.flush.foldl (fun (t : State) n => t.llcCount n 2) s
      ({ s1 with ms := { s1.ms with lines := s1.ms.lines.map clean } } : State).putGroup { g with flush := [] })

end Sys2Proof.Machine
end

