-- ==== Sys2Proof/Machine/Atomic.lean ====
section
/-! DEFINITION. atom and red (R343 to R346): their checks, the place that executes each element (R236), the core's
partials and the home slices at issue, the bank ALUs and the far sides as events (R239, R240). -/

namespace Sys2Proof.Machine

/-! ## Checks -/

/-- An element of an atomic whose pages have translated: its address, leaf and place, and the second page of an XA object
that crosses into one: how many bytes lie in the first, leaf, place. -/
structure PlacedAtom where
  elem : Nat
  ea : Nat
  leaf : Leaf
  place : Place
  rest : Option (Nat × Leaf × Place)
  deriving DecidableEq, Repr

/-- Where an atomic's element can lie on its page: the operations that host pages admit (R240). -/
def hostAdmits (op : Nat) : Bool := [0, 1, 12, 13, 14].contains op

/-- The level at which a leaf of its size stands. -/
def Leaf.level (l : Leaf) : Nat := ((List.range 3).find? (fun n => sizeAtLevel n l.size)).getD 0

/-- A translated page refused to an atomic operation where it is a host page that does not admit it. -/
def admitAtom (op : Nat) (x : Xl) : Xl :=
  match x with
  | .ok ea l => if l.cls == 2 && !hostAdmits op then
      .fail .perm ea l.level (l.r.toNat + 2 * l.w.toNat + 4 * l.x.toNat) else .ok ea l
  | .fail f ea n p => .fail f ea n p

/-- Whether the object of an element lies in two pages of different classes or targets; its first page, and a table entry of either that
a host holds (R334, R346). -/
def Iss.splitAtom (c : Iss) (op e va : Nat) : Walk × Walk × Bool :=
  let w := c.st.effective (some c.g.core) (dieOfCore c.g.core) c.ctx (e / 32) va
  match w.2.1.leaf? with
  | none => (w.2.1, w.2.1, false)
  | some l =>
    let room := l.base + l.bytes - w.1
    if atomWidth op ≤ room then (w.2.1, w.2.1, false)
    else
      let w2 := c.st.translate (some c.g.core) (dieOfCore c.g.core) c.ctx (w.1 + room)
      (w.2.1, w2, w2.leaf?.any (fun l2 => l2.cls != l.cls || l2.target != l.target))

/-- An element's translation: its page, or its two pages. The failure of either is the element's. -/
def Iss.atomXl (c : Iss) (op e va : Nat) : Xl × Option (Nat × Xl) :=
  match admitAtom op (c.st.xlElem (some c.g.core) (dieOfCore c.g.core) c.ctx (e / 32) va .atomic) with
  | .ok ea l =>
    let room := l.base + l.bytes - ea
    if atomWidth op ≤ room then (.ok ea l, none)
    else (.ok ea l, some (room,
      admitAtom op (c.st.xlNext (some c.g.core) (dieOfCore c.g.core) c.ctx l (ea + room) .atomic)))
  | .fail f ea n p => (.fail f ea n p, none)

/-- The failure of an element, or a success. -/
def pairXl (x : Xl × Option (Nat × Xl)) : Xl :=
  match x.1, x.2 with
  | .ok _ _, some (_, .fail f ea n p) => .fail f ea n p
  | y, _ => y

/-- An element placed from its translations. -/
def Iss.placeAtom (c : Iss) (e : Nat) (x : Xl × Option (Nat × Xl)) : Option PlacedAtom :=
  match x with
  | (.ok ea l, none) => some { elem := e, ea := ea, leaf := l, place := c.st.placeOf l ea, rest := none }
  | (.ok ea l, some (k, .ok ea2 l2)) =>
    some { elem := e, ea := ea, leaf := l, place := c.st.placeOf l ea, rest := some (k, l2, c.st.placeOf l2 ea2) }
  | (.ok _ _, some (_, .fail _ _ _ _)) => none
  | (.fail _ _ _ _, _) => none

/-- The operations that a FORMAT page admits (R203). -/
def Leaf.admits (l : Leaf) (op : Nat) : Bool :=
  !l.format || (op == 2 && l.fmt == 1) || (op == 3 && l.fmt == 0) || (op == 4 && l.fmt == 2)

/-- The pieces of a placed element as placed accesses, for stamps and routes. -/
def PlacedAtom.pieces (p : PlacedAtom) (op : Nat) : List Placed :=
  let piece := fun (l : Leaf) (q : Place) (n a : Nat) =>
    ({ elem := p.elem, ea := a, leaf := l, place := q, high := false, width := n, mode := .raw } : Placed)
  match p.rest with
  | none => [piece p.leaf p.place (atomWidth op) p.ea]
  | some (k, l2, q) => [piece p.leaf p.place k p.ea, piece l2 q (atomWidth op - k) (p.ea + k)]

/-- The wait of an atomic while a table entry that decides where its objects lie is with a host. -/
def Iss.splitWait (c : Iss) (op : Nat) (fs : List (Nat × Nat)) : Option Eff :=
  (fs.findSome? (fun f =>
    let x := c.splitAtom op f.1 f.2
    x.1.held?.orElse (fun _ => x.2.1.held?))).map (fun pa => c.xStop .held .atomic 0 pa 0 none 0)

/-- The checks 2 to 4 of R333 for an atomic (R335, R346), then the placed elements. -/
def Iss.atomChecks (c : Iss) (op sb vi : Nat) : Except Eff (List PlacedAtom) :=
  let w := atomWidth op
  let fs := c.elems.map (fun e => (e, c.formAddr sb (some vi) e w))
  let reason := if op == 15 then 3 else 1
  let unit := if op == 15 then 32 else w
  let bent := fs.filter (fun f => f.2 % unit != 0 || (c.splitAtom op f.1 f.2).2.2)
  match (c.splitWait op fs).orElse (fun _ => c.alignTrap .atomic op reason bent) with
  | some e => .error e
  | none =>
    let xs := fs.map (fun f => (f.1, c.atomXl op f.1 f.2))
    match c.xFail .atomic (xs.map (fun x => (x.1, pairXl x.2))) with
    | some e => .error e
    | none =>
      let ps := xs.filterMap (fun x => c.placeAtom x.1 x.2)
      let bad := ps.filter (fun p => !p.leaf.admits op || (match p.rest with
        | some (_, l2, _) => !l2.admits op
        | none => false))
      match elemTrap causeFormat (accessWord .atomic op (bad.head?.map (·.leaf)) 3) (bad.map (fun p => (p.elem, p.ea))) with
      | some e => .error e
      | none => .ok ps

/-! ## Where an element executes (R236) -/

/-- The unit that executes an element: the core's L1, a die L2 home slice, a bank ALU, a far side. -/
inductive AtomUnit where
  | l1 | slice | bank | far
  deriving DecidableEq, Repr

/-- Whether a core's L1 can hold no more lines with partials where a line would go: all of it is full of them, or its set is, which
lines a set has being open (R237; log 60). -/
def State.l1NoRoom (s : State) (core n : Nat) : Bool :=
  let ls := ((s.ms.partials.filter (fun p => p.core == core)).map (fun p => p.pa / 128)).eraseDups
  !ls.contains n && (decide (l1Lines ≤ ls.length) || (!ls.isEmpty && Config.l1Full ls n))

/-- R236. Narrow scopes are the codes up to .cl; where the L1 has no room, an atomic executes as at .di (R237). A page with CACHE = 0 whose line no die holds is served at the LLC, by
its bank ALU (R223; log 15). A page whose TARGET is the device's own id goes to its own LLC home (R399). -/
def State.atomUnit (s : State) (core op scope : Nat) (p : PlacedAtom) : AtomUnit :=
  match p.place with
  | .peer _ _ => .far
  | .host _ _ => .far
  | .dev a =>
    let h := (s.line (a / 128)).holder
    if p.leaf.cls == 1 || op == 15 || 6 ≤ scope || (h.isNone && !p.leaf.cache) then .bank
    else if h.isSome && h != some (dieOfCore core) then .slice
    else if scope ≤ 4 && op < 12 && !s.l1NoRoom core (a / 128) then .l1
    else .slice

/-- Whether an element executes when its instruction issues. -/
def AtomUnit.atIssue (u : AtomUnit) : Bool := u == .l1 || u == .slice

/-- The old value and the state after an element at the core's L1 or at a home slice. -/
def State.atomNow (s : State) (core op : Nat) (u : AtomUnit) (pa x y : Nat) (cache : Bool) : Nat × State :=
  let n := atomWidth op
  if u == .l1 then
    let s1 := s.readTouch core (pa / 128) cache
    (leNat (s1.coreRead core pa n), s1.pushPartial core pa n op x)
  else
    let s1 := s.writeTouch (dieOfCore core) (pa / 128) cache
    let o := s1.devLE pa n
    (o, s1.serveWrite pa (leBytes n (atomNew op o x y)))

/-! ## Issue (R345) -/

/-- The operand of an element: one register, a pair, or compare and new value. -/
def Iss.atomOperand (c : Iss) (op r e : Nat) : Nat × Nat :=
  if op == 14 then ((c.g.v r e).toNat, (c.g.v (r + 1) e).toNat)
  else if atomPair op then ((c.g.v64 r e).toNat, 0)
  else ((c.g.v r e).toNat, 0)

/-- An element with its operands, not performed. -/
def Iss.atomElem (c : Iss) (op r : Nat) (p : PlacedAtom) : AtomElem :=
  let o := c.atomOperand op r p.elem
  { elem := p.elem, va := p.ea, place := p.place, rest := p.rest.map (fun x => (x.1, x.2.2)), x := o.1, y := o.2, value := none }

/-- The registers of an atom written with the values returned. -/
def Group.setAtom (g : Group) (op d : Nat) (xs : List AtomElem) : Group :=
  let m := maskOf (xs.map (·.elem))
  let f := fun e => match xs.find? (fun x => x.elem == e) with
    | some x => x.value.getD 0
    | none => 0
  if atomWide op then g.setV64 d m (fun e => BitVec.ofNat 64 (f e)) else g.setV d m (fun e => BitVec.ofNat 32 (f e))

/-- The elements that execute at issue, in ascending index; the others keep no value. -/
def Iss.atomsNow (c : Iss) (op scope r : Nat) (ps : List PlacedAtom) : State × List AtomElem :=
  ps.foldl (fun acc p =>
    let x := c.atomElem op r p
    let u := acc.1.atomUnit c.g.core op scope p
    match p.place with
    | .dev a =>
      if u.atIssue then
        let o := acc.1.atomNow c.g.core op u a x.x x.y p.leaf.cache
        (o.2, acc.2 ++ [{ x with value := some o.1 }])
      else (acc.1, acc.2 ++ [x])
    | .peer _ _ => (acc.1, acc.2 ++ [x])
    | .host _ _ => (acc.1, acc.2 ++ [x])) (c.st, [])

/-- An atomic issued: the elements of L1s and home slices execute, once the elements' earlier accesses are performed; the
others wait for their unit. An atom to a peer or host holds the group (R264). -/
def Iss.startAtom (c : Iss) (op scope r : Nat) (red : Bool) (ps : List PlacedAtom) : Eff :=
  let w := atomWidth op
  let now := ps.filter (fun p => (c.st.atomUnit c.g.core op scope p).atIssue)
  let cycle := c.st.clock (.core c.g.core) + 1
  if now.any (fun p => !c.st.mayWrite c.g c.g.seq (some p.elem) p.place w || c.st.rotationWaits c.g.core c.g.slot cycle p.place w) then .stall
  else
    match now.findSome? (fun p => c.st.placeGate p.place w) with
    | some s => c.gated s
    | none =>
      match now.find? (fun p => c.st.poisonAt p.place w) with
      | some p => .waits (c.st.groupFatal c.g 5 (p.place.lineNo * 128))
      | none =>
        let (s1, xs) := c.atomsNow op scope r ps
        let g := { c.g with seq := c.g.seq + 1 }
        if xs.all (fun x => x.value.isSome) then c.doneIn s1 (if red then g else g.setAtom op r xs)
        else
          let entry : AtomEntry := { seq := c.g.seq, cycle := cycle, op := op, red := red, dst := r, slot := c.which, elems := xs }
          let g1 := { g with atoms := g.atoms ++ [entry] }
          if !red && ps.any (fun p => p.place.remote) then .waits (s1.putGroup { g1 with blocked := some entry.seq })
          else c.doneIn s1 g1

/-- The body of atom and red. -/
def Iss.atomic (c : Iss) (op r sb vi scope : Nat) (red : Bool) : Eff :=
  match c.atomChecks op sb vi with
  | .error e => e
  | .ok ps =>
    let pieces := ps.flatMap (fun p => p.pieces op)
    let d := { c with st := c.fillAll c.st (pieces.map Placed.ea) }
    d.withStamps .atomic (op == 15 || 6 ≤ scope) pieces (fun k => k.startAtom op scope r red ps)

/-- The operands of atom and red in ascending fields. -/
def atomOpnds (op r sb vi scope : Nat) (red : Bool) : List Opnd :=
  [if atomPair op then (if red then opW 11 r else opWd 11 r) else (if red then opV 11 r else opVd 11 r),
   opS 18 sb, opV 24 vi, opScope 28 scope]

/-- atom. -/
def execAtom (o : Fin 16) (d : Fin 128) (b : Fin 64) (i : Fin 16) (k : Fin 16) (s : State) :
    Host.Outcome State Fault Refusal :=
  runInstr s (atomOpnds o d b i k false) fun c => c.atomic o d b i k false

/-- red. -/
def execRed (o : Fin 16) (d : Fin 128) (b : Fin 64) (i : Fin 16) (k : Fin 16) (s : State) :
    Host.Outcome State Fault Refusal :=
  runInstr s (atomOpnds o d b i k true) fun c => c.atomic o d b i k true

/-! ## Bank ALUs and far sides (R239, R240) -/

/-- The old value and the new bytes of an element from the bytes at its place. -/
def atomBytes (op x y : Nat) (bs : List Byte) : Nat × List Byte :=
  if op == 15 then
    let a := xaOfImage (leNat bs)
    (xaStatus a, leBytes 288 (xaImage (xaAdd a (fmtF64.decode x))))
  else (leNat bs, leBytes (atomWidth op) (atomNew op (leNat bs) x y))

/-- Bytes written at a place where it is served, in device memory with its version. -/
def State.serveAt (s : State) (p : Place) (bs : List Byte) : State :=
  match p with
  | .dev a => s.serveWrite a bs
  | .peer i a => s.peerWrite i a bs
  | .host i a => s.hostStore i a bs

/-- The lines of device memory at a place. -/
def Place.lines (p : Place) (n : Nat) : List Nat :=
  match p with
  | .dev a => linesOf a n
  | .peer _ _ => []
  | .host _ _ => []

/-- What an atomic's place is made ready by: the lines of device memory are recalled, those of a host that a die holds go back to it,
since the operation executes at the host (R239, R240). -/
def State.gather (s : State) (p : Place) (n : Nat) : State :=
  match p with
  | .dev _ => (p.lines n).foldl (fun s l => s.recall l) s
  | .peer _ _ => s
  | .host i a => s.returnHosts i a n

/-- A die's copies of a peer's bytes dropped (R247). -/
def State.forgetPeer (s : State) (die : Nat) (p : Place) (n : Nat) : State :=
  { s with ms := { s.ms with peerCopies := s.ms.peerCopies.filter (fun q =>
      !(q.die == die && (Place.peer q.peer (128 * q.line)).meets 128 p n)) } }

/-- An element executed at its bank ALU or far side: lines recalled, old value, new bytes (R239). -/
def State.atomAt (s : State) (op : Nat) (x : AtomElem) : Nat × State :=
  let n := atomWidth op
  let ps := spanPieces x.place x.rest n
  let s1 := ps.foldl (fun s p => s.gather p.1 p.2) s
  let r := atomBytes op x.x x.y (s1.spanRead x.place x.rest n)
  match x.rest with
  | none => (r.1, s1.serveAt x.place r.2)
  | some (k, q) => (r.1, (s1.serveAt x.place (r.2.take k)).serveAt q (r.2.drop k))

/-- The element of an atomic that executes next: the lowest that is not performed. -/
def AtomEntry.next (a : AtomEntry) : Option AtomElem := a.elems.find? (fun x => x.value.isNone)

/-- An entry with an element performed; finished when all are. -/
def State.atomDone (s : State) (g : Group) (a : AtomEntry) (e v : Nat) : State :=
  let xs := a.elems.map (fun x => if x.elem == e then { x with value := some v } else x)
  if xs.all (fun x => x.value.isSome) then
    let g1 := { g with atoms := g.atoms.filter (fun b => b.seq != a.seq) }
    let g2 := if a.red then g1 else g1.setAtom a.op a.dst xs
    if g.blocked == some a.seq then s.unblock g2 a.slot else s.putGroup g2
  else s.putGroup { g with atoms := g.atoms.map (fun b => if b.seq == a.seq then { b with elems := xs } else b) }

/-- A bank ALU's operation counted at the slice of its line. -/
def State.countBank (s : State) (p : Place) : State :=
  match p with
  | .dev a => s.llcCount (a / 128) 5
  | .peer _ _ => s
  | .host _ _ => s

/-- BANK_ALU_ATOMIC: the next element of the k-th atomic of a group executes at its bank ALU, or at the peer or host that
its page names. A red to a peer or host is posted: it is sent (R263). An atom there follows what its group has sent to the same
bytes (R246). -/
def execBankAluAtomic (core slot k : Nat) (s : State) : Host.Outcome State Fault Refusal :=
  eventOf s "BANK_ALU_ATOMIC"
    (match s.group? core slot with
     | none => none
     | some g => match g.atoms[k]? with
       | none => none
       | some a => match a.next with
         | none => none
         | some x =>
           let n := atomWidth a.op
           let ps := spanPieces x.place x.rest n
           let gone := { g with atoms := g.atoms.filter (fun b => b.seq != a.seq) }
           let posted := a.red && x.place.remote
           if ps.any (fun p => !(if posted then s.mayWrite g a.seq (some x.elem) p.1 p.2
                 else g.mayWrite a.seq (some x.elem) p.1 p.2 && !g.sentElem (some x.elem) && !g.sentOver p.1 p.2)) ||
               ps.any (fun p => s.rotationWaits core slot a.cycle p.1 p.2 || (!posted && s.peerWaits g p.1 p.2)) then none
           else if posted then
             (s.sendWrite g (some x.elem) x.place x.rest [] (some (a.op, x.x)) none).map (fun r => r.1.atomDone r.2 a x.elem 0)
           else
             match (if x.place.remote then s.farTrap (a.elems.map (fun y => (y.elem, y.va, y.place, n))) .atomic else none) with
             | some t => some ((s.putGroup gone).blockedTrap gone a.slot t)
             | none =>
               if ps.any (fun p => !s.reachable p.1) then none
               else match ps.findSome? (fun p => s.placeGate p.1 p.2) with
                 | some s' => if s' == s then none else some s'
                 | none =>
                   match ps.find? (fun p => s.poisonAt p.1 p.2) with
                   | some p => some ((s.putGroup gone).groupFatal g 5 (p.1.lineNo * 128))
                   | none =>
                     let r := s.atomAt a.op x
                     let s1 := ps.foldl (fun s p => s.forgetPeer (dieOfCore core) p.1 p.2) r.2
                     some ((s1.countBank x.place).atomDone g a x.elem r.1))
    (fun s' => s')

end Sys2Proof.Machine
end

