-- ==== Sys2Proof/Machine/Lines.lean ====
section
/-! DEFINITION. Headnote loads (R231 to R235, R341, R342) and the events of caches, directories and host bridges
(R221 to R230, R241, R242, R244, R247, R397, R455). -/

namespace Sys2Proof.Machine

/-! ## Headnote loads -/

/-- A die's shadow of a line that has not expired (R225). -/
def State.shadowOf (s : State) (die n : Nat) : Option Shadow :=
  s.ms.shadows.find? (fun h => h.die == die && h.line == n && s.clock (.die die) - h.since < 2 ^ 20)

/-- Whether a line counts as held by a die for ld.hn: it holds it, or no die does (R231). -/
def State.hnHeld (s : State) (die n : Nat) : Bool :=
  match (s.line n).holder with
  | none => true
  | some d => d == die

/-- A shadow kept of a line that another die holds; the oldest of 4 MiB of shadows goes (R225). -/
def State.keepShadow (s : State) (die n : Nat) : State :=
  let mine := s.ms.shadows.filter (fun h => h.die == die)
  let old := if 32768 ≤ mine.length then (match s.ms.shadows.find? (fun h => h.die == die) with
    | some h => s.ms.shadows.erase h
    | none => s.ms.shadows) else s.ms.shadows
  let h : Shadow := { die := die, line := n, bytes := s.devRead (128 * n) 128, version := (s.line n).version,
                      since := s.clock (.die die) }
  { s with ms := { s.ms with shadows := old.filter (fun k => !(k.die == die && k.line == n)) ++ [h] } }

/-- The line number of a placed element's physical address; ld.hn creates entries on device pages only. -/
def Placed.pline (p : Placed) : Nat := p.place.lineNo

/-- The distinct lines of an ld.hn by effective address, with their physical lines (R231). -/
def hnLines (ps : List Placed) : List (Nat × Nat) := (ps.map (fun p => (p.ea / 128, p.pline))).eraseDups

/-- Whether R231 makes an ld.hn an ld. -/
def Iss.hnPlain (c : Iss) (ps : List Placed) : Bool :=
  let die := dieOfCore c.g.core
  c.st.drydown c.ctx || ps.any (fun p => p.leaf.cls != 0 || !p.leaf.cache) ||
  (ps.all (fun p => !p.leaf.member && !p.leaf.format) && ps.all (fun p => c.st.hnHeld die p.pline)) ||
  c.g.watch.all (fun e => e.st != .free) || decide (64 < (hnLines ps).length)

/-- The bytes that an ld.hn returns for an element: the shadow's under the core's partials and the group's own writes, or the current
ones (R231, R237). -/
def Iss.hnBytes (c : Iss) (x : LoadElem) : List Byte :=
  let die := dieOfCore c.g.core
  match x.place with
  | .dev a =>
    match (if c.st.hnHeld die (a / 128) then none else c.st.shadowOf die (a / 128)) with
    | some h => (c.g.writesBefore c.g.seq).foldl (fun bs w => overlayBytes x.place bs w.1 w.2)
        (c.st.shadowRead c.g.core (a / 128) h.bytes a x.n)
    | none => c.st.groupRead c.g c.g.seq x.place x.n
  | .peer _ _ => []
  | .host _ _ => []

/-- The watch line of a line, and what reading it leaves behind: a holder, a shadow, or nothing (the table of R231). -/
def State.hnLine (s : State) (core n : Nat) : WatchLine × State :=
  let die := dieOfCore core
  let sure : WatchLine := { line := n, version := (s.line n).version.toNat, answer := some true, st := .confirmed }
  if s.hnHeld die n then (sure, s.readTouch core n true)
  else match s.shadowOf die n with
    | some h => ({ line := n, version := h.version.toNat, answer := none, st := .pending }, s)
    | none => (sure, s.keepShadow die n)

/-- The watch lines of an ld.hn. -/
def State.hnWatch (s : State) (core : Nat) (ls : List (Nat × Nat)) : List WatchLine × State :=
  ls.foldl (fun acc l =>
    let r := acc.2.hnLine core l.2
    (acc.1 ++ [r.1], r.2)) ([], s)

/-- An ld.hn that creates an entry: registers written at issue, lowest free entry (R341). -/
def Iss.startHn (c : Iss) (t d : Nat) (ps : List Placed) : Eff :=
  let die := dieOfCore c.g.core
  let xs := ps.map (fun p => p.load t)
  let fresh := ps.filter (fun p => c.st.hnHeld die p.pline || (c.st.shadowOf die p.pline).isNone)
  if xs.any (fun x => !x.ready c.g c.g.seq) then .stall
  else
    match (fresh.findSome? (fun p => c.st.placeGate p.place p.width)).orElse (fun _ => xs.findSome? (fun x =>
        x.conv.scale?.bind (fun q => c.st.placeGate q 2))) with
    | some s => c.gated s
    | none =>
      match fresh.find? (fun p => c.st.poisonAt p.place p.width) with
      | some p => .waits (c.st.groupFatal c.g 5 (p.pline * 128))
      | none =>
        let f := fun e => match xs.find? (fun x => x.elem == e) with
          | some x =>
            let k := c.st.scalePair c.g c.g.seq x.conv
            x.conv.apply (leNat (c.hnBytes x)) x.n k.1 k.2
          | none => 0
        let (ws, s1) := c.st.hnWatch c.g.core (hnLines ps)
        let i := (c.g.watch.findIdx? (fun e => e.st == .free)).getD 0
        let st : WatchState := if ws.all (fun w => w.st == .confirmed) then .confirmed else .pending
        let g1 := if typeWidth t == 8 then c.g.setV64 d c.mask (fun e => BitVec.ofNat 64 (f e))
          else c.g.setV d c.mask (fun e => BitVec.ofNat 32 (f e))
        c.doneIn s1 { g1 with watch := g1.watch.set i { st := st, lines := ws }, lastp1 := i + 1, seq := g1.seq + 1 }

/-- ld.hn. Where R231 makes it an ld it also stamps as one, and LASTP1 becomes 0. -/
def execLdHn (t : Fin 16) (d : Fin 128) (b : Fin 64) (i : Option (Fin 128)) (s : State) :
    Host.Outcome State Fault Refusal :=
  runInstr s ([if typeWidth t == 8 then opWd 11 d else opVd 11 d, opS 18 b] ++ (i.map (fun r => opV 24 r.val)).toList)
    fun c => c.checked .read t b (i.map (·.val)) none (fun _ => none) (fun k ps =>
      if k.hnPlain ps then k.withStamps .read false ps (fun j => { j with g := { j.g with lastp1 := 0 } }.startLoad t d ps)
      else k.startHn t d ps)

/-- Whether a mask of hnchk selects an entry. -/
def selects (m i : Nat) : Bool := m.testBit i

/-- hnchk. A shadow whose check has not been answered when its STRUCK entry goes is discarded, as may be done at any time (R225). -/
def execHnchk (a : Fin 64) (o : BitVec 15) (s : State) : Host.Outcome State Fault Refusal :=
  runInstr s [opS 11 a] fun c =>
    let m := (c.g.s a).toNat % 65536
    let sel := (List.range c.g.watch.length).filter (selects m)
    let has := fun (k : WatchState) => sel.any (fun i => (c.g.watch[i]?.map (·.st)) == some k)
    if has .pending then c.waitFor .fence
    else
      let freed := c.g.watch.mapIdx (fun i e => if selects m i && (e.st == .confirmed || e.st == .struck) then
        { st := .free, lines := [] } else e)
      let dropped := sel.flatMap (fun i => match c.g.watch[i]? with
        | some e => (e.lines.filter (fun w => w.st == .pending)).map (·.line)
        | none => [])
      let g := { c.g with watch := freed }
      let s1 := dropped.foldl (fun s n => s.dropShadow (dieOfCore g.core) n) c.st
      let c := { c with st := s1 }
      if has .struck then c.jumpTo g (pcPlus c.ps.pc (2 * o.toInt)) else c.done g

/-- A watch entry of a group changed. -/
def State.mapWatch (s : State) (g : Group) (entry : Nat) (f : WatchEntry → WatchEntry) : State :=
  s.putGroup { g with watch := g.watch.modify entry f }

/-- A watch line of a PENDING or STRUCK entry that a test accepts: the checks of a struck entry's other lines are still answered. -/
def State.watchLine (s : State) (core slot entry line : Nat) (f : WatchLine → Bool) : Option (Group × WatchLine) :=
  match s.group? core slot with
  | none => none
  | some g => match g.watch[entry]? with
    | none => none
    | some e => if e.st != .pending && e.st != .struck then none
      else (e.lines.find? (fun w => w.line == line && f w)).map (fun w => (g, w))

/-- HEADNOTE_CHECK: the home or the holder compares the versions when the check arrives; a line whose record is being
killed strikes (R232). -/
def execHeadnoteCheck (core slot entry line : Nat) (s : State) : Host.Outcome State Fault Refusal :=
  eventOf s "HEADNOTE_CHECK" (s.watchLine core slot entry line (fun w => w.st == .pending && w.answer.isNone)) fun x =>
    let ok := (s.line line).version.toNat == x.2.version && (s.line line).recorded && !s.killPending (128 * line) 128
    s.mapWatch x.1 entry (fun e => { e with lines := e.lines.map (fun w =>
      if w.line == line && w.st == .pending && w.answer.isNone then { w with answer := some ok } else w) })

/-- A PENDING entry after a line's state has changed; a STRUCK one stays so (R232, R233). -/
def WatchEntry.resolve (e : WatchEntry) : WatchEntry :=
  if e.st == .struck || e.lines.any (fun w => w.st == .struck) then { e with st := .struck }
  else if e.lines.all (fun w => w.st == .confirmed) then { e with st := .confirmed }
  else e

/-- HEADNOTE_CHECK_ANSWER: a confirm or strike reaches the core; a strike discards the die's shadow (R225, R233). -/
def execHeadnoteCheckAnswer (core slot entry line : Nat) (s : State) : Host.Outcome State Fault Refusal :=
  eventOf s "HEADNOTE_CHECK_ANSWER" (s.watchLine core slot entry line (fun w => w.st == .pending && w.answer.isSome)) fun x =>
    let ok := x.2.answer == some true
    let s1 := s.mapWatch x.1 entry (fun e => WatchEntry.resolve { e with lines := e.lines.map (fun w =>
      if w.line == line && w.st == .pending then { w with st := if ok then .confirmed else .struck } else w) })
    if ok then s1 else s1.dropShadow (dieOfCore core) line

/-! ## Evictions, recalls, expiries -/

/-- L1_EVICTION: a line without partials leaves an L1 (R221, R237). An inexact directory entry keeps every core of the die (R241). -/
def execL1Eviction (core line : Nat) (s : State) : Host.Outcome State Fault Refusal :=
  let r := s.line line
  event s "L1_EVICTION"
    (r.sharers.contains core && !s.ms.partials.any (fun p => p.core == core && overlaps p.pa p.n (128 * line) 128))
    (s.putLine { r with sharers := if r.inexact then r.sharers else r.sharers.filter (· != core) })

/-- LLC_RECALL (R223). -/
def execLlcRecall (line : Nat) (s : State) : Host.Outcome State Fault Refusal :=
  event s "LLC_RECALL" (s.line line).holder.isSome (s.recall line)

/-- DIE_L2_EVICTION: not of a line with a live stamp (R244). -/
def execDieL2Eviction (die line : Nat) (s : State) : Host.Outcome State Fault Refusal :=
  event s "DIE_L2_EVICTION" ((s.line line).holder == some die && !s.lineStamped line) (s.letGo line)

/-- A shadow kill sent to all 8 dies for a line whose tracking state is lost; the version starts again at 0. -/
def State.sendKill (s : State) (line : Nat) : State :=
  let s1 := (s.strikeChecks line).llcCount line 4
  { s1 with ms := { s1.ms with shadowKills := s1.ms.shadowKills ++ (List.range 8).map (fun d => (d, line)) } }

/-- LLC_RECORD_EVICTION: the record of a line that no die holds goes (R226). -/
def execLlcRecordEviction (line : Nat) (s : State) : Host.Outcome State Fault Refusal :=
  let r := s.line line
  event s "LLC_RECORD_EVICTION" (r.recorded && r.holder.isNone && !s.lineStamped line && !s.killPending (128 * line) 128)
    ((s.putLine { LineRec.fresh line with poison := r.poison, hostLo := r.hostLo, hostHi := r.hostHi }).sendKill line)

/-- SHADOW_KILL: a die discards its shadow and strikes the watch lines that name the line (R226). -/
def execShadowKill (die line : Nat) (s : State) : Host.Outcome State Fault Refusal :=
  event s "SHADOW_KILL" (s.ms.shadowKills.contains (die, line))
    (({ s with ms := { s.ms with shadowKills := s.ms.shadowKills.erase (die, line) } } : State).dropShadow die line |>.mapGroups
      (fun g => if dieOfCore g.core != die then g else { g with watch := g.watch.map (fun e =>
        if e.st != .pending && e.st != .struck then e else WatchEntry.resolve { e with lines := e.lines.map (fun w =>
          if w.line == line then { w with st := .struck } else w) }) }))

/-- SHADOW_EXPIRY: a shadow goes, at 2^20 cycles or at any time to free space (R225). -/
def execShadowExpiry (die line : Nat) (s : State) : Host.Outcome State Fault Refusal :=
  event s "SHADOW_EXPIRY" (s.ms.shadows.any (fun h => h.die == die && h.line == line)) (s.dropShadow die line)

/-- PEER_COPY_EXPIRY: a die drops a copy of a peer line, at 2^20 cycles or at any time to free space (R247). -/
def execPeerCopyExpiry (die peer line : Nat) (s : State) : Host.Outcome State Fault Refusal :=
  event s "PEER_COPY_EXPIRY" (s.ms.peerCopies.any (fun q => q.die == die && q.peer == peer && q.line == line))
    { s with ms := { s.ms with
      peerCopies := s.ms.peerCopies.filter (fun q => !(q.die == die && q.peer == peer && q.line == line)) } }

/-- Whether a stamp lies with a die: in its overflow table or in the metadata of a line that it holds. -/
def State.stampAt (s : State) (die : Nat) (t : Stamp) : Bool :=
  match t.heldBy with
  | some d => d == die
  | none => (s.line (t.sector / 8)).holder == some die || (s.line (t.sector / 8)).holder.isNone

/-- STAMP_SWEEP: a die discards its dead stamps (R244). -/
def execStampSweep (die : Nat) (s : State) : Host.Outcome State Fault Refusal :=
  let dead := fun (t : Stamp) => s.stampAt die t && !s.stampLive t
  event s "STAMP_SWEEP" (decide (die < 8) && s.ms.stamps.any dead)
    { s with ms := { s.ms with stamps := s.ms.stamps.filter (fun t => !dead t) } }

/-! ## Errors of directories, records and data (R241, R242, R455) -/

/-- DIRECTORY_ERROR: every core of the die counts as a sharer until the line leaves (R241). -/
def execDirectoryError (die line : Nat) (s : State) : Host.Outcome State Fault Refusal :=
  let r := s.line line
  event s "DIRECTORY_ERROR" (r.holder == some die)
    ((s.putLine { r with sharers := (List.range 32).map (32 * die + ·), inexact := true }).logUnit 0 2 die (128 * line) 0)

/-- HOLDER_RECORD_ERROR: all dies are asked; the holder, if there is one, is recorded again; the version is lost
(R242). -/
def execHolderRecordError (line : Nat) (s : State) : Host.Outcome State Fault Refusal :=
  let r := s.line line
  event s "HOLDER_RECORD_ERROR" (r.recorded && !s.killPending (128 * line) 128)
    (((s.putLine { r with version := 0, recorded := r.holder.isSome }).sendKill line).logUnit 0 3
      (llcSliceOf (128 * line)) (128 * line) 0)

/-- UNCORRECTABLE_DATA_ERROR: the line is poisoned (R455). The spec gives the record of kind 4 no class: a free value
(log 8). -/
def execUncorrectableDataError (line : Nat) (s : State) : Host.Outcome State Fault Refusal :=
  let f := s.takeFree
  event s "UNCORRECTABLE_DATA_ERROR" (decide (128 * line < devLimit))
    ((f.2.putLine { f.2.line line with poison := true }).logUnit (f.1 % 5) 4 (llcSliceOf (128 * line)) (128 * line) 0)

/-! ## The host bridge (R228, R230, R397) -/

/-- The configuration of a port. -/
def State.portModeOf (s : State) (port : Nat) : PortMode :=
  match s.mgmt.ports.find? (fun p => p.id == port) with
  | some p => p.mode
  | none => .pcie

/-- Whether a port's host may hold halves. -/
def PortMode.hasMem : PortMode → Bool
  | .pcie => false
  | .cxl _ m => m

/-- Whether a host port answers requests: the device READY, its link in service. -/
def State.portServes (s : State) (port : Nat) : Bool :=
  s.mgmt.devState == .ready && decide (port < 2) && s.linkCarries (0x300 + port)

/-- The port that holds a half of a line. -/
def LineRec.half (r : LineRec) (high : Bool) : Option Nat := if high then r.hostHi else r.hostLo

/-- A half given to a port or taken back. -/
def LineRec.setHalf (r : LineRec) (high : Bool) (p : Option Nat) : LineRec :=
  if high then { r with hostHi := p } else { r with hostLo := p }

/-- The address of a half. -/
def halfAt (line : Nat) (high : Bool) : Nat := 128 * line + (if high then 64 else 0)

/-- What a host read brings back: bytes and poison. -/
def State.replyHost (s : State) (pa n : Nat) : State :=
  { s with mgmt := { s.mgmt with hostReply := s.devRead pa n, hostPoison := s.anyPoison pa n } }

/-- HOST_TAKES_HALF. A half of the other port is called back first. -/
def execHostTakesHalf (port line : Nat) (high : Bool) (s : State) : Host.Outcome State Fault Refusal :=
  let r := s.line line
  let ok := s.portServes port && (s.portModeOf port).hasMem && decide (128 * line < devLimit) && !s.recordWaits (128 * line) 128
  match r.half high with
  | none => event s "HOST_TAKES_HALF" ok
      ((s.putLine { r.setHalf high (some port) with recorded := true, cached := true }).replyHost (halfAt line high) 64)
  | some q => event s "HOST_TAKES_HALF" (ok && q != port && s.snoop line high q != s) (s.snoop line high q)

/-- A half returned: a modified one is written as a store, the version increments. -/
def State.takeBackHalf (s : State) (line : Nat) (high : Bool) (data : Option (List Byte)) : State :=
  let s1 := s.putLine ((s.line line).setHalf high none)
  match data with
  | some bs => s1.serveWrite (halfAt line high) bs
  | none => s1

/-- Whether returned data is a half's. -/
def halfData (data : Option (List Byte)) : Bool :=
  match data with
  | some bs => bs.length == 64
  | none => true

/-- BACK_INVALIDATE_RESPONSE. -/
def execBackInvalidateResponse (port line : Nat) (high : Bool) (data : Option (List Byte)) (s : State) :
    Host.Outcome State Fault Refusal :=
  let mine := fun (b : Nat × Nat × Bool × Nat) => b.1 == port && b.2.1 == line && b.2.2.1 == high
  event s "BACK_INVALIDATE_RESPONSE" (s.ms.backInv.any mine && halfData data && s.linkCarries (0x300 + port) &&
      !s.recordWaits (halfAt line high) 64)
    (({ s with ms := { s.ms with backInv := s.ms.backInv.filter (fun b => !mine b) } } : State).takeBackHalf line high data)

/-- HOST_WRITEBACK: a host writes back or drops a half; a snoop on its way for it is answered with it. -/
def execHostWriteback (port line : Nat) (high : Bool) (data : Option (List Byte)) (s : State) :
    Host.Outcome State Fault Refusal :=
  let mine := fun (b : Nat × Nat × Bool × Nat) => b.1 == port && b.2.1 == line && b.2.2.1 == high
  event s "HOST_WRITEBACK" ((s.line line).half high == some port && halfData data && s.linkCarries (0x300 + port) &&
      !s.recordWaits (halfAt line high) 64)
    (({ s with ms := { s.ms with backInv := s.ms.backInv.filter (fun b => !mine b) } } : State).takeBackHalf line high data)

/-- HOST_BAR2_ACCESS: a read or write of device memory, served at the LLC home after the halves that a host holds have
come back (R228, R397). -/
def execHostBar2Access (port pa len : Nat) (data : Option (List Byte)) (s : State) : Host.Outcome State Fault Refusal :=
  let fits := match data with
    | some bs => bs.length == len && decide (len ≤ 512)
    | none => decide (len ≤ 4096)
  eventOf s "HOST_BAR2_ACCESS"
    (if !s.portServes port || !fits || len == 0 || devLimit < pa + len then none
     else match s.placeGate (.dev pa) len with
       | some s' => if s' == s then none else some s'
       | none => some (match data with
         | some bs => s.serveWrite pa bs
         | none => s.replyHost pa len))
    (fun s' => s')

/-- The width of a host AtomicOp. -/
def hostAtomicWidth : HostAtomic → Nat
  | .fetchAdd w _ => if w then 8 else 4
  | .swap w _ => if w then 8 else 4
  | .cas w _ _ => if w then 8 else 4

/-- The new value of a host AtomicOp. -/
def hostAtomicNew (a : HostAtomic) (o : Nat) : Nat :=
  match a with
  | .fetchAdd _ x => (o + x.toNat) % 2 ^ (8 * hostAtomicWidth a)
  | .swap _ x => x.toNat % 2 ^ (8 * hostAtomicWidth a)
  | .cas _ c n => if o == c.toNat % 2 ^ (8 * hostAtomicWidth a) then n.toNat % 2 ^ (8 * hostAtomicWidth a) else o

/-- HOST_ATOMICOP: executed at the bank ALU, the old value returned (R397, R239). -/
def execHostAtomicop (port pa : Nat) (op : HostAtomic) (s : State) : Host.Outcome State Fault Refusal :=
  let n := hostAtomicWidth op
  eventOf s "HOST_ATOMICOP"
    (if !s.portServes port || pa % n != 0 || devLimit < pa + n then none
     else match s.placeGate (.dev pa) n with
       | some s' => if s' == s then none else some s'
       | none =>
         let s1 := (s.recall (pa / 128)).replyHost pa n
         some (if s.anyPoison pa n then s1 else (s1.serveWrite pa (leBytes n (hostAtomicNew op (s.devLE pa n)))).countBank (.dev pa)))
    (fun s' => s')

/-- CXL_CACHE_SNOOP: a modified line goes back to the host; the copy is dropped or kept clean (R230). -/
def execCxlCacheSnoop (port line : Nat) (drop : Bool) (s : State) : Host.Outcome State Fault Refusal :=
  eventOf s "CXL_CACHE_SNOOP" (s.ms.hostLines.find? (fun h => h.port == port && h.line == line)) fun h =>
    let s1 := s.returnHost port line
    if drop then s1 else { s1 with ms := { s1.ms with hostLines := s1.ms.hostLines ++ [{ h with modified := false }] } }

end Sys2Proof.Machine
end

