-- ==== Sys2Proof/Machine/Barrier.lean ====
section
/-! DEFINITION. Barrier objects (spec file 11): their bytes, phases, counts, the barrier instructions and the byte counts
of transfers. -/

namespace Sys2Proof.Machine

/-! ## Objects (R272, R273) -/

/-- A valid barrier object's fields; `flags` are STALE, DEVOVER, BOVF and ENGHIT as bits 1 to 4. -/
structure Bar where
  expect : Nat
  arr0 : Nat
  arr1 : Nat
  phase : Nat
  pend0 : Int
  pend1 : Int
  waiters : Nat
  flags : Nat
  deriving DecidableEq, Repr

/-- The 32 bytes of a valid object. -/
def Bar.bytes (b : Bar) : List Byte :=
  leBytes 2 b.expect ++ leBytes 2 b.arr0 ++ leBytes 2 b.arr1 ++ leBytes 2 b.phase ++ leBytes 4 (bitsOfInt 32 b.pend0) ++
    leBytes 4 (bitsOfInt 32 b.pend1) ++ leBytes 2 b.waiters ++ leBytes 2 (1 + b.flags) ++ List.replicate 12 0

/-- The object at an offset of a cluster's SRAM, if it is valid. -/
def State.bar? (s : State) (cluster o : Nat) : Option Bar :=
  if s.ms.barriers.contains (cluster, o) then
    let f := fun k n => s.sramLE cluster (o + k) n
    some { expect := f 0 2, arr0 := f 2 2, arr1 := f 4 2, phase := f 6 2, pend0 := intOfBits 32 true (f 8 4),
           pend1 := intOfBits 32 true (f 12 4), waiters := f 16 2, flags := f 18 2 - f 18 2 % 2 }
  else none

/-- An object written by the barrier unit. -/
def State.putBar (s : State) (cluster o : Nat) (b : Bar) : State := s.sramWrite cluster o b.bytes

/-- A sticky flag set. -/
def Bar.flag (b : Bar) (i : Nat) : Bar := if b.flags.testBit i then b else { b with flags := b.flags + 2 ^ i }

/-- How a wait for phase q stands to the current phase (R276). -/
inductive Passed where
  | passed | opened | far
  deriving DecidableEq, Repr

/-- passed() of R276. -/
def passed (p q : Nat) : Passed :=
  let d := (p + 65536 - q % 65536) % 65536
  if 1 ≤ d && d ≤ 32768 then .passed else if d == 0 || d == 65535 then .opened else .far

/-- settle() of R275 with the number of phases that it ends, at most two: that is the fuel. -/
def Bar.settle : Nat → Bar → Bar × Nat
  | 0, b => (b, 0)
  | n + 1, b =>
    if b.arr0 == b.expect && b.pend0 == 0 then
      let r := Bar.settle n { b with phase := (b.phase + 1) % 65536, arr0 := b.arr1, pend0 := b.pend1, arr1 := 0, pend1 := 0 }
      (r.1, r.2 + 1)
    else (b, 0)

/-! ## The end of a phase (R275, R281, R101) -/

/-- The unit whose run holds n bytes of a cluster's SRAM, if it is of a context. -/
def State.runUnit (s : State) (ctx cluster o n : Nat) : Option HUnit :=
  s.sched.units.find? (fun u => u.cluster == cluster && !u.saved && (match u.scratch with
    | some (off, len) => decide (off ≤ o) && decide (o + n ≤ off + len)
    | none => false) && (match s.launch? u.launch with
    | some l => l.ctx == ctx
    | none => false))

/-- The earliest phase of an object whose end a workgroup of a Drydown context has not admitted (R101, R281). -/
def State.unadmitted (s : State) (ctx unit wg cluster o : Nat) : Option Nat :=
  match s.ctx? ctx with
  | none => none
  | some c => (c.events.find? (fun e => e.kind == 0 && e.unit == unit && e.wg == wg && e.cluster == cluster && e.arg == o)).map (·.phase)

/-- The phase that a workgroup sees: the object's, or the earliest whose end it has still to observe. -/
def State.seenPhase (s : State) (ctx unit wg cluster o p : Nat) : Nat := (s.unadmitted ctx unit wg cluster o).getD p

/-- The context of a group. -/
def State.groupCtx (s : State) (g : Group) : Nat :=
  match s.launchOf g with
  | some l => l.ctx
  | none => 0

/-- The waiters of an object that see their phase passed are released and leave WAITERS. -/
def State.releaseWaiters (s : State) (cluster o : Nat) : State :=
  match s.bar? cluster o with
  | none => s
  | some b =>
    let due := fun (g : Group) => clusterOfCore g.core == cluster && g.saved.isNone && !g.released && (match g.barWait with
      | some (p, q) => p == o && passed (s.seenPhase (s.groupCtx g) g.unit g.wg cluster o b.phase) q == .passed
      | none => false)
    let n := (s.sched.groups.filter due).length
    (s.mapGroups (fun g => if due g then { g with released := true } else g)).putBar cluster o
      { b with waiters := b.waiters - n }

/-- The external events of ended phases, the first of them `start`: one for each resident workgroup of a Drydown context whose unit holds
the run, but for the workgroup that ended them itself (R101). -/
def State.phaseEvents (s : State) (cluster o start ends : Nat) (own : Option (Nat × Nat)) : State :=
  s.sched.wgs.foldl (fun st w =>
    match st.unit? w.unit with
    | none => st
    | some u =>
      match st.launch? u.launch with
      | none => st
      | some l =>
        let holds := u.cluster == cluster && !u.saved && (match u.scratch with
          | some (off, len) => decide (off ≤ o) && decide (o + 32 ≤ off + len)
          | none => false)
        if holds && st.drydown l.ctx && own != some (w.unit, w.index) then
          (List.range ends).foldl (fun st i =>
            st.addEvent l.ctx { kind := 0, launch := l.id, unit := w.unit, wg := w.index, arg := o, cluster := cluster,
                                phase := (start + i) % 65536 }) st
        else st) s

/-- An object stored after an arrival or a count: phases end, waiters are released. `own` is the workgroup of a group
arrival. -/
def State.settleBar (s : State) (cluster o : Nat) (b : Bar) (own : Option (Nat × Nat)) : State :=
  let r := Bar.settle 3 b
  ((s.putBar cluster o r.1).phaseEvents cluster o b.phase r.2 own).releaseWaiters cluster o

/-- byte_count() of R277. -/
def State.countBytes (s : State) (cluster o q n : Nat) : State :=
  match s.bar? cluster o with
  | none => s
  | some b =>
    if q == b.phase then
      (if b.pend0 - n < -(2 ^ 31) then s.putBar cluster o (b.flag 3)
       else s.settleBar cluster o { b with pend0 := b.pend0 - n } none)
    else if q == (b.phase + 1) % 65536 then
      (if b.pend1 - n < -(2 ^ 31) then s.putBar cluster o (b.flag 3)
       else s.settleBar cluster o { b with pend1 := b.pend1 - n } none)
    else s.putBar cluster o (b.flag 1)

/-- A device arrival (R277). -/
def State.deviceArrive (s : State) (ctx cluster o : Nat) : State :=
  match (if (s.runUnit ctx cluster o 32).isSome then s.bar? cluster o else none) with
  | none => s
  | some b =>
    if b.arr0 < b.expect then s.settleBar cluster o { b with arr0 := b.arr0 + 1 } none
    else if b.arr1 < b.expect then s.settleBar cluster o { b with arr1 := b.arr1 + 1 } none
    else s.putBar cluster o (b.flag 2)

/-- Whether a count's generation tag still names the run that holds its object (R153). -/
def State.barLive (s : State) (r : BarRef) : Bool :=
  s.sched.units.any (fun u => u.cluster == r.cluster && u.scratchGen == r.gen && !u.saved && (match u.scratch with
    | some (off, len) => decide (off ≤ r.offset) && decide (r.offset + 32 ≤ off + len)
    | none => false))

/-- BYTE_COUNT: a count reaches the barrier unit; one whose generation no longer matches is dropped (R277, R153). -/
def execByteCount (k : Nat) (s : State) : Host.Outcome State Fault Refusal :=
  eventOf s "BYTE_COUNT" s.eng.counts[k]? fun m =>
    let s1 := { s with eng := { s.eng with counts := s.eng.counts.eraseIdx k } }
    if s1.barLive m.bar then s1.countBytes m.bar.cluster m.bar.offset m.bar.phase m.n else s1

/-! ## Instructions (R283 to R290) -/

/-- BARRIER_FAULT with a reason. -/
def barrierTrap (o reason : Nat) : TrapInfo := { cause := causeBarrier, tinfo0 := o, tinfo1 := reason }

/-- The checks that every barrier instruction makes first, then its own part on the object's offset. -/
def Iss.onBarrier (c : Iss) (a : Nat) (body : Nat → Eff) : Eff :=
  let o := (c.g.s a).toNat
  if o % 32 != 0 then .trap { cause := causeAlign, tinfo0 := o, tinfo1 := accessWord .write 15 none 1 }
  else
    match c.u.scratch with
    | none => .trap { cause := causePermission, tinfo0 := o, tinfo1 := Access.write.code }
    | some (off, len) =>
      if off ≤ o && o + 32 ≤ off + len then body o
      else .trap { cause := causePermission, tinfo0 := o, tinfo1 := Access.write.code }

/-- binit. -/
def execBinit (a b : Fin 64) (s : State) : Host.Outcome State Fault Refusal :=
  runInstr s [opS 18 a, opS 24 b] fun c => c.onBarrier a fun o =>
    let e := (c.g.s b).toNat % 65536
    if e == 0 then .trap (barrierTrap o 3)
    else
      match c.st.bar? c.cluster o with
      | some x => if x.expect != e then .trap (barrierTrap o 3) else c.done c.g
      | none =>
        if !c.g.drained then .stall
        else
          let x : Bar := { expect := e, arr0 := 0, arr1 := 0, phase := (c.g.s b).toNat / 65536 % 65536, pend0 := 0,
                           pend1 := 0, waiters := 0, flags := 0 }
          let s1 := { c.st with ms := { c.st.ms with barriers := c.st.ms.barriers ++ [(c.cluster, o)] } }
          c.doneIn (s1.putBar c.cluster o x) c.g

/-- The object after an arrival for a phase, or the reason why it is refused. -/
def Bar.arrive (b : Bar) (q : Nat) : Except Nat Bar :=
  if q == b.phase then (if b.arr0 == b.expect then .error 4 else .ok { b with arr0 := b.arr0 + 1 })
  else if q == (b.phase + 1) % 65536 then (if b.arr1 == b.expect then .error 4 else .ok { b with arr1 := b.arr1 + 1 })
  else .error 2

/-- barr: the release first, then the arrival; a refusal leaves the release done (R286). -/
def execBarr (k : Fin 16) (a b : Fin 64) (s : State) : Host.Outcome State Fault Refusal :=
  runInstr s [opScope 12 k, opS 18 a, opS 24 b] fun c => c.onBarrier a fun o =>
    match c.releaseFirst k with
    | some e => e
    | none =>
      let d := c.released k
      match (match d.st.bar? d.cluster o with
        | none => Except.error 1
        | some x => x.arrive ((d.g.s b).toNat % 65536)) with
      | .error r => if c.st.queued c.g then .stall else .trapIn (d.st.putGroup d.g) d.g (barrierTrap o r)
      | .ok x =>
        .done ((d.st.putGroup (d.g.advance d.which d.len)).settleBar d.cluster o x (some (d.g.unit, d.g.wg)))

/-- The object after expected bytes for a phase, or the reason why they are refused. -/
def Bar.owe (b : Bar) (q n : Nat) : Except Nat Bar :=
  if n.testBit 31 then .error 5
  else if q == b.phase then
    (if 2 ^ 31 - 1 < b.pend0 + n then .error 5 else .ok { b with pend0 := b.pend0 + n })
  else if q == (b.phase + 1) % 65536 then
    (if 2 ^ 31 - 1 < b.pend1 + n then .error 5 else .ok { b with pend1 := b.pend1 + n })
  else .error 2

/-- bexp. -/
def execBexp (a b : Fin 64) (s : State) : Host.Outcome State Fault Refusal :=
  runInstr s [opS 18 a, opS 24 b] fun c => c.onBarrier a fun o =>
    let w := (c.g.s b).toNat
    match (match c.st.bar? c.cluster o with
      | none => Except.error 1
      | some x => x.owe (w / 2 ^ 32 % 65536) (w % 2 ^ 32)) with
    | .error r => .trap (barrierTrap o r)
    | .ok x => .done ((c.st.putGroup (c.g.advance c.which c.len)).settleBar c.cluster o x (some (c.g.unit, c.g.wg)))

/-- The acquire that ends a bwait, once its waits are over. -/
def Iss.endBwait (c : Iss) (scope : Nat) : Eff :=
  c.doneIn (c.st.doAcquire c.g scope) { c.g with released := false }

/-- Whether the acquire of a bwait has to wait (R250, R262). -/
def Iss.bwaitHolds (c : Iss) (scope : Nat) : Bool := c.g.watching .pending || c.g.acquireWaits scope

/-- A group in bwait, counted in WAITERS or already released. -/
def Iss.waitBar (c : Iss) (s : State) (o q : Nat) (released : Bool) : Eff :=
  let g := c.g.setPcSlot c.which { c.ps with last := c.g.retired + 1 }
  .waits (s.putGroup { g with st := .wait (.bar o q), prevSt := c.g.st, released := released })

/-- bwait (R288). -/
def execBwait (k : Fin 16) (a b : Fin 64) (s : State) : Host.Outcome State Fault Refusal :=
  runInstr s [opScope 12 k, opS 18 a, opS 24 b] fun c => c.onBarrier a fun o =>
    let q := (c.g.s b).toNat % 65536
    if c.waiting then
      (if c.g.released && !c.bwaitHolds k then c.endBwait k else c.waitBar c.st o q c.g.released)
    else
      match c.st.bar? c.cluster o with
      | none => .trap (barrierTrap o 1)
      | some x =>
        match passed (c.st.seenPhase c.ctx c.g.unit c.g.wg c.cluster o x.phase) q with
        | .far => .trap (barrierTrap o 7)
        | .opened => c.waitBar (c.st.putBar c.cluster o { x with waiters := x.waiters + 1 }) o q false
        | .passed => if c.bwaitHolds k then c.waitBar c.st o q true else c.endBwait k

/-- btest (R289). -/
def execBtest (d a b : Fin 64) (s : State) : Host.Outcome State Fault Refusal :=
  runInstr s [opS 12 d, opS 18 a, opS 24 b] fun c => c.onBarrier a fun o =>
    let q := (c.g.s b).toNat % 65536
    match c.st.bar? c.cluster o with
    | none => .trap (barrierTrap o 1)
    | some x =>
      let p := c.st.seenPhase c.ctx c.g.unit c.g.wg c.cluster o x.phase
      let r := passed p q
      if r == .far then .trap (barrierTrap o 7)
      else c.done (c.g.setS d (BitVec.ofNat 64 ((if r == .passed then 1 else 0) + (if q == p then 2 else 0) +
        (if q == (p + 1) % 65536 then 4 else 0) + p * 65536)))

/-- binval (R290). -/
def execBinval (a : Fin 64) (s : State) : Host.Outcome State Fault Refusal :=
  runInstr s [opS 18 a] fun c => c.onBarrier a fun o =>
    match c.st.bar? c.cluster o with
    | none => c.done c.g
    | some x =>
      if x.waiters != 0 then .trap (barrierTrap o 6)
      else
        let s1 := { c.st with ms := { c.st.ms with barriers := c.st.ms.barriers.filter (· != (c.cluster, o)) } }
        c.doneIn (s1.sramWrite c.cluster o (List.replicate 32 0)) c.g

end Sys2Proof.Machine
end

