-- ==== Sys2Proof/Machine/Copy.lean ====
section
/-! DEFINITION. The copy engines (R350 to R358): cpy, cpy2 and hcpy, and the events in which commands start, write their
units, fault and complete (R258). -/

namespace Sys2Proof.Machine

/-! ## The command block (R350 to R354) -/

/-- What a command block asks for, before translation. -/
structure CopyAsk where
  src : Endpoint
  dst : Endpoint
  geom : Geometry
  bar : Option (Nat × Nat)
  phase : Nat
  aligned : List Nat
  deriving DecidableEq, Repr

/-- A cluster SRAM endpoint or BAR word: cluster and offset; none where a reserved bit is set (R351). -/
def sramWordOf (own x : Nat) : Option (Nat × Nat) :=
  let o := x.testBit 28
  if x / 2 ^ 29 != 0 || (o && x / 2 ^ 22 % 64 != 0) then none
  else some (if o then own else x / 2 ^ 22 % 64, x % 2 ^ 22)

/-- An endpoint of a space code: a 57-bit address, or an SRAM word (R351). -/
def endpointOf (own space x : Nat) : Option Endpoint :=
  if space == 0 then (if 2 ^ 57 ≤ x then none else some (.virt x)) else (sramWordOf own x).map (fun p => .sram p.1 p.2)

/-- The rows of cpy2 (R353). -/
def geomCpy2 (g p : Nat) : Option Geometry :=
  let rows := g % 2 ^ 16
  let len := g / 2 ^ 16 % 2 ^ 24
  if g / 2 ^ 40 != 0 || rows == 0 || len == 0 || 2 ^ 31 - 1 < rows * len then none
  else some { planes := 1, rows := rows, len := len, spitch := p % 2 ^ 32, dpitch := p / 2 ^ 32, sstride := 0, dstride := 0 }

/-- The strip of hcpy: its rows, and where it starts in a plane of the tile (R354). -/
def geomHcpy (g p ss ds : Nat) : Option (Geometry × Nat) :=
  let rows := g % 2 ^ 16
  let len := g / 2 ^ 16 % 2 ^ 24
  let hw := g / 2 ^ 40 % 256
  let edge := g / 2 ^ 48 % 4
  let planes := g / 2 ^ 50 % 8 + 1
  let js := if edge < 2 then hw else rows
  let w := if edge < 2 then len else 4 * hw
  let sp := p % 2 ^ 32
  let most := if edge < 2 then rows else len / 4
  if g / 2 ^ 53 != 0 || rows == 0 || len == 0 || hw == 0 || most < hw || 2 ^ 31 - 1 < planes * js * w then none
  else
    let start := if edge == 1 then (rows - hw) * sp else if edge == 3 then len - 4 * hw else 0
    some ({ planes := planes, rows := js, len := w, spitch := sp, dpitch := p / 2 ^ 32, sstride := ss, dstride := ds }, start)

/-- An endpoint moved by some bytes. -/
def Endpoint.plus (e : Endpoint) (n : Nat) : Endpoint :=
  match e with
  | .virt a => .virt ((a + n) % 2 ^ 64)
  | .sram c o => .sram c (o + n)

/-- The address or offset of an endpoint. -/
def Endpoint.addr : Endpoint → Nat
  | .virt a => a
  | .sram _ o => o

/-- The address of a virtual endpoint. -/
def Endpoint.virt? : Endpoint → Option Nat
  | .virt a => some a
  | .sram _ _ => none

/-- The block of n registers read: cpy, cpy2 and hcpy have 4, 6 and 8 (R350). None where a value is out of its range. -/
def copyAsk (own n : Nat) (r : Nat → Nat) : Option CopyAsk :=
  let ctl := r 2
  let len := ctl % 2 ^ 32
  let phase := ctl / 2 ^ 32 % 2 ^ 16
  let nobar := ctl.testBit 52
  if ctl / 2 ^ 53 != 0 || 2 ≤ ctl / 2 ^ 48 % 4 || 2 ≤ ctl / 2 ^ 50 % 4 || (nobar && (r 3 != 0 || phase != 0)) then none
  else
    match endpointOf own (ctl / 2 ^ 48 % 4) (r 0), endpointOf own (ctl / 2 ^ 50 % 4) (r 1),
        (if nobar then some (0, 0) else sramWordOf own (r 3)) with
    | some s, some d, some b =>
      let bar := if nobar then none else some b
      if n == 4 then
        if 2 ^ 31 ≤ len then none
        else
          let g : Geometry := { planes := 1, rows := 1, len := len, spitch := 0, dpitch := 0, sstride := 0, dstride := 0 }
          some { src := s, dst := d, geom := g, bar := bar, phase := phase, aligned := [s.addr, d.addr, len] }
      else if len != 0 then none
      else if n == 6 then
        (geomCpy2 (r 4) (r 5)).map (fun g =>
          { src := s, dst := d, geom := g, bar := bar, phase := phase, aligned := [s.addr, d.addr, g.len, g.spitch, g.dpitch] })
      else
        (geomHcpy (r 4) (r 5) (r 6) (r 7)).map (fun g =>
          { src := s.plus g.2, dst := d, geom := g.1, bar := bar, phase := phase,
            aligned := [s.addr, d.addr, r 4 / 2 ^ 16 % 2 ^ 24, g.1.spitch, g.1.dpitch, r 6, r 7] })
    | _, _, _ => none

/-- How many rows a copy has. -/
def Geometry.count (g : Geometry) : Nat := g.planes * g.rows

/-- Where row i starts from the source and the destination. -/
def Geometry.offsets (g : Geometry) (i : Nat) : Nat × Nat :=
  let p := i / g.rows
  let j := i % g.rows
  (p * g.sstride + j * g.spitch, p * g.dstride + j * g.dpitch)

/-! ## Issue (R355) -/

/-- The translations of the pages that len bytes from an address touch, with how each fails. A step goes past one leaf, or
past 4 KiB where there is none: that bounds the fuel. -/
def State.xlRange (s : State) (die ctx : Nat) (a : Access) : Nat → Nat → Nat → List (Nat × Xl)
  | 0, _, _ => []
  | n + 1, va, len =>
    if len == 0 then []
    else
      let x := (s.translate none die ctx va).access a va
      let next := match x with
        | .ok _ l => l.base + l.bytes
        | .fail _ _ _ _ => (va / 4096 + 1) * 4096
      (va, x) :: s.xlRange die ctx a n next (len - (next - va))

/-- The translations of the rows of an endpoint. -/
def State.xlRows (s : State) (die ctx : Nat) (a : Access) (e : Endpoint) (g : Geometry) (f : Nat × Nat → Nat) : List (Nat × Xl) :=
  match e with
  | .sram _ _ => []
  | .virt va => (List.range g.count).flatMap (fun i =>
      s.xlRange die ctx a (g.len / 4096 + 2) ((va + f (g.offsets i)) % 2 ^ 64) g.len)

/-- The leaves among translations. -/
def leavesOf (xs : List (Nat × Xl)) : List Leaf :=
  (xs.filterMap (fun x => match x.2 with
    | .ok _ l => some l
    | .fail _ _ _ _ => none)).eraseDups

/-- The bytes from the lowest to the highest that the rows of an endpoint cover, as an offset and a length. -/
def Geometry.extent (g : Geometry) (base : Nat) (f : Nat × Nat → Nat) : Nat × Nat :=
  let starts := (List.range g.count).map (fun i => base + f (g.offsets i))
  let lo := starts.foldl min (starts.headD base)
  let hi := starts.foldl max 0 + g.len
  (lo, hi - lo)

/-- The trap of a translation failure of a command: no element is named (R355). -/
def Iss.cmdXlFail (c : Iss) (a : Access) (xs : List (Nat × Xl)) : Option Eff :=
  (worstFail xs).map (fun r =>
    let (f, _, ea, level, perm, _) := r
    c.xStop f a ea level perm none 0)

/-- The generation of the run that holds bytes of a cluster's SRAM. -/
def State.runGen (s : State) (ctx cluster o n : Nat) : Option Nat := (s.runUnit ctx cluster o n).map (·.scratchGen)

/-- PERMISSION_FAULT of an offset. -/
def sramTrap (o : Nat) (a : Access) : Eff := .trap { cause := causePermission, tinfo0 := o, tinfo1 := a.code }

/-- Check 4 of R355: what is wrong with the cluster SRAM endpoints and the barrier, else the two generations. -/
def Iss.copyRuns (c : Iss) (k : CopyAsk) : Except Eff (Nat × Option BarRef) :=
  let src := match k.src with
    | .virt _ => true
    | .sram cl o =>
      let x := k.geom.extent o (·.1)
      cl == c.cluster && decide (x.1 + x.2 ≤ 2 ^ 22)
  if !src then .error (sramTrap k.src.addr .read)
  else
    let dst : Option Nat := match k.dst with
      | .virt _ => some 0
      | .sram cl o =>
        let x := k.geom.extent o (·.2)
        c.st.runGen c.ctx cl x.1 x.2
    match dst with
    | none => .error (sramTrap k.dst.addr .write)
    | some dg =>
      match k.bar with
      | none => .ok (dg, none)
      | some (cl, o) =>
        match c.st.runGen c.ctx cl o 32 with
        | none => .error (sramTrap o .write)
        | some bg =>
          if o % 32 != 0 then .error (.trap { cause := causeAlign, tinfo0 := o, tinfo1 := accessWord .write 15 none 2 })
          else .ok (dg, some { cluster := cl, offset := o, phase := k.phase, gen := bg })

/-- A command accepted. -/
def Iss.acceptCopy (c : Iss) (k : CopyAsk) (leaves : List Leaf) (dg : Nat) (bar : Option BarRef) : Eff :=
  let cmd : CeCmd :=
    { id := c.st.eng.nextCmd, cluster := c.cluster, ctx := c.ctx, region := c.l.region, launch := c.l.id, unit := c.g.unit,
      core := c.g.core, slot := c.g.slot, inst := c.g.inst, issued := c.g.seq, src := k.src, dst := k.dst, geom := k.geom, bar := bar,
      dstGen := dg, leaves := leaves, stale := [], started := false, paused := false, pausedOn := none, done := [], ended := false }
  let s1 := { c.st with eng := { c.st.eng with nextCmd := c.st.eng.nextCmd + 1, ceCmds := c.st.eng.ceCmds ++ [cmd] } }
  c.doneIn s1 { c.g with seq := c.g.seq + 1, cprog := c.g.cprog + 1 }

/-- The body of a copy instruction with a block of n registers from s[a]. -/
def Iss.copy (c : Iss) (a n : Nat) : Eff :=
  match copyAsk c.cluster n (fun i => (c.g.s (a + i)).toNat) with
  | none => c.illegalOperand 18
  | some k =>
    let die := dieOfCluster c.cluster
    match k.aligned.findIdx? (· % 4 != 0) with
    | some i =>
      let v := k.aligned.getD i 0
      let e := if i == 0 then some k.src else if i == 1 then some k.dst else none
      match (e.bind Endpoint.virt?).map (fun _ => c.st.translate none die c.ctx v) with
      | none => .trap { cause := causeAlign, tinfo0 := v, tinfo1 := accessWord (if i == 1 then .write else .read) 15 none 2 }
      | some w => match w.held? with
        | some pa => c.xStop .held .read v pa 0 none 0
        | none => .trap { cause := causeAlign, tinfo0 := v, tinfo1 := accessWord (if i == 1 then .write else .read) 15 w.leaf? 2 }
    | none =>
      let xs := c.st.xlRows die c.ctx .read k.src k.geom (·.1)
      match c.cmdXlFail .read xs with
      | some e => e
      | none =>
        let ys := c.st.xlRows die c.ctx .write k.dst k.geom (·.2)
        match c.cmdXlFail .write ys with
        | some e => e
        | none =>
          match c.copyRuns k with
          | .error e => e
          | .ok (dg, bar) =>
            if 64 ≤ (c.st.eng.ceCmds.filter (fun m => m.cluster == c.cluster && !m.paused)).length then .stall
            else c.acceptCopy k (leavesOf (xs ++ ys)) dg bar

/-- cpy. -/
def execCpy (a : Fin 64) (s : State) : Host.Outcome State Fault Refusal :=
  runInstr s [opS 18 (a.val + 3)] fun c => c.copy a 4

/-- cpy2. -/
def execCpy2 (a : Fin 64) (s : State) : Host.Outcome State Fault Refusal :=
  runInstr s [opS 18 (a.val + 5)] fun c => c.copy a 6

/-- hcpy. -/
def execHcpy (a : Fin 64) (s : State) : Host.Outcome State Fault Refusal :=
  runInstr s [opS 18 (a.val + 7)] fun c => c.copy a 8

/-! ## Units (R218, R356) -/

/-- A command by number. -/
def State.ceCmd? (s : State) (id : Nat) : Option CeCmd := s.eng.ceCmds.find? (fun k => k.id == id)

/-- A command replaced. -/
def State.putCe (s : State) (k : CeCmd) : State :=
  { s with eng := { s.eng with ceCmds := s.eng.ceCmds.map (fun m => if m.id == k.id then k else m) } }

/-- The translation that a command holds for an address, else a fresh one (R211). -/
def State.heldXl (s : State) (leaves : List Leaf) (cluster ctx : Nat) (a : Access) (va : Nat) : Xl :=
  match leaves.find? (fun l => l.covers va && l.permits a) with
  | some l => .ok va l
  | none => (s.translate none (dieOfCluster cluster) ctx va).access a va

/-- The translations that a command may use: those it holds, and those that an invalidation has dropped under a portion that it has
begun (R211). -/
def CeCmd.known (k : CeCmd) : List Leaf := k.leaves ++ k.stale

/-- Whether an address lies in memory whose units have 16 bytes: cluster SRAM and device pages (R218). -/
def CeCmd.wide (s : State) (k : CeCmd) (e : Endpoint) : Bool :=
  match e with
  | .sram _ _ => true
  | .virt va => match s.heldXl k.known k.cluster k.ctx .write va with
    | .ok _ l => l.cls == 0
    | .fail _ _ _ _ => true

/-- What a row has of the destination in an aligned block: the row, the piece's number, its offset in the row, its length. -/
structure Piece where
  row : Nat
  part : Nat
  off : Nat
  n : Nat
  deriving DecidableEq, Repr

/-- The piece of a row in an aligned block of the destination; its number counts blocks of 8 bytes from the row's first. -/
def CeCmd.pieceIn (k : CeCmd) (b size row : Nat) : Option Piece :=
  let d := k.dst.addr + (k.geom.offsets row).2
  let lo := max d b
  let hi := min (d + k.geom.len) (b + size)
  if lo < hi then some { row := row, part := lo / 8 - d / 8, off := lo - d, n := hi - lo } else none

/-- The aligned block, of 16 or 8 bytes, that a numbered piece of a row lies in. -/
def CeCmd.blockAt (s : State) (k : CeCmd) (row part : Nat) : Option (Nat × Nat) :=
  if k.geom.count ≤ row || k.geom.len == 0 then none
  else
    let d := k.dst.addr + (k.geom.offsets row).2
    let e := k.dst.plus (k.geom.offsets row).2
    let b := (d / 8 + part) * 8
    let lo := max d b
    if d + k.geom.len ≤ lo then none
    else
      let size := if k.wide s (e.plus (lo - d)) then 16 else 8
      if size == 16 && 0 < part && b % 16 == 8 then none else some (lo / size * size, size)

/-- A numbered piece of a row, as offset in the row and length. A 16-byte block's piece is named by its first 8 bytes in the row. -/
def CeCmd.unitAt (s : State) (k : CeCmd) (row part : Nat) : Option (Nat × Nat) :=
  ((k.blockAt s row part).bind (fun x => k.pieceIn x.1 x.2 row)).map (fun p => (p.off, p.n))

/-- The destination unit of R218 that a numbered piece belongs to: every piece of the command in its aligned block, which rows that lie
side by side share. Where pieces of a block overlap, each is written alone (log 62). -/
def CeCmd.pieces (s : State) (k : CeCmd) (row part : Nat) : List Piece :=
  match k.blockAt s row part with
  | none => []
  | some (b, size) =>
    let all := (List.range k.geom.count).filterMap (k.pieceIn b size)
    let at' := fun (p : Piece) => k.dst.addr + (k.geom.offsets p.row).2 + p.off
    if all.all (fun p => all.all (fun q => p.row == q.row || !overlaps (at' p) p.n (at' q) q.n)) then all
    else all.filter (fun p => p.row == row)

/-- Every unit of a row, as part numbers. -/
def CeCmd.parts (s : State) (k : CeCmd) (row : Nat) : List Nat :=
  (List.range (k.geom.len / 8 + 2)).filter (fun p => (k.unitAt s row p).isSome)

/-- Whether a command has written every unit. -/
def CeCmd.allWritten (s : State) (k : CeCmd) : Bool :=
  k.geom.len == 0 || (List.range k.geom.count).all (fun i => (k.parts s i).all (fun p => k.done.contains (i, p)))

/-- The words of four bytes of a range of an endpoint: place of each, or how the first one fails. Every endpoint is a
multiple of 4 (R355). -/
def State.endPlaces (s : State) (leaves : List Leaf) (cluster ctx : Nat) (a : Access) (va n : Nat) : Except (XFail × Nat × Nat) (List Place) :=
  (List.range (n / 4)).foldl (fun acc i => match acc with
    | .error e => .error e
    | .ok ps => match s.heldXl leaves cluster ctx a ((va + 4 * i) % 2 ^ 64) with
      | .ok ea l => .ok (ps ++ [s.placeOf l ea])
      | .fail f ea level _ => .error (f, ea, level)) (.ok [])

/-- Fresh translations kept by a command that has used them. -/
def State.freshLeaves (s : State) (leaves : List Leaf) (cluster ctx : Nat) (a : Access) (vas : List Nat) : List Leaf :=
  vas.foldl (fun ls va => match s.heldXl ls cluster ctx a va with
    | .ok _ l => if ls.contains l then ls else ls ++ [l]
    | .fail _ _ _ _ => ls) leaves

/-- The group that issued a transfer, while it runs the kernel that issued it. -/
def State.issuer (s : State) (core slot unit inst : Nat) : Option Group :=
  match s.group? core slot with
  | some g => if g.unit == unit && g.inst == inst then some g else none
  | none => none

/-- Whether every earlier access of the issuing group to the bytes of places is performed, writes on their way to a peer or host included
(R258). -/
def issuerClear (g : Option Group) (issued : Nat) (ps : List Place) (n : Nat) : Bool :=
  match g with
  | none => true
  | some h => ps.all (fun p => !h.loadBefore issued p n && !h.updateBefore issued p n && !h.storeBefore issued p n && !h.sentOver p n)

/-- What a unit of a transfer meets on the way: it may go on, it must wait (perhaps in a new state), it is lost with its
link, it is refused by the peer, or it reads poison. -/
inductive Way where
  | go
  | wait
  | back (s : State)
  | lost (p : Place)
  | refused (p : Place)
  | poison (pa : Nat)

/-- The way of a unit from places to places, each of n bytes. -/
def State.way (s : State) (src dst : List Place) (n : Nat) : Way :=
  let ps := src ++ dst
  match ps.find? (fun p => p.remote && (s.placeLink p).isNone) with
  | some p => .lost p
  | none =>
    match ps.find? (fun p => s.peerRefuses p n) with
    | some p => .refused p
    | none =>
      if ps.any (fun p => !s.reachable p) then .wait
      else match ps.findSome? (fun p => s.placeGate p n) with
        | some s' => if s' == s then .wait else .back s'
        | none => match src.find? (fun p => s.poisonAt p n) with
          | some p => .poison (p.lineNo * 128)
          | none => .go

/-- A unit's bytes written at its first place: a unit lies in one page. The issuing core's earlier atomics on the bytes come first, and
the die's copies of a peer's bytes go (R247, R258). -/
def State.writeWords (s : State) (core : Nat) (ps : List Place) (bs : List Byte) : State :=
  match ps with
  | [] => s
  | p :: _ =>
    let s1 := match p with
      | .dev a => s.settleWords core a bs.length
      | .peer _ _ => s.forgetPeer (dieOfCore core) p bs.length
      | .host _ _ => s
    s1.serveAt p bs

/-- Bytes written into a cluster's SRAM by an engine: bytes of a valid barrier object are discarded and set ENGHIT
(R274). -/
def State.engineSram (s : State) (cluster o : Nat) (bs : List Byte) : State :=
  match s.barrierTouched cluster o bs.length with
  | none => s.sramWrite cluster o bs
  | some b =>
    let s1 := bs.zipIdx.foldl (fun s x =>
      if (s.barrierTouched cluster (o + x.2) 1).isSome then s else s.sramWrite cluster (o + x.2) [x.1]) s
    match s1.bar? cluster b with
    | some x => s1.putBar cluster b (x.flag 4)
    | none => s1

/-- A unit's count on its way to the barrier. -/
def State.sendCount (s : State) (src : Nat) (unit : Option Nat) (bar : Option BarRef) (n : Nat) : State :=
  match bar with
  | none => s
  | some b => { s with eng := { s.eng with counts := s.eng.counts ++ [{ src := src, unit := unit, bar := b, n := n }] } }

/-- Whether the run that a transfer writes into still has the generation of its issue (R153). -/
def State.runLive (s : State) (cluster o gen : Nat) : Bool :=
  s.sched.units.any (fun u => u.cluster == cluster && u.scratchGen == gen && !u.saved && (match u.scratch with
    | some (off, len) => decide (off ≤ o) && decide (o < off + len)
    | none => false))

/-- Whether the run that a command writes into is saved: its unit's restore brings it back (R282). -/
def State.runSaved (s : State) (gen : Nat) : Bool := s.sched.units.any (fun u => u.scratchGen == gen && u.saved)

/-- Where a unit's bytes come from: places, or an SRAM offset; and where they go. -/
inductive Side where
  | mem (ps : List Place)
  | sram (cluster o : Nat)

/-- A side of a unit translated. -/
def State.side (s : State) (leaves : List Leaf) (cluster ctx : Nat) (a : Access) (e : Endpoint) (n : Nat) : Except (XFail × Nat × Nat) Side :=
  match e with
  | .sram c o => .ok (.sram c o)
  | .virt va => match s.endPlaces leaves cluster ctx a va n with
    | .ok ps => .ok (.mem ps)
    | .error x => .error x

/-- The places of a side. -/
def Side.places : Side → List Place
  | .mem ps => ps
  | .sram _ _ => []

/-- Four bytes at a place as a transfer of a core's group reads them: device memory as the core sees it, its earlier atomics included
(R237, R258). -/
def State.engineRead (s : State) (core : Nat) (p : Place) : List Byte :=
  match p with
  | .dev a => s.coreRead core a 4
  | .peer _ _ => s.placeRead p 4
  | .host _ _ => s.placeRead p 4

/-- The bytes of a side. -/
def State.readSide (s : State) (core : Nat) (x : Side) (n : Nat) : List Byte :=
  match x with
  | .mem ps => ps.flatMap (s.engineRead core)
  | .sram c o => (s.sramOf c).readN o n

/-- The two sides of a piece of a command. -/
def CeCmd.sides (s : State) (k : CeCmd) (row off n : Nat) : Except (XFail × Nat × Nat × Access) (Side × Side) :=
  match s.side k.known k.cluster k.ctx .read (k.src.plus ((k.geom.offsets row).1 + off)) n with
  | .error x => .error (x.1, x.2.1, x.2.2, .read)
  | .ok a => match s.side k.known k.cluster k.ctx .write (k.dst.plus ((k.geom.offsets row).2 + off)) n with
    | .error x => .error (x.1, x.2.1, x.2.2, .write)
    | .ok b => .ok (a, b)

/-- The addresses of a virtual side. -/
def Endpoint.words (e : Endpoint) (n : Nat) : List Nat :=
  match e with
  | .sram _ _ => []
  | .virt va => (List.range (n / 4)).map (fun i => (va + 4 * i) % 2 ^ 64)

/-- The 4 KiB portion of the destination that a numbered piece lies in. -/
def CeCmd.portion (s : State) (k : CeCmd) (row part : Nat) : Nat :=
  (k.dst.addr + (k.geom.offsets row).2 + ((k.unitAt s row part).map (·.1)).getD 0) / 4096

/-- Whether a command has begun the portion of a piece. -/
def CeCmd.begun (s : State) (k : CeCmd) (row part : Nat) : Bool :=
  k.done.any (fun x => k.portion s x.1 x.2 == k.portion s row part)

/-- Whether a command stands between two of its 4 KiB portions: every portion that it has begun is written (R211, R358). -/
def CeCmd.atPortion (s : State) (k : CeCmd) : Bool :=
  k.geom.len == 0 || (List.range k.geom.count).all (fun i =>
    (k.parts s i).all (fun p => k.done.contains (i, p) || !k.begun s i p))

/-- Translations that an invalidation dropped are gone once the portions that used them are written (R211). -/
def CeCmd.settled (s : State) (k : CeCmd) : CeCmd := if k.stale.isEmpty || !k.atPortion s then k else { k with stale := [] }

/-- The bytes of a piece written. -/
def State.writePiece (s : State) (k : CeCmd) (b : Side) (bs : List Byte) : State × Nat :=
  match b with
  | .mem ps => (s.writeWords k.core ps bs, bs.length)
  | .sram c o => if s.runLive c o k.dstGen then (s.engineSram c o bs, bs.length) else (s, 0)

/-- What a piece translated afresh, kept. -/
def State.keepLeaves (s : State) (k : CeCmd) (p : Piece) (ls : List Leaf) : List Leaf :=
  s.freshLeaves (s.freshLeaves ls k.cluster k.ctx .read ((k.src.plus ((k.geom.offsets p.row).1 + p.off)).words p.n))
    k.cluster k.ctx .write ((k.dst.plus ((k.geom.offsets p.row).2 + p.off)).words p.n)

/-- A unit written whole, from bytes read before it, and its count sent; what it translated afresh is kept. -/
def State.writeUnit (s : State) (k : CeCmd) (xs : List (Piece × Side × Side)) : State :=
  let keep := if k.stale.isEmpty then xs.foldl (fun ls x => s.keepLeaves k x.1 ls) k.leaves else k.leaves
  let k1 := ({ k with done := k.done ++ xs.map (fun x => (x.1.row, x.1.part)), leaves := keep } : CeCmd)
  let r := (xs.map (fun x => (x.2.2, s.readSide k.core x.2.1 x.1.n))).foldl (fun acc y =>
    let w := acc.1.writePiece k y.1 y.2
    (w.1, acc.2 + w.2)) (s.putCe (k1.settled s), 0)
  if r.2 == 0 then r.1 else r.1.sendCount k.id (some k.unit) k.bar r.2

/-- Whether a command may write a piece now: while its unit is to be pre-empted, or while an invalidation waits for it, it only
finishes portions of 4 KiB that it has begun (R211, R358). -/
def CeCmd.mayBegin (s : State) (k : CeCmd) (row part : Nat) : Bool :=
  (!(s.unit? k.unit).any (fun u => u.wanted) && k.stale.isEmpty) || k.begun s row part

/-- A unit that a command may write now: its command and its pieces. -/
def State.ceUnit (s : State) (cmd row part : Nat) : Option (CeCmd × List Piece) :=
  match s.ceCmd? cmd with
  | none => none
  | some k =>
    if !k.started || k.paused || k.pausedOn.isSome || k.ended || k.done.contains (row, part) || !k.mayBegin s row part then none
    else match k.pieces s row part with
      | [] => none
      | ps => some (k, ps)

/-- The sides of the pieces of a unit, or how the first one fails. -/
def CeCmd.unitSides (s : State) (k : CeCmd) : List Piece → Except (XFail × Nat × Nat × Access) (List (Piece × Side × Side))
  | [] => .ok []
  | p :: ps => match k.sides s p.row p.off p.n with
    | .error x => .error x
    | .ok ab => match CeCmd.unitSides s k ps with
      | .error x => .error x
      | .ok xs => .ok ((p, ab.1, ab.2) :: xs)

/-! ## Units of remote transfers (R416) -/

/-- A unit of a remote transfer: the 8-byte peer unit number `part` of its remote range (R416), as offset and length. -/
def FeCmd.unitAt (k : FeCmd) (part : Nat) : Option (Nat × Nat) :=
  let b := (k.remote / 8 + part) * 8
  let lo := max k.remote b
  if k.remote + k.len ≤ lo then none else some (lo - k.remote, min (k.remote + k.len) (b + 8) - lo)

/-- Every unit of a remote transfer. -/
def FeCmd.parts (k : FeCmd) : List Nat := (List.range (k.len / 8 + 2)).filter (fun p => (k.unitAt p).isSome)

/-- The 4 KiB portion of the destination that a unit lies in. -/
def FeCmd.portion (k : FeCmd) (part : Nat) : Nat :=
  ((if k.put then k.remote else k.loc.addr) + (match k.unitAt part with
    | some u => u.1
    | none => 0)) / 4096

/-- Whether a remote transfer stands between two portions (R211, R282). -/
def FeCmd.atPortion (k : FeCmd) : Bool :=
  k.parts.all (fun p => k.done.contains p || !k.done.any (fun q => k.portion q == k.portion p))

/-- Whether units of a remote transfer are on their way to the peer. -/
def State.unitsSent (s : State) (cmd : Nat) : Bool := s.sched.groups.any (fun g => g.sent.any (fun w => w.cmd == some cmd))

/-! ## The steps of a copy (R356, R357) -/

/-- CE_COMMAND_START: in the order of acceptance, up to 8 at once (R356). -/
def execCeCommandStart (cmd : Nat) (s : State) : Host.Outcome State Fault Refusal :=
  eventOf s "CE_COMMAND_START"
    (match s.ceCmd? cmd with
     | none => none
     | some k =>
       let mine := s.eng.ceCmds.filter (fun m => m.cluster == k.cluster && !m.paused)
       if k.started || k.paused || mine.any (fun m => !m.started && decide (m.id < k.id)) ||
           8 ≤ (mine.filter (fun m => m.started)).length then none
       else some k)
    (fun k => s.putCe { k with started := true })

/-- CE_UNIT_WRITE: a destination unit written whole and counted. A unit toward a link that is DOWN is neither written nor
counted, a refusal ends the command, poison is fatal to the region (R356, R357, R455). -/
def execCeUnitWrite (cmd row part : Nat) (s : State) : Host.Outcome State Fault Refusal :=
  eventOf s "CE_UNIT_WRITE"
    (match s.ceUnit cmd row part with
     | none => none
     | some (k, ps) => match k.unitSides s ps with
       | .error _ => none
       | .ok xs =>
         let src := xs.flatMap (fun x => x.2.1.places)
         let dst := xs.flatMap (fun x => x.2.2.places)
         if !issuerClear (s.issuer k.core k.slot k.unit k.inst) k.issued (src ++ dst) 4 then none
         else match s.way src dst 4 with
           | .wait => none
           | .back s' => some s'
           | .lost p => some ((s.putCe (({ k with done := k.done ++ ps.map (fun q => (q.row, q.part)) } : CeCmd).settled s)).countDiscard
               (s.downLink p).1)
           | .refused p => some ((s.putCe { k with ended := true }).countDiscard ((s.placeLink p).getD 0))
           | .poison pa => some (s.fatalRegion k.ctx k.region 5 pa)
           | .go => some (s.writeUnit k xs))
    (fun s' => s')

/-- A transfer's V = 0 failure: the entry that it attaches to, with a record of ENGINE = 1 (R208). -/
def State.engineFault (s : State) (cluster ctx region launch : Nat) (fe : Bool) (a : Access) (ea level : Nat) : State × Option Nat :=
  let base := baseOfDie (dieOfCluster cluster)
  let rec1 := match s.launch? launch with
    | some l => l.addr
    | none => 0
  let r := s.attach base ctx ea (a.code + level * 4 + 32 + (if fe then 64 else 0) + cluster * 2 ^ 8 + region * 2 ^ 38) rec1
  (r.1, r.2.map (fun i => (r.1.pfe base i).token))

/-- CE_PAGE_FAULT: a page translated afresh fails: V = 0 pauses the command on a fault entry, anything else ends it
(R357). -/
def execCePageFault (cmd row part : Nat) (s : State) : Host.Outcome State Fault Refusal :=
  eventOf s "CE_PAGE_FAULT"
    (match s.ceUnit cmd row part with
     | none => none
     | some (k, ps) => match k.unitSides s ps with
       | .ok _ => none
       | .error (f, ea, level, a) =>
         if f == .held then s.entryStep level
         else if f == .absent then
           let r := s.engineFault k.cluster k.ctx k.region k.launch false a ea level
           r.2.map (fun t => r.1.putCe { k with pausedOn := some t })
         else some (s.putCe { k with ended := true }))
    (fun s' => s')

/-- CPROG of the issuing group counts a command less (R358). -/
def State.uncountCmd (s : State) (k : CeCmd) : State :=
  match s.issuer k.core k.slot k.unit k.inst with
  | none => s
  | some g => if g.cprog.toNat % 65536 != 0 then s.putGroup { g with cprog := g.cprog - 1 } else s

/-- CE_COMMAND_COMPLETE: every unit is written and counted, or the command has ended (R356, R357). -/
def execCeCommandComplete (cmd : Nat) (s : State) : Host.Outcome State Fault Refusal :=
  eventOf s "CE_COMMAND_COMPLETE"
    (match s.ceCmd? cmd with
     | none => none
     | some k =>
       if k.started && !k.paused && (k.ended || k.allWritten s) && !s.eng.counts.any (fun m => m.src == k.id) then some k
       else none)
    (fun k => ({ s with eng := { s.eng with ceCmds := s.eng.ceCmds.filter (fun m => m.id != k.id) } } : State).uncountCmd k)

end Sys2Proof.Machine
end

