-- ==== Sys2Proof/Machine/Shootdown.lean ====
section
/-! DEFINITION. Invalidation of translations (R211, R212), xlate and tlbinv (R213 to R215). -/

namespace Sys2Proof.Machine

/-! ## Invalidation (R205, R211) -/

/-- What an invalidation covers: a range of addresses of a context, or all of it. -/
inductive InvRange where
  | range (lo hi : Nat)
  | all
  deriving DecidableEq, Repr

/-- The aligned range of a SIZE code that holds an address. -/
def alignedRange (va size : Nat) : InvRange := .range (va - va % 2 ^ sizeLog size) (va - va % 2 ^ sizeLog size + 2 ^ sizeLog size)

/-- Whether a span of addresses meets the range. -/
def InvRange.meets (r : InvRange) (lo hi : Nat) : Bool :=
  match r with
  | .range a z => decide (lo < z) && decide (a < hi)
  | .all => true

/-- Whether an invalidation covers a leaf. -/
def Leaf.dropped (l : Leaf) (ctx : Nat) (r : InvRange) : Bool := l.ctx == ctx && r.meets l.base (l.base + l.bytes)

/-- Every translation that is held anywhere. -/
def State.heldLeaves (s : State) : List Leaf :=
  s.ms.tlbCore.map (·.2) ++ s.ms.tlbDie.map (·.2) ++ s.eng.ceCmds.flatMap (·.leaves) ++ s.eng.feCmds.flatMap (·.leaves)

/-- The cores that have partials. -/
def State.partialCores (s : State) : List Nat := ((s.ms.partials.map (·.core)) ++ (s.ms.pendings.map (·.core))).eraseDups

/-- Every partial is applied to its line: an atomic has completed when it is visible at device scope (R211). -/
def State.flushPartials (s : State) : State := s.partialCores.foldl (fun st k => st.releasePartials k 8) s

/-- What that waits for (R226, R228). -/
def State.flushGate (s : State) : Option State := s.partialCores.findSome? (fun k => s.releaseGate k 8)

/-- A copy after an invalidation: what is dropped stays only for the portions that it has begun (R211). -/
def CeCmd.invalidate (s : State) (k : CeCmd) (ctx : Nat) (r : InvRange) : CeCmd :=
  { k with leaves := k.leaves.filter (fun l => !l.dropped ctx r),
           stale := k.stale ++ (if k.atPortion s then [] else k.leaves.filter (fun l => l.dropped ctx r)) }

/-- The same for a remote transfer. -/
def FeCmd.invalidate (k : FeCmd) (ctx : Nat) (r : InvRange) : FeCmd :=
  { k with leaves := k.leaves.filter (fun l => !l.dropped ctx r),
           stale := k.stale ++ (if k.atPortion then [] else k.leaves.filter (fun l => l.dropped ctx r)) }

/-- Every TLB, walk cache and engine drops the translations that an invalidation covers. -/
def State.dropTranslations (s : State) (ctx : Nat) (r : InvRange) : State :=
  { s with
    ms := { s.ms with
      tlbCore := s.ms.tlbCore.filter (fun e => !e.2.dropped ctx r),
      tlbDie := s.ms.tlbDie.filter (fun e => !e.2.dropped ctx r),
      walkCache := s.ms.walkCache.filter (fun w => !(w.ctx == ctx &&
        r.meets (w.vprefix * 2 ^ spanLog w.level) ((w.vprefix + 1) * 2 ^ spanLog w.level))) },
    eng := { s.eng with
      ceCmds := s.eng.ceCmds.map (fun k => k.invalidate s ctx r),
      feCmds := s.eng.feCmds.map (fun k => k.invalidate ctx r) } }

/-- The context of a group or of a group's rest. -/
def State.anyCtx (s : State) (g : Group) : Option Nat :=
  if g.isGhost then (s.launch? g.unit).map (·.ctx) else (s.launchOf g).map (·.ctx)

/-- Whether no access of a context is under way: its loads have their values, its stores, atomics and ME accesses are
performed, those sent to a peer or host too, and no transfer of it uses a translation that was dropped (R211). -/
def State.ctxQuiet (s : State) (ctx : Nat) : Bool :=
  s.sched.groups.all (fun g => s.anyCtx g != some ctx || (g.drained && g.sent.isEmpty)) &&
  s.eng.ceCmds.all (fun k => k.ctx != ctx || k.ended || k.stale.isEmpty) &&
  s.eng.feCmds.all (fun k => k.ctx != ctx || k.ended || k.stale.isEmpty)

/-! ## xlate (R214) -/

/-- The status word of xlate. -/
def xlateStatus (x : Xl) (raw : Option Leaf) : Nat :=
  let attr := fun (l : Leaf) => l.w0.toNat / 4 % 2 ^ 9 * 2 ^ 7 + l.fmt * 2 ^ 16 + l.geom * 2 ^ 20 + l.kexp * 2 ^ 21 + l.size * 2 ^ 27
  match x with
  | .ok _ l => 1 + l.level * 16 + attr l
  | .fail f _ level _ =>
    let code := match f with
      | .absent => 1
      | .perm => 2
      | .malformed => 3
      | .noncanonical => 4
      | .held => 0
      | .mismatch => 0
    code * 2 + level * 16 + (if f == .perm then (raw.map attr).getD 0 else 0)

/-- The kind of access of a code. -/
def accessOf (k : Nat) : Access :=
  match k with
  | 0 => .read
  | 1 => .write
  | 2 => .atomic
  | _ => .exec

/-- xlate: no member offset, no fault, no wait. -/
def execXlate (d a b : Fin 64) (s : State) : Host.Outcome State Fault Refusal :=
  runInstr s [opS 12 d, opS 18 a, opS 24 b] fun c =>
    let ctl := (c.g.s b).toNat
    let va := (c.g.s a).toNat
    if ctl.testBit 2 && !c.privileged then c.illegalOperand 24
    else
      let w := c.st.translate (some c.g.core) (dieOfCore c.g.core) c.ctx va
      let x := w.access (accessOf (ctl % 4)) va
      let s1 := c.st.fillTlb (some c.g.core) (dieOfCore c.g.core) c.ctx va
      match w.held? with
      | some pa => c.xStop .held .read va pa 0 none 0
      | none =>
        if ctl.testBit 2 then
          c.doneIn s1 (c.g.setS d (match x with
            | .ok ea l => BitVec.ofNat 64 ((l.frame + (ea - l.base)) % 2 ^ 52)
            | .fail _ _ _ _ => BitVec.allOnes 64))
        else c.doneIn s1 (c.g.setS d (BitVec.ofNat 64 (xlateStatus x w.leaf?)))

/-! ## tlbinv (R215) -/

/-- A group in a fence wait whose instruction has done its first part. -/
def Iss.waitSecond (c : Iss) (s : State) : Eff :=
  let g := c.g.setPcSlot c.which { c.ps with last := c.g.retired + 1 }
  .waits (s.putGroup { g with st := .wait .fence, prevSt := c.g.st, released := true })

/-- The range of modes 0 and 1. -/
def invRangeOf (mode va size : Nat) : InvRange := if mode == 0 then alignedRange va size else .all

/-- A resolve mode: the entry that a token names, of the group's own context. -/
def Iss.resolveToken (c : Iss) (d : Nat) (retry : Bool) (token : Nat) : Eff :=
  match c.st.tokenEntry token with
  | none => c.done (c.g.setS d 5)
  | some p =>
    if p.ctx != c.ctx then c.done (c.g.setS d 5)
    else if !retry && c.st.failWaits p then .stall
    else
      let g := (c.g.setS d 0).advance c.which c.len
      let s1 := c.st.putGroup g
      .done (if retry then s1.resolveRetry p else s1.resolveFail p)

/-- The second part of an invalidation: once the accesses that used what it dropped are over, the partials of every core are applied
(R211). -/
def Iss.endInval (c : Iss) (s : State) (g : Group) (d : Nat) : Eff :=
  if !s.ctxQuiet c.ctx then { c with g := g }.waitSecond s
  else match s.flushGate with
    | some s1 => { c with g := g }.waitSecond s1
    | none => c.doneIn s.flushPartials (g.setS d 0)

/-- tlbinv: a release at device scope, then an invalidation that waits for R211, or a resolution. -/
def execTlbinv (d a b : Fin 64) (s : State) : Host.Outcome State Fault Refusal :=
  runInstr s [opS 12 d, opS 18 a, opS 24 b] fun c =>
    let ctl := (c.g.s b).toNat
    let va := (c.g.s a).toNat
    let mode := ctl % 4
    if !c.privileged then c.illegalOperand 7
    else if c.waiting && c.g.released then
      c.endInval c.st { c.g with released := false } d
    else
      match c.releaseFirst 6 with
      | some e => e
      | none =>
        if mode == 0 && 11 < ctl / 4 % 16 then c.illegalOperand 24
        else if mode == 0 && 2 ^ 57 ≤ va then .trap (xTrap .noncanonical .read va 0 0 none 0)
        else
          let k := c.released 6
          if mode < 2 then
            let s1 := k.st.dropTranslations k.ctx (invRangeOf mode va (ctl / 4 % 16))
            k.endInval s1 k.g d
          else k.resolveToken d (mode == 2) va

end Sys2Proof.Machine
end

