-- ==== Sys2Proof/Machine/Kernel.lean ====
section
/-! DEFINITION. Kernels and workgroups (spec files 05 and 06): the device's own reads and writes of a context's memory,
kernel descriptors, footprints and budgets, the start of a group, the end of a group with exit and exit.succ, the
handover to a successor kernel, the retirement of a unit. -/

namespace Sys2Proof.Machine

/-! ## The device's own accesses to a context's memory (R112, R135) -/

/-- What the device meets at an address of a context: the place, nothing it can use, or something it must wait for
(a snoop under way, a link that trains). -/
inductive Reach where
  | ok (p : Place)
  | bad
  | later (s : State)

/-- The base die whose walker serves a context: that of its host port. -/
def State.ctxBase (s : State) (ctx : Nat) : Nat :=
  match s.ctx? ctx with
  | some c => c.port
  | none => 0

/-- The translation of an address by a base die's walker. -/
def State.walkVa (s : State) (ctx va : Nat) : Walk :=
  if 2 ^ 57 ≤ va then .noncanonical
  else match s.ctx? ctx with
    | some c => (s.walkFrom c.port ctx va 4 (c.ptroot / 8192 * 8192)).1
    | none => .malformed 4

/-- An access of n bytes in one page at an address of a context. -/
def State.reach (s : State) (ctx va n : Nat) (a : Access) : Reach :=
  match (s.walkVa ctx va).access a va with
  | .fail f _ at' _ => if f == .held then .later ((s.devGate at' 8).getD s) else .bad
  | .ok ea l =>
    let p := l.place ea
    if p.remote && (s.placeLink p).isNone then .bad
    else if s.peerRefuses p n then .bad
    else if !s.reachable p then .later s
    else match s.placeGate p n with
      | some s' => .later s'
      | none => if a == .read && s.poisonAt p n then .bad else .ok p

/-- The bytes at a place's serving copy, after a recall of its lines. -/
def State.deviceRead (s : State) (p : Place) (n : Nat) : State × List Byte :=
  let s1 := (p.lines n).foldl (fun s l => s.recall l) s
  (s1, s1.placeRead p n)

/-- A write of the device itself. -/
def State.deviceWrite (s : State) (p : Place) (bs : List Byte) : State :=
  ((p.lines bs.length).foldl (fun s l => s.recall l) s).serveAt p bs

/-! ## Kernel descriptors (R134, R135) -/

/-- Word i of a block of bytes. -/
def wordAt (b : List Byte) (i : Nat) : Nat := leNat ((b.drop (8 * i)).take 8)

/-- The bits lo to lo + n − 1 of a number. -/
def bitsAt (x lo n : Nat) : Nat := x / 2 ^ lo % 2 ^ n

/-- The fields of a kernel descriptor's 256 bytes. -/
def kdescOf (b : List Byte) : KDesc :=
  let w := wordAt b 5
  { entry := wordAt b 0, preemptH := wordAt b 1, trapH := wordAt b 2, succDesc := wordAt b 3, imask := wordAt b 4,
    m := bitsAt w 0 4, wgm1 := bitsAt w 4 4, vgran := bitsAt w 8 5, sgran := bitsAt w 16 4, pgran := bitsAt w 20 2,
    tiles := bitsAt w 24 5, cohort := bitsAt w 29 3, banks := bitsAt w 32 9, succScope := bitsAt w 44 4,
    scratch := bitsAt (wordAt b 6) 0 23, paramOff := wordAt b 7 }

/-- Whether an address field is outside the 57-bit range. -/
def bad57 (x : Nat) : Bool := 2 ^ 57 ≤ x

/-- Whether IMASK breaks R135. -/
def KDesc.badMask (k : KDesc) : Bool :=
  2 ^ 58 ≤ k.imask || (k.imask != 0 && k.succDesc == 0) ||
  (List.range 16).any (fun g => k.imask.testBit g && k.vgran ≤ g) ||
  (List.range 8).any (fun g => k.imask.testBit (16 + g) && k.sgran ≤ g) ||
  (k.imask.testBit 24 && k.pgran == 0) || (bitsAt k.imask 25 16 != 0 && k.tiles == 0) ||
  (bitsAt k.imask 41 16 != 0 && k.banks == 0)

/-- Whether a descriptor is invalid (R135). -/
def kdescInvalid (b : List Byte) : Bool :=
  let k := kdescOf b
  let w := wordAt b 5
  bad57 k.entry || bad57 k.preemptH || bad57 k.trapH || bad57 k.succDesc || k.entry % 2 == 1 || k.preemptH % 2 == 1 ||
  k.trapH % 2 == 1 || k.succDesc % 256 != 0 || k.badMask ||
  !([1, 2, 4, 8].contains k.m) || k.vgran == 0 || 16 < k.vgran || k.sgran == 0 || 8 < k.sgran || 2 < k.pgran ||
  16 < k.tiles || k.cohort == 0 || 4 < k.cohort || 256 < k.banks || k.succScope < 2 || 9 < k.succScope ||
  4194304 < k.scratch || bitsAt w 13 3 != 0 || bitsAt w 22 2 != 0 || bitsAt w 41 3 != 0 || bitsAt w 48 16 != 0 ||
  bitsAt (wordAt b 6) 23 41 != 0 || (List.range 24).any (fun i => wordAt b (8 + i) != 0)

/-- Bytes of vector registers of one group (R136). -/
def KDesc.vecBytes (k : KDesc) : Nat := 8 * k.vgran * 128 * k.m

/-- Groups per workgroup. -/
def KDesc.groups (k : KDesc) : Nat := k.wgm1 + 1

/-- Whether a workgroup's footprint exceeds a capacity of R125. -/
def KDesc.tooLarge (k : KDesc) : Bool :=
  32 < k.groups || 524288 < k.groups * k.vecBytes || 256 < k.banks || 16 < k.tiles || 4194304 < roundUp4k k.scratch

/-! ## Use and budgets (R89, R136) -/

/-- The core number of the groups and workgroups of a saved unit, which holds no core (log 7). -/
def savedCore (unit index : Nat) : Nat := 256 + 4 * unit + index

/-- The groups in the slots of a core. -/
def State.coreGroups (s : State) (core : Nat) : List Group := s.sched.groups.filter (fun g => g.core == core && !g.isGhost)

/-- Bytes of vector registers that a group holds. -/
def Group.vecBytes (g : Group) : Nat := g.vregs.length * 128 * g.members

/-- The free group slots of a core in ascending order. -/
def State.freeSlots (s : State) (core : Nat) : List Nat :=
  let used := (s.coreGroups core).map (·.slot)
  (List.range 32).filter (fun i => !used.contains i)

/-- The workgroups that hold resources of a core. -/
def State.coreWgs (s : State) (core : Nat) : List Workgroup := s.sched.wgs.filter (fun w => w.core == core)

/-- The free tile slots of a core. -/
def State.freeTiles (s : State) (core : Nat) : List Nat :=
  let used := (s.coreWgs core).flatMap (·.tileRes)
  (List.range 16).filter (fun i => !used.contains i)

/-- The free accumulator banks of a core. -/
def State.freeBanks (s : State) (core : Nat) : List Nat :=
  let used := (s.coreWgs core).flatMap (·.bankRes)
  (List.range 256).filter (fun i => !used.contains i)

/-- Bytes of vector registers free on a core. -/
def State.freeVec (s : State) (core : Nat) : Nat := 524288 - (((s.coreGroups core).map Group.vecBytes).foldl (· + ·) 0)

/-- What a placement needs: group slots and vector bytes a workgroup, banks, tiles. -/
structure Need where
  slots : Nat
  vec : Nat
  banks : Nat
  tiles : Nat
  deriving DecidableEq, Repr

/-- The need of one workgroup of a kernel. -/
def KDesc.need (k : KDesc) : Need := { slots := k.groups, vec := k.groups * k.vecBytes, banks := k.banks, tiles := k.tiles }

/-- Whether a core has a need free. -/
def State.coreFits (s : State) (core : Nat) (n : Need) : Bool :=
  n.slots ≤ (s.freeSlots core).length && n.vec ≤ s.freeVec core && n.banks ≤ (s.freeBanks core).length &&
    n.tiles ≤ (s.freeTiles core).length

/-- Whether a unit's launch is bound into the subtree of a region. -/
def State.unitIn (s : State) (c : Context) (q unit : Nat) : Bool :=
  match s.unit? unit with
  | none => false
  | some u => match s.launch? u.launch with
    | none => false
    | some l => l.ctx == c.id && c.inSubtree q l.region

/-- The region's own budgets in the order of OVR: PRIO, CORES, VREGKIB, BANKS, TILES. -/
def budgetOf (i : Nat) (r : Region) : Nat :=
  match i with
  | 0 => r.prio
  | 1 => r.cores
  | 2 => r.vregKib
  | 3 => r.banks
  | _ => r.tiles

/-- usage(q, f) of R89 for budget i, over the cores that a test keeps. -/
def State.usage (s : State) (c : Context) (q i : Nat) (keep : Nat → Bool) : Nat :=
  let ws := s.sched.wgs.filter (fun w => w.core < 256 && keep w.core && s.unitIn c q w.unit)
  match i with
  | 1 => (ws.map (·.core)).eraseDups.length
  | 2 => ((s.sched.groups.filter (fun g => g.core < 256 && !g.isGhost && keep g.core && s.unitIn c q g.unit)).map
      (fun g => g.vecBytes / 1024)).foldl (· + ·) 0
  | 3 => (ws.map (fun w => w.bankRes.length)).foldl (· + ·) 0
  | _ => (ws.map (fun w => w.tileRes.length)).foldl (· + ·) 0

/-- The sum of some amounts. -/
def total (xs : List Nat) : Nat := xs.foldl (· + ·) 0

/-- may_place of R89 for workgroups on their target cores, each with its need, with use counted on the cores that a test
keeps. `fresh`: the workgroups are new, not grown. -/
def State.mayPlaceOn (s : State) (c : Context) (r : Nat) (xs : List (Nat × Need)) (fresh : Bool) (keep : Nat → Bool) : Bool :=
  (c.path r).all (fun q => [1, 2, 3, 4].all (fun i =>
    let need := match i with
      | 1 => if fresh then (xs.filter (fun x => !(keep x.1 && s.sched.wgs.any (fun w => w.core == x.1 && s.unitIn c q w.unit)))).length
             else 0
      | 2 => total (xs.map (fun x => x.2.vec / 1024))
      | 3 => total (xs.map (fun x => x.2.banks))
      | _ => total (xs.map (fun x => x.2.tiles))
    decide (s.usage c q i keep + need ≤ c.eff q i (budgetOf i))))

/-- may_place of R89. -/
def State.mayPlace (s : State) (c : Context) (r : Nat) (xs : List (Nat × Need)) : Bool := s.mayPlaceOn c r xs true (fun _ => true)

/-! ## Scratch runs and save area (R94, R126, R165) -/

/-- The scratch runs in use in a cluster. -/
def State.runs (s : State) (cluster : Nat) : List (Nat × Nat) :=
  s.sched.units.filterMap (fun u => if u.cluster == cluster && !u.saved then u.scratch else none)

/-- Whether a run is free among others. -/
def runFree (used : List (Nat × Nat)) (limit off len : Nat) : Bool :=
  off + len ≤ limit && used.all (fun r => off + len ≤ r.1 || r.1 + r.2 ≤ off)

/-- The lowest free offset that fits: 0, or the end of a run in use. -/
def lowestFit (used : List (Nat × Nat)) (start limit len : Nat) : Option Nat :=
  ((start :: used.map (fun r => r.1 + r.2)).filter (fun o => start ≤ o && runFree used limit o len)).foldl (fun acc o =>
    match acc with
    | none => some o
    | some a => some (min a o)) none

/-- A free piece of a context's save area, in units of 4 KiB. -/
def Context.findSave (c : Context) (len : Nat) : Option Nat :=
  lowestFit c.saveUsed c.saveBase (c.saveBase + c.saveSize) (roundUp4k len)

/-- Several pieces of the save area taken one after another. -/
def Context.takeSave (c : Context) : List Nat → Option (Context × List Nat)
  | [] => some (c, [])
  | n :: ns =>
    match c.findSave n with
    | none => none
    | some a =>
      ({ c with saveUsed := c.saveUsed ++ [(a, roundUp4k n)] } : Context).takeSave ns |>.map (fun r => (r.1, a :: r.2))

/-! ## The start of a group (R137, R157) -/

/-- The linear index's z coordinate gives member_base (R119). -/
def Launch.memberBase (l : Launch) (index m : Nat) : Nat :=
  (l.record.mbase + m * (index / (l.record.gx * l.record.gy))) % 2 ^ 32

/-- A vector register whose elements follow a rule. -/
def vecRow (m : Nat) (f : Nat → Nat) : List Word32 := (List.range (32 * m)).map (fun e => BitVec.ofNat 32 (f e))

/-- The vector registers of a started group: v0 and v1 preloaded, the rest as given. -/
def preloadVec (m : Nat) (rows : List (List Word32)) : List (List Word32) :=
  (rows.set 0 (vecRow m (fun e => e % 32))).set 1 (vecRow m (fun e => e / 32))

/-- The eight uniform preloads (R137). -/
def preloadS (l : Launch) (k : KDesc) (index gi scratch spill inherit : Nat) : List Word64 :=
  [(l.record.param + k.paramOff) % 2 ^ 64, index, gi + k.m * 256, l.memberBase index k.m, scratch, spill + 2 ^ 63, l.addr,
    inherit].map (BitVec.ofNat 64)

/-- A group at its start in a kernel (R137): every register zero but for the preloads, slot 0 at ENTRY with every
element. -/
def Group.start (l : Launch) (k : KDesc) (unit index gi core slot scratch spill age : Nat) : Group :=
  { unit := unit, inst := 0, ghostUnit := unit, wg := index, gi := gi, core := core, slot := slot, st := .running, prevSt := .running, saved := none,
    slot0 := { pc := k.entry, mask := fullMask k.m, frame := 0, cptr := 0, last := 0 }, slot1 := PcSlot.empty, stack := [],
    hdl := none, exited := 0,
    vregs := preloadVec k.m (List.replicate (8 * k.vgran) (vecRow k.m (fun _ => 0))),
    sregs := preloadS l k index gi scratch spill 0 ++ List.replicate (8 * k.sgran - 8) 0,
    pregs := List.replicate (4 * k.pgran) 0, flags := 0, cause := 0, trappc := 0, tinfo0 := 0, tinfo1 := 0, tinfo2 := 0,
    tinfo3 := 0, ucond := 0, batch := 0, mmxcnt := 0, cprog := 0, keys := 0,
    watch := List.replicate 16 { st := .free, lines := [] }, lastp1 := 0, loads := [], stores := [], atoms := [], sent := [],
    lost := [], lateTrap := none, meq := [], waitCount := 0, age := age, retired := 0, spill := spill, pendTrap := false,
    preemptReq := false, flush := [], released := false, regroup := none, blocked := none, acquire := none, relax := false, relFence := none, seq := 0 }

/-! ## What holds a scratch run (R146, R282) -/

/-- Whether a barrier reference lies in part of a run with its generation. -/
def BarRef.inPart (b : BarRef) (cluster lo hi gen : Nat) : Bool :=
  b.cluster == cluster && b.gen == gen && decide (lo ≤ b.offset) && decide (b.offset < hi)

/-- Whether some of n bytes from an endpoint lie in part of a run. -/
def Endpoint.inPart (e : Endpoint) (n cluster lo hi : Nat) : Bool :=
  match e with
  | .sram c o => c == cluster && overlaps o n lo (hi - lo)
  | .virt _ => false

/-- Whether the rows of a copy write part of a run. -/
def CeCmd.writesPart (k : CeCmd) (cluster lo hi : Nat) : Bool :=
  (List.range k.geom.count).any (fun i => (k.dst.plus (k.geom.offsets i).2).inPart k.geom.len cluster lo hi)

/-- The bytes of one element of a rank's own contribution: f64, f32 and integers, or XA images. -/
def CttDesc.width (d : CttDesc) : Nat :=
  if d.op == 2 && d.xin then 288 else if d.type == 9 then 8 else 4

/-- The bytes of one element's result, in one plane. -/
def CttDesc.outWidth (d : CttDesc) : Nat :=
  if d.op == 2 && d.xout then 288 else if d.type == 9 then 8 else 4

/-- All result bytes (R406). -/
def CttDesc.resultBytes (d : CttDesc) : Nat :=
  if d.op == 7 then 4 * (d.nrank * d.mpr + 1) else if d.op == 5 then 8 * d.count else d.outWidth * d.count

/-- The barrier object of a collective descriptor, as a reference. -/
def CttEntry.barRef (e : CttEntry) : Option BarRef :=
  if e.desc.nobar then none
  else match sramWordOf e.cluster e.desc.bar, e.barGen with
    | some p, some n => some { cluster := p.1, offset := p.2, phase := e.desc.phase, gen := n }
    | _, _ => none

/-- The destination of a collective descriptor (R404). -/
def CttEntry.dstEnd (e : CttEntry) : Endpoint :=
  if e.desc.dspace then (match sramWordOf e.cluster e.desc.dst with
    | some p => .sram p.1 p.2
    | none => .virt e.desc.dst)
  else .virt e.desc.dst

/-- Whether a copy counts or writes into part of a run. -/
def CeCmd.into (k : CeCmd) (cluster lo hi gen : Nat) : Bool :=
  (k.writesPart cluster lo hi && k.dstGen == gen) || k.bar.any (fun b => b.inPart cluster lo hi gen)

/-- Whether a remote transfer does. -/
def FeCmd.into (k : FeCmd) (cluster lo hi gen : Nat) : Bool :=
  (!k.put && k.loc.inPart k.len cluster lo hi && k.dstGen == gen) || k.bar.any (fun b => b.inPart cluster lo hi gen)

/-- Whether a collective that has fired does. -/
def CttEntry.into (e : CttEntry) (cluster lo hi gen : Nat) : Bool :=
  e.st == .fired && ((e.dstEnd.inPart e.desc.resultBytes cluster lo hi && e.dstGen == some gen) || e.barRef.any (fun b => b.inPart cluster lo hi gen))

/-- Whether copies and deliveries into part of a unit's run are under way. -/
def State.intoRun (s : State) (u : HUnit) (lo hi : Nat) : Bool :=
  s.eng.ceCmds.any (fun k => k.into u.cluster lo hi u.scratchGen) ||
  s.eng.feCmds.any (fun k => k.into u.cluster lo hi u.scratchGen) ||
  s.eng.ctt.any (fun e => e.into u.cluster lo hi u.scratchGen) ||
  s.eng.counts.any (fun m => m.bar.inPart u.cluster lo hi u.scratchGen)

/-- The same for the whole run. -/
def State.runBusy (s : State) (u : HUnit) : Bool :=
  match u.scratch with
  | none => false
  | some (off, len) => s.intoRun u off (off + len)

/-! ## The handover (R140 to R146) -/

/-- Whether a group ended with exit.succ. -/
def Group.succEnded (g : Group) : Bool :=
  match g.st with
  | .ended b => b
  | .running => false
  | .wait _ => false
  | .faultWait _ _ => false
  | .handler => false
  | .phandler => false
  | .held => false

/-- The successor descriptor that the launch keeps for a unit's kernel (R135). -/
def Launch.succ? (l : Launch) (k : KDesc) : Option KDesc := (l.succs.find? (fun x => x.1 == k.succDesc)).map (·.2)

/-- The registers of a list that a mask hands on, n of them, in granules of 8 from bit `bit` on; the others zero. -/
def inheritRegs {α : Type} (zero : α) (imask bit n : Nat) (on : Bool) (xs : List α) : List α :=
  (List.range n).map (fun i => if on && imask.testBit (bit + i / 8) then xs.getD i zero else zero)

/-- The part of a scratch run that the unit keeps at a handover: with bit 57 the lower part (R143). -/
def HUnit.keepRun (u : HUnit) (k2 : KDesc) : Option (Nat × Nat) :=
  match u.scratch with
  | none => none
  | some (off, len) => if u.kd.imask.testBit 57 then some (off, min len (roundUp4k k2.scratch)) else none

/-- Whether copies and deliveries into scratch that is not carried still hold the unit (R146). -/
def State.handoverWaits (s : State) (u : HUnit) (k2 : KDesc) : Bool :=
  match u.scratch with
  | none => false
  | some (off, len) => match u.keepRun k2 with
    | some (_, kept) => s.intoRun u (off + kept) (off + len)
    | none => s.intoRun u off (off + len)

/-- A successor group that has not started: the inherited registers, every other zero, the preloads in s0 to s7. It
keeps its slot, age and batch numbers (R140). -/
def Group.succeed (g : Group) (l : Launch) (u : HUnit) (k2 : KDesc) (scratch : Nat) : Group :=
  let on := g.succEnded
  let m := u.kd.imask
  let f := Group.start l k2 g.unit g.wg g.gi g.core g.slot scratch g.spill g.age
  { f with
    st := g.st, prevSt := g.st,
    slot0 := PcSlot.empty,
    vregs := inheritRegs (vecRow k2.m (fun _ => 0)) m 0 (8 * min u.kd.vgran k2.vgran) on g.vregs,
    sregs := preloadS l k2 g.wg g.gi scratch g.spill (if on then m else 0) ++ (inheritRegs 0 m 16 (8 * k2.sgran) on g.sregs).drop 8,
    pregs := (List.range (4 * k2.pgran)).map (fun i => if on && m.testBit 24 then g.p i else 0),
    inst := g.inst + 1, batch := g.batch, meq := g.meq, stores := g.stores, atoms := g.atoms, sent := g.sent, lost := g.lost, seq := g.seq,
    regroup := none }

/-- A workgroup across the handover: the banks and tile slots that its held handles and tiles name are carried (R147
leaves no other), an active regroup with the run (R194). -/
def Workgroup.carried (w : Workgroup) (run : Bool) : Workgroup :=
  { w with tileRes := w.tiles.map (·.phys), bankRes := w.handles.flatMap (·.banks),
           regroup := if run then w.regroup else none }

/-- Steps 1 and 2 of R142: groups beyond the successor's WGSIZE go, everything not carried is scrubbed and returned, the
unit belongs to the successor kernel and waits for its growth. -/
def State.transfer (s : State) (u : HUnit) (l : Launch) (k2 : KDesc) : State :=
  let gone := (s.unitGroups u.id).filter (fun g => k2.groups ≤ g.gi)
  let s1 := (gone.foldl (fun s g => s.dropGroup g) s).freeSave l.ctx (gone.map Group.spillPiece)
  let keep := u.keepRun k2
  let s2 := match u.scratch with
    | none => s1
    | some (off, len) => match keep with
      | some (_, n) => s1.scrubScratch u.cluster (some (off + n, len - n))
      | none => s1.scrubScratch u.cluster u.scratch
  let off := match keep with
    | some (o, _) => o
    | none => 0
  let s3 := s2.mapGroups (fun g => if g.unit == u.id && !g.isGhost then g.succeed l u k2 off else g)
  let s4 := { s3 with sched := { s3.sched with
    wgs := s3.sched.wgs.map (fun (w : Workgroup) => if w.unit == u.id then
      w.carried (u.kd.imask.testBit 57) else w),
    selectDue := true } }
  s4.putUnit { u with kd := k2, kdAddr := u.kd.succDesc, scratch := keep, st := .growWait, succRead := false, acqScope := u.kd.succScope,
                      scratchGen := if keep.isSome then u.scratchGen else s4.sched.genSeq }

/-- What a workgroup in GROWWAIT still needs on its core (R142, step 3). -/
def State.growNeed (s : State) (u : HUnit) (w : Workgroup) : Need :=
  let held := ((s.wgGroups u.id w.index).map Group.vecBytes).foldl (· + ·) 0
  { slots := 0, vec := (s.wgGroups u.id w.index).length * u.kd.vecBytes - held, banks := u.kd.banks - w.bankRes.length,
    tiles := u.kd.tiles - w.tileRes.length }

/-- The scratch run that a growing unit will hold: extended in place, or at the lowest free offset; none where it must
wait (R143). -/
def State.growRun (s : State) (u : HUnit) : Option (Option (Nat × Nat)) :=
  let want := roundUp4k u.kd.scratch
  match u.scratch with
  | some (off, len) =>
    if want ≤ len then some (some (off, len))
    else if runFree ((s.runs u.cluster).filter (fun r => r != (off, len))) (2 ^ 22) off want then some (some (off, want))
    else none
  | none =>
    if want == 0 then some none else (lowestFit (s.runs u.cluster) 0 (2 ^ 22) want).map (fun o => some (o, want))

/-- The workgroups of a unit. -/
def State.unitWgs (s : State) (u : Nat) : List Workgroup := s.sched.wgs.filter (fun w => w.unit == u)

/-- A successor group starts: its registers at full size with v0 and v1 preloaded, slot 0 at ENTRY (R137). -/
def Group.begin (g : Group) (k : KDesc) (scratch : Nat) : Group :=
  let rows := g.vregs ++ List.replicate (8 * k.vgran - g.vregs.length) (vecRow k.m (fun _ => 0))
  { g with st := .running, prevSt := .running,
           vregs := preloadVec k.m rows, sregs := g.sregs.set 4 (BitVec.ofNat 64 scratch),
           slot0 := { pc := k.entry, mask := fullMask k.m, frame := 0, cptr := 0, last := 0 } }

/-- Steps 3 and 4 of R142: the added footprint reserved whole, then the successor's groups start, each with an acquire before its
first instruction (R145); none while it does not fit. Under Drydown they issue from the next round boundary on (R145). -/
def State.grow (s : State) (u : HUnit) (l : Launch) : Option State :=
  match s.ctx? l.ctx, s.growRun u with
  | some c, some run =>
    let ws := s.unitWgs u.id
    if !ws.all (fun w => s.coreFits w.core (s.growNeed u w)) ||
        !s.mayPlaceOn c l.region (ws.map (fun w => (w.core, s.growNeed u w))) false (fun _ => true) then none
    else
      let off := match run with
        | some (o, _) => o
        | none => 0
      let fresh := u.scratch.isNone && run.isSome
      let s1 := { s with sched := { s.sched with
        genSeq := s.sched.genSeq + 1,
        wgs := s.sched.wgs.map (fun (w : Workgroup) => if w.unit == u.id then
          { w with tileRes := w.tileRes ++ (s.freeTiles w.core).take (u.kd.tiles - w.tileRes.length),
                   bankRes := w.bankRes ++ (s.freeBanks w.core).take (u.kd.banks - w.bankRes.length),
                   hold := w.hold || s.drydown l.ctx } else w) } }
      let s2 := s1.putUnit { u with scratch := run, st := .running, scratchGen := if fresh then s.sched.genSeq else u.scratchGen }
      some ((s2.unitGroups u.id).foldl (fun st g => st.putGroup { g.begin u.kd off with acquire := some u.acqScope }) s2)
  | _, _ => none

/-- A unit in HANDOVER or GROWWAIT goes as far as it can; one whose pre-emption is asked for stays in GROWWAIT, to be saved there
(R150). -/
def State.advanceUnit (s : State) (u : HUnit) : State :=
  match s.launch? u.launch with
  | none => s
  | some l =>
    let s1 := if u.st == .handover then
        (match l.succ? u.kd with
         | none => s
         | some k2 => if s.handoverWaits u k2 then s else s.transfer u l k2)
      else s
    match s1.unit? u.id with
    | none => s1
    | some v => if v.st == .growWait && !v.saved && !v.wanted && s1.regionOpen l.ctx l.region then (s1.grow v l).getD s1 else s1

/-! ## The end of a group (R138, R147) -/

/-- Whether every group of a unit has ended: the unit closes. A kernel without a successor keeps no ended group. -/
def State.unitClosed (s : State) (u : Nat) : Bool := (s.unitGroups u).all Group.hasEnded

/-- A unit closes: it hands over when some group ended with exit.succ, else it retires (R138). -/
def State.closeUnit (s : State) (u : HUnit) : State :=
  if (s.unitGroups u.id).any Group.succEnded then
    let v := { u with st := .handover }
    (s.putUnit v).advanceUnit v
  else s.putUnit { u with st := .retiring }

/-- What a group that ends by exit leaves under way, which no register of it receives any more: a successor inherits none of them
(R140). -/
def Group.forgetRegs (g : Group) : Group :=
  { g with loads := [], meq := g.meq.filter (fun m => !m.writesRegs), atoms := g.atoms.map (fun a => { a with red := true }) }

/-- A group ends, by exit or by exit.succ. -/
def State.endGroup (s : State) (g : Group) (u : HUnit) (succ : Bool) : State :=
  let ctx := s.groupCtx g
  let wasHandler := g.inTrapHandler
  let ended := { (if succ then g else g.forgetRegs) with
    st := .ended succ, prevSt := .ended succ, hdl := none, slot0 := PcSlot.empty, slot1 := PcSlot.empty,
    stack := [], preemptReq := false, pendTrap := false }
  let s1 := if u.kd.succDesc == 0 then ((s.putGroup ended).dropGroup ended).freeSave ctx [g.spillPiece]
    else s.putGroup ended
  let s2 := if wasHandler then s1.releaseHeld g.unit g.wg else s1
  if s2.unitClosed u.id then s2.closeUnit u else s2

/-- The handle or tile slot that keeps a group from ending (R147): cause and name. `kept` says which are carried. -/
def Workgroup.heldBy (w : Workgroup) (gi : Nat) (keptH keptT : Nat → Bool) : Option (Nat × Nat) :=
  match (List.range 16).find? (fun n => w.handles.any (fun h => h.name == n && h.owner == gi) && !keptH n) with
  | some n => some (causeAcc, n)
  | none =>
    ((List.range 16).find? (fun n => w.tiles.any (fun t => t.name == n && t.owner == gi) && !keptT n)).map (fun n => (causeTile, n))

/-- Whether the group has another continuation, so that exit ends only the issuing slot's elements (R155, R156). -/
def Iss.othersLive (c : Iss) : Bool :=
  match c.g.hdl with
  | some h => h.base < c.g.stack.length
  | none => (c.g.pcSlot (otherSlot c.which)).live || !c.g.stack.isEmpty

/-- leave() of R166: the elements of the issuing slot end. -/
def Iss.left (c : Iss) : Group :=
  let x := c.ps.mask
  let g := c.g.setPcSlot c.which { PcSlot.empty with last := c.ps.last }
  let g1 := { g with exited := g.exited ||| x,
                     stack := g.stack.map (fun e => if e.kind == .join then { e with mask := e.mask &&& ~~~x } else e) }
  Group.settle 64 g1 c.ps.frame

/-- Whether exit in the issuing slot leaves the group a continuation: where settling finds none, no element is left and the group ends
(R157). -/
def Iss.goesOn (c : Iss) : Bool := c.left.slot0.live || c.left.slot1.live || !c.left.stack.isEmpty

/-- A handler's slot ends while call entries of the handler remain: the handler issues no more. -/
def Iss.leaveHandlerSlot (c : Iss) : Eff := .done (c.st.putGroup (c.g.setPcSlot 2 PcSlot.empty))

/-- The wait for watch entries and their fault (R233). -/
def Iss.watchesFirst (c : Iss) : Option Eff :=
  if c.g.watching .pending then some (c.waitFor .fence)
  else if c.g.watching .struck then some c.headnoteFault
  else none

/-- The fault of a handle that is held and not carried. -/
def Iss.heldTrap (c : Iss) (keptH keptT : Nat → Bool) : Option Eff :=
  match c.st.wg? c.g.unit c.g.wg with
  | none => none
  | some w => (w.heldBy c.g.gi keptH keptT).map (fun r => c.trapRaw r.1 r.2 none)

/-- exit (R155). -/
def execExit (s : State) : Host.Outcome State Fault Refusal :=
  runInstr s [] fun c =>
    if c.st.queued c.g then .stall
    else if c.othersLive && (c.inHandler || c.goesOn) then (if c.inHandler then c.leaveHandlerSlot else c.doneStack c.left)
    else
      match c.watchesFirst with
      | some e => e
      | none =>
        match c.heldTrap (fun _ => false) (fun _ => false) with
        | some e => e
        | none =>
          match c.releaseFirst 2 with
          | some e => e
          | none =>
            let d := c.released 2
            .exited ((d.st.putGroup d.g).endGroup d.g d.u false)

/-- SUCCESSOR_FAULT with a reason. -/
def Iss.succTrap (c : Iss) (reason : Nat) : Eff := c.trapRaw causeSuccessor reason none

/-- Reasons 1 to 6 of R141 but for the descriptor's own validity. -/
def KDesc.succReason (k k2 : KDesc) : Option Nat :=
  if k2.m != k.m then some 2
  else if k.wgm1 < k2.wgm1 then some 3
  else if k2.cohort != k.cohort then some 4
  else if k2.tooLarge then some 5
  else if (List.range 16).any (fun g => k.imask.testBit g && k2.vgran ≤ g) ||
      (List.range 8).any (fun g => k.imask.testBit (16 + g) && k2.sgran ≤ g) ||
      (k.imask.testBit 24 && k2.pgran < k.pgran) || (k.imask.testBit 57 && k2.scratch == 0) then some 6
  else none

/-- An access of the device for a group, through the group's own page tables: its place, or what happens instead. A route that is
lost and a refusal by the peer count as they do for a load (R401, R402). -/
def Iss.devPlace (c : Iss) (va n : Nat) (a : Access) : Except Eff Place :=
  match c.st.xlElem (some c.g.core) (dieOfCore c.g.core) c.ctx 0 va a with
  | .fail f ea level perm => .error (c.xStop f a ea level perm none 0)
  | .ok ea lf =>
    let p := c.st.placeOf lf ea
    match c.st.farTrap [(0, ea, p, n)] a with
    | some t => .error (.trap { t with first := none, nelem := 0 })
    | none =>
      if !c.st.reachable p then .error .stall
      else match c.st.placeGate p n with
        | some s' => .error (c.gated s')
        | none => .ok p

/-- The read of the successor descriptor: the copy that the launch keeps, else the bytes through the group's own page
tables. -/
def Iss.readSucc (c : Iss) : Except Eff (State × KDesc) :=
  match c.l.succ? c.u.kd with
  | some k => .ok (c.st, k)
  | none =>
    match c.devPlace c.u.kd.succDesc 256 .read with
    | .error e => .error e
    | .ok p =>
      if c.st.poisonAt p 256 then .error (.waits (c.st.groupFatal c.g 5 (p.lineNo * 128)))
      else
        let r := c.st.deviceRead p 256
        if kdescInvalid r.2 then .error (c.succTrap 1) else .ok (r.1, kdescOf r.2)

/-- The first exit.succ of the unit: the descriptor read and checked (R141); later ones take the copy. -/
def Iss.checkSucc (c : Iss) : Except Eff (State × KDesc) :=
  match c.readSucc with
  | .error e => .error e
  | .ok (s, k2) =>
    if c.u.succRead then .ok (s, k2)
    else match c.u.kd.succReason k2 with
      | some r => .error (c.succTrap r)
      | none =>
        let l := if (c.l.succ? c.u.kd).isSome then c.l else { c.l with succs := c.l.succs ++ [(c.u.kd.succDesc, k2)] }
        .ok ((s.putLaunch l).putUnit { c.u with succRead := true }, k2)

/-- Whether this exit.succ closes the unit. -/
def Iss.closes (c : Iss) : Bool :=
  (c.st.unitGroups c.g.unit).all (fun h => h.hasEnded || (h.core == c.g.core && h.slot == c.g.slot))

/-- Reason 8 of R141: what the unit's groups carry exceeds the successor's TILES or BANKS in some workgroup. -/
def State.carriesTooMuch (s : State) (unit : Nat) (k2 : KDesc) : Bool :=
  (s.unitWgs unit).any (fun w => k2.tiles < w.tiles.length || k2.banks < (w.handles.flatMap (·.banks)).length)

/-- exit.succ (R156, R194). What the first one has read and checked stays known where a later check of it traps (R141). -/
def execExitSucc (s : State) : Host.Outcome State Fault Refusal :=
  runInstr s [] fun c =>
    if c.othersLive then c.convergence 5
    else if c.u.kd.succDesc == 0 then c.succTrap 7
    else if (c.st.wg? c.g.unit c.g.wg).any (fun w => w.regroup.isSome) && !c.u.kd.imask.testBit 57 then c.trapRaw causeRegroup 6 none
    else if c.st.queued c.g || !c.g.loads.isEmpty || c.g.atoms.any (fun a => !a.red) ||
        c.g.meq.any (fun m => match m.work with
          | .xround _ _ _ _ _ _ => true
          | _ => false) then .stall
    else
      match c.watchesFirst with
      | some e => e
      | none =>
        match c.checkSucc with
        | .error e => e
        | .ok (s1, k2) =>
          let d : Iss := { c with st := s1, u := (s1.unit? c.g.unit).getD c.u, l := (s1.launch? c.u.launch).getD c.l }
          let carries := decide (c.g.gi < k2.groups)
          match d.heldTrap (fun n => carries && c.u.kd.imask.testBit (41 + n)) (fun n => carries && c.u.kd.imask.testBit (25 + n)) with
          | some e => d.trapHere e
          | none =>
            if c.closes && c.st.carriesTooMuch c.g.unit k2 then d.trapHere (c.succTrap 8)
            else
              match d.releaseFirst c.u.kd.succScope with
              | some e => d.trapHere e
              | none =>
                let r := d.released c.u.kd.succScope
                .exited ((r.st.putGroup r.g).endGroup r.g r.u true)

/-! ## Retirement (R138, R146, R149) -/

/-- Whether batched operations of a unit's groups are unfinished. -/
def State.batchesOf (s : State) (unit : Nat) : Bool := s.sched.groups.any (fun g => g.home == unit && !g.meq.isEmpty)

/-- UNIT_RETIRE: no work in flight into the unit's scratch or its banks and slots: everything is scrubbed and released, and the
launch counts its workgroups. -/
def execUnitRetire (unit : Nat) (s : State) : Host.Outcome State Fault Refusal :=
  eventOf s "UNIT_RETIRE"
    (match s.unit? unit with
     | none => none
     | some u =>
       if u.st == .retiring && !u.saved && !s.runBusy u && !s.batchesOf unit && (match s.launch? u.launch with
         | some l => s.regionOpen l.ctx l.region
         | none => false) then some u else none)
    (fun u =>
      let s1 := s.releaseUnit u
      { s1 with sched := { s1.sched with launches := s1.sched.launches.map (fun l =>
          if l.id == u.launch then { l with retiredWgs := l.retiredWgs + u.wgs.length } else l) } })

end Sys2Proof.Machine
end

