-- ==== Sys2Proof/Machine/Launch.lean ====
section
/-! DEFINITION. Queues and launch records (spec file 05): the ring, the walker, readiness, the completion of a launch,
doorbells, and enq. -/

namespace Sys2Proof.Machine

/-! ## Reads and writes in a context (R116) -/

/-- Bytes read at an address of a context, with the state after the recall. -/
def State.vread (s : State) (ctx va n : Nat) : Option (State × List Byte) :=
  match s.reach ctx va n .read with
  | .ok p => some (s.deviceRead p n)
  | .bad => none
  | .later _ => none

/-- Bytes written at an address of a context. -/
def State.vwrite (s : State) (ctx va : Nat) (bs : List Byte) : Option State :=
  match s.reach ctx va bs.length .write with
  | .ok p => some (s.deviceWrite p bs)
  | .bad => none
  | .later _ => none

/-- What accesses of the device at some addresses must wait for, if anything. -/
def State.vgate (s : State) (ctx : Nat) (xs : List (Nat × Nat × Access)) : Option State :=
  xs.findSome? (fun x => match s.reach ctx x.1 x.2.1 x.2.2 with
    | .ok _ => none
    | .bad => none
    | .later s' => some s')

/-- A step of the device that first waits for what its accesses meet: the snoop that it sends is a step of its own. -/
def State.gated (s : State) (ctx : Nat) (xs : List (Nat × Nat × Access)) (next : Option State) : Option State :=
  s.afterGate (s.vgate ctx xs) next

/-! ## The ring (R114) -/

/-- The code of a queue's state. -/
def QState.code : QState → Nat
  | .active => 1
  | .stopped => 2
  | .held => 3
  | .draining => 4

/-- The entries of a ring. -/
def Queue.size (q : Queue) : Nat := 2 ^ q.qlog

/-- The address of an index's entry. -/
def Queue.entry (q : Queue) (i : Nat) : Nat := q.qbase + 128 + 128 * (i % q.size)

/-- Records published and not parsed, by indices modulo 2^64; a WPTR that lies behind PARSED publishes none (log 49). -/
def Queue.ahead (q : Queue) (w : Nat) : Nat :=
  let d := (w + 2 ^ 64 - q.parsed % 2 ^ 64) % 2 ^ 64
  if d < 2 ^ 63 then d else 0

/-- Entries of the ring in use for a WPTR. -/
def Queue.used (q : Queue) (w : Nat) : Nat := (w + 2 ^ 64 - q.retired % 2 ^ 64) % 2 ^ 64

/-- The words of the header that the device writes: PARSED, RETIRED, STATE and ERR. -/
def Queue.header (q : Queue) : List Byte := leBytes 8 q.parsed ++ leBytes 8 q.retired ++ leBytes 8 (q.st.code + q.err * 256)

/-- A queue stopped with an error. -/
def Queue.stop (q : Queue) (err : Nat) : Queue := if q.st == .active then { q with st := .stopped, err := err } else q

/-- A queue replaced and its header written; where the header cannot be written, the queue stops with ERR 1 (R116). -/
def State.syncQueue (s : State) (q : Queue) : State :=
  match s.vwrite q.ctx (q.qbase + 8) q.header with
  | some s' => s'.putQueue q
  | none => s.putQueue (q.stop 1)

/-! ## Launch records (R117 to R119) -/

/-- The fields of a record's 128 bytes. -/
def launchRecOf (b : List Byte) : LaunchRec :=
  { kdesc := wordAt b 0, gx := bitsAt (wordAt b 1) 0 32, gy := bitsAt (wordAt b 1) 32 16, gz := bitsAt (wordAt b 1) 48 16,
    param := wordAt b 2, succn := bitsAt (wordAt b 3) 16 16, region := bitsAt (wordAt b 3) 32 8, succList := wordAt b 4,
    compl := wordAt b 5, kind := bitsAt (wordAt b 6) 0 2, waitPrev := (wordAt b 6).testBit 2, mbase := bitsAt (wordAt b 7) 0 32 }

/-- PREDCNT of a record. -/
def predCount (b : List Byte) : Nat := bitsAt (wordAt b 3) 0 16

/-- Workgroups of a grid. -/
def LaunchRec.total (r : LaunchRec) : Nat := r.gx * r.gy * r.gz

/-- Whether a record's own fields make it BAD_DESCRIPTOR (R118). -/
def recordBad (b : List Byte) : Bool :=
  let r := launchRecOf b
  bad57 r.kdesc || r.kdesc % 256 != 0 || bitsAt (wordAt b 3) 40 24 != 0 || bitsAt (wordAt b 6) 3 61 != 0 ||
  bitsAt (wordAt b 7) 32 32 != 0 || (List.range 7).any (fun i => wordAt b (9 + i) != 0) || r.kind == 3 || 1024 < r.succn ||
  (r.succn != 0 && r.succList % 8 != 0) || (r.kind == 1 && r.compl % 8 != 0) ||
  (r.kind == 2 && (r.compl % 32 != 0 || 2 ^ 28 ≤ r.compl))

/-- The region of a record: the queue's, or one in its subtree. -/
def Context.recordRegion (c : Context) (q : Queue) (r : LaunchRec) : Option Nat :=
  if r.region == 0 then some q.region
  else match c.region? r.region with
    | none => none
    | some _ => if c.inSubtree q.region r.region then some r.region else none

/-- An all-zero kernel descriptor for records that never start. -/
def KDesc.zero : KDesc := kdescOf []

/-- Whether the record before index i of a queue has completed (R121): records are parsed in order, so one that has not stands in the
launch table. The first record since binding finds none there. -/
def State.prevDone (s : State) (q : Queue) (i : Nat) : Bool :=
  !s.sched.launches.any (fun l => l.queue == q.id && l.index == (i + 2 ^ 64 - 1) % 2 ^ 64 && !l.done)

/-- The clock of the device scheduler: that of the base die of the context's port. -/
def State.schedClock (s : State) (ctx : Nat) : Nat := s.clock (.base (s.ctxBase ctx))

/-- A record entered into the launch table, with a status where it fails at parse. -/
def State.addLaunch (s : State) (q : Queue) (i : Nat) (r : LaunchRec) (region : Nat) (kd : KDesc) (predZero ready : Bool) (status : Option Nat) : State :=
  let l : Launch :=
    { id := s.sched.parseSeq, queue := q.id, ctx := q.ctx, region := region, index := i, addr := q.entry i, record := r, kd := kd,
      succs := [], ready := ready, predZero := predZero, nextWg := 0, retiredWgs := 0, preempted := false, waitSince := s.schedClock q.ctx,
      bypassed := false, reserving := false, cores := [], status := status, cause := 0, done := false }
  { s with sched := { s.sched with launches := s.sched.launches ++ [l], parseSeq := s.sched.parseSeq + 1, selectDue := true } }

/-- A record parsed: its status where it fails (R118, R125, R135), else whether it is ready (R121). A descriptor that is invalid and too
large is BAD_DESCRIPTOR (log 50). -/
def State.parseRecord (s : State) (c : Context) (q : Queue) (i : Nat) (b : List Byte) : State :=
  let r := launchRecOf b
  let bad := fun (st : State) (code : Nat) => st.addLaunch q i r q.region KDesc.zero false false (some code)
  match (if recordBad b then none else c.recordRegion q r) with
  | none => bad s 2
  | some region =>
    match s.vread q.ctx r.kdesc 256 with
    | none => bad s 2
    | some (s1, kb) =>
      if kdescInvalid kb then bad s1 2
      else if (kdescOf kb).tooLarge then bad s1 1
      else s1.addLaunch q i r region (kdescOf kb) (predCount b == 0) (predCount b == 0 && (!r.waitPrev || s.prevDone q i)) none

/-- The uncompleted records of a queue in the launch table. -/
def State.openRecords (s : State) (q : Nat) : List Launch := s.sched.launches.filter (fun l => l.queue == q && !l.done)

/-- Whether the device can never access bytes at an address of a context. -/
def State.unreachable (s : State) (ctx va n : Nat) (a : Access) : Bool :=
  match s.reach ctx va n a with
  | .ok _ => false
  | .bad => true
  | .later _ => false

/-- WALKER_PARSE: the next published record of an ACTIVE queue (R120). One that cannot be read, and a header that cannot be written,
stop the queue with the entry unparsed (R116). -/
def execWalkerParse (queue : Nat) (s : State) : Host.Outcome State Fault Refusal :=
  eventOf s "WALKER_PARSE"
    (match s.queue? queue with
     | none => none
     | some q => match s.ctx? q.ctx with
       | none => none
       | some c =>
         if q.st != .active || q.ahead q.wptr == 0 || 64 ≤ (s.openRecords q.id).length ||
             4096 ≤ (s.sched.launches.filter (fun l => !l.done)).length then none
         else
           let a := q.entry q.parsed
           let kd := match s.vread q.ctx a 128 with
             | some (_, b) => [((launchRecOf b).kdesc, 256, Access.read)]
             | none => []
           s.gated q.ctx ([(a, 128, .read), (q.qbase + 8, 24, .write)] ++ kd)
             (match (if s.unreachable q.ctx (q.qbase + 8) 24 .write then none else s.vread q.ctx a 128) with
              | none => some (s.syncQueue (q.stop 1))
              | some (s1, b) => some ((s1.parseRecord c q q.parsed b).syncQueue { q with parsed := (q.parsed + 1) % 2 ^ 64 })))
    (fun s' => s')

/-- WPTR read again, as after a doorbell and at least every 2^16 cycles (R115, R133). -/
def execWptrPoll (queue : Nat) (s : State) : Host.Outcome State Fault Refusal :=
  eventOf s "WPTR_POLL"
    (match s.queue? queue with
     | none => none
     | some q =>
       if q.st != .active then none
       else s.gated q.ctx [(q.qbase, 8, .read)]
         (match s.vread q.ctx q.qbase 8 with
          | none => some (s.syncQueue { q.stop 1 with doorbell := false })
          | some (s1, b) => some (s1.putQueue { q with wptr := leNat b, doorbell := false, polled := s.schedClock q.ctx })))
    (fun s' => s')

/-- QDOORBELL: a host names a queue whose WPTR is to be read again (R115). -/
def execQdoorbell (port queue : Nat) (s : State) : Host.Outcome State Fault Refusal :=
  event s "QDOORBELL" (decide (port < 2) && s.mgmt.devState == .ready)
    (match s.queue? (queue % 1024) with
     | some q => s.putQueue { q with doorbell := true }
     | none => s)

/-! ## Readiness and successors (R121 to R123) -/

/-- A parsed record marked ready. -/
def State.markReady (s : State) (id : Nat) : State :=
  { s with sched := { s.sched with
      selectDue := true,
      launches := s.sched.launches.map (fun l =>
        if l.id == id && !l.ready then { l with ready := true, waitSince := s.schedClock l.ctx } else l) } }

/-- The record after a completed one becomes ready when it waited only for it. -/
def State.wakeNext (s : State) (q : Queue) (i : Nat) : State :=
  match s.sched.launches.find? (fun l => l.queue == q.id && l.index == i && !l.done && !l.ready && l.status.isNone && l.predZero) with
  | none => s
  | some l => s.markReady l.id

/-- The queue of a context whose ring has an entry at an address. -/
def State.ringOf (s : State) (ctx a : Nat) : Option Queue :=
  s.sched.queues.find? (fun q => q.ctx == ctx && q.qbase + 128 ≤ a && (a - q.qbase) % 128 == 0 && a < q.qbase + 128 + 128 * q.size)

/-- The last decrement of a parsed record's PREDCNT: it is ready unless it waits for the record before it. -/
def State.lastDecrement (s : State) (q : Queue) (a : Nat) : State :=
  match s.sched.launches.find? (fun l => l.queue == q.id && l.addr == a && !l.done && !l.ready && l.status.isNone) with
  | none => s
  | some l =>
    let s1 := s.putLaunch { l with predZero := true }
    if !l.record.waitPrev || s.prevDone q l.index then s1.markReady l.id else s1

/-- One successor entry: PREDCNT decremented by one atomic, the record ready on the last decrement; the second part says whether the
entry was skipped (R123), as is one whose page does not translate or lacks W (log 51). -/
def State.decrement (s : State) (ctx a : Nat) : State × Bool :=
  match s.ringOf ctx a with
  | none => (s, true)
  | some q =>
    match s.reach ctx (a + 24) 2 .write with
    | .bad => (s, true)
    | .later _ => (s, true)
    | .ok p =>
      let r := s.deviceRead p 2
      let n := leNat r.2
      if n == 0 then (s, true)
      else
        let s1 := r.1.deviceWrite p (leBytes 2 (n - 1))
        (if n == 1 then s1.lastDecrement q a else s1, false)

/-- Whether a record has a list of successors that can lie anywhere: one whose SUCCN or SUCCLIST is itself out of range has none that
is readable (log 17). -/
def LaunchRec.hasList (r : LaunchRec) : Bool := r.succn ≤ 1024 && (r.succn == 0 || r.succList % 8 == 0)

/-- The reads of a record's successor list. -/
def Launch.listReads (l : Launch) : List (Nat × Nat × Access) :=
  if l.record.hasList then (List.range l.record.succn).map (fun i => (l.record.succList + 8 * i, 8, Access.read)) else []

/-- The addresses of a record's successor list; none where it cannot be read. -/
def State.succEntries (s : State) (l : Launch) : Option (List Nat) :=
  if l.record.hasList then l.listReads.mapM (fun x => (s.vread l.ctx x.1 8).map (fun r => leNat r.2)) else none

/-- Every successor decremented in list order; whether any was skipped. -/
def State.decrementAll (s : State) (l : Launch) : State × Bool :=
  match s.succEntries l with
  | none => (s, true)
  | some xs => xs.foldl (fun acc a =>
      let r := acc.1.decrement l.ctx a
      (r.1, acc.2 || r.2)) (s, false)

/-! ## Completion (R122) -/

/-- The status code that a launch completes with. -/
def Launch.code (l : Launch) : Nat :=
  match l.status with
  | some k => k
  | none => if l.preempted then 6 else 0

/-- The status word with DONE. -/
def Launch.statusWord (l : Launch) : Nat := l.code + 256 + (if l.code == 5 then l.cause % 256 * 65536 else 0)

/-- RETIRED moved past the completed records at its head. -/
def Queue.retire (q : Queue) : Nat → Queue
  | 0 => q
  | n + 1 =>
    if q.doneIdx.contains q.retired then
      ({ q with retired := (q.retired + 1) % 2 ^ 64, doneIdx := q.doneIdx.filter (· != q.retired) } : Queue).retire n
    else q

/-- The partials of the cores that a launch has run on applied to their lines: the release at host scope (R122, R237). -/
def State.releaseLaunch (s : State) (l : Launch) : State := l.cores.foldl (fun st k => st.releasePartials k 8) s

/-- What step 4 of R122 does. A word of KIND 1 whose address does not translate or lacks W is not written, and the queue goes on
(log 52). -/
def State.completionWord (s : State) (l : Launch) : State :=
  if l.record.kind == 1 && l.record.compl % 8 == 0 then (s.vwrite l.ctx l.record.compl (leBytes 8 l.statusWord)).getD s
  else if l.record.kind == 2 && l.record.compl < 2 ^ 28 then s.deviceArrive l.ctx (l.record.compl / 2 ^ 22) (l.record.compl % 2 ^ 22)
  else s

/-- Step 6 of R122, the stop of R116, and the record after it. -/
def State.retireRecord (s : State) (l : Launch) (wrote : Bool) : State :=
  match s.queue? l.queue with
  | none => s
  | some q =>
    let q1 := ({ q with doneIdx := q.doneIdx ++ [l.index] } : Queue).retire (q.doneIdx.length + 1)
    let q2 := if !wrote then q1.stop 3 else if q.stopOnErr && l.code != 0 && l.code != 6 then q1.stop 2 else q1
    (s.syncQueue q2).wakeNext q2 ((l.index + 1) % 2 ^ 64)

/-- A launch completes: release, status word, completion, successors, RETIRED. Its entry leaves the table once it has no
dumped unit. -/
def State.completeLaunch (s : State) (l : Launch) : State :=
  let s0 := s.releaseLaunch l
  let r := match s0.vwrite l.ctx (l.addr + 64) (leBytes 8 l.statusWord) with
    | some s1 => (s1, true)
    | none => (s0, false)
  let d := (r.1.completionWord l).decrementAll l
  let s2 := if d.2 then (d.1.vwrite l.ctx (l.addr + 64) (leBytes 8 (l.statusWord + 512))).getD d.1 else d.1
  let s3 := s2.retireRecord l r.2
  let keep := s3.sched.units.any (fun u => u.launch == l.id)
  { s3 with sched := { s3.sched with
      selectDue := true,
      groups := s3.sched.groups.filter (fun g => !(g.isGhost && g.unit == l.id)),
      launches := if keep then s3.sched.launches.map (fun m => if m.id == l.id then { m with done := true } else m)
                  else s3.sched.launches.filter (fun m => m.id != l.id) } }

/-- Whether something of a launch is still under way: what its groups have sent, its copies and remote transfers, its
collectives (R122, R146). -/
def State.launchBusy (s : State) (id : Nat) : Bool :=
  s.sched.groups.any (fun g => g.busyGhost id) ||
  s.eng.ceCmds.any (fun k => k.launch == id) || s.eng.feCmds.any (fun k => k.launch == id) ||
  s.eng.ctt.any (fun e => e.launch == id && e.st == .fired)

/-- Whether a launch has reached its end (R122, step 1). -/
def State.launchOver (s : State) (l : Launch) : Bool :=
  !l.done && (l.status.isSome || (l.ready && l.record.total ≤ l.retiredWgs && s.regionOpen l.ctx l.region)) && !s.launchBusy l.id

/-- The addresses that a completion accesses: its own words and the successor list, and once nothing keeps the list from being read
the entries that it names. -/
def State.completionReach (s : State) (l : Launch) : List (Nat × Nat × Access) :=
  let own := [(l.addr + 64, 8, Access.write)] ++ (if l.record.kind == 1 then [(l.record.compl, 8, .write)] else []) ++
    (match s.queue? l.queue with
     | some q => [(q.qbase + 8, 24, .write)]
     | none => []) ++ l.listReads
  own ++ (if (s.vgate l.ctx own).isSome then [] else ((s.succEntries l).getD []).map (fun a => (a + 24, 2, Access.write)))

/-- What the completion of a launch waits for: the lines that its cores' partials go to, then what it accesses itself (R228). -/
def State.completionGate (s : State) (l : Launch) : Option State :=
  (l.cores.findSome? (fun k => s.releaseGate k 8)).orElse (fun _ => s.vgate l.ctx (s.completionReach l))

/-- LAUNCH_COMPLETE (R122, R123). -/
def execLaunchComplete (launch : Nat) (s : State) : Host.Outcome State Fault Refusal :=
  eventOf s "LAUNCH_COMPLETE"
    (match s.launch? launch with
     | none => none
     | some l => if s.launchOver l then s.afterGate (s.completionGate l) (some (s.completeLaunch l)) else none)
    (fun s' => s')

/-- Whether a launch has workgroups to place: new ones, or saved ones again (R128). -/
def State.unplaced (s : State) (l : Launch) : Bool :=
  decide (l.nextWg < l.record.total) || s.sched.units.any (fun u => u.launch == l.id && u.saved)

/-- LAUNCH_RESERVING: a launch that others have passed for 2^20 scheduler cycles (R124). -/
def execLaunchReserving (launch : Nat) (s : State) : Host.Outcome State Fault Refusal :=
  eventOf s "LAUNCH_RESERVING"
    (match s.launch? launch with
     | none => none
     | some l =>
       if l.ready && !l.reserving && l.bypassed && l.status.isNone && !l.done && s.unplaced l &&
           2 ^ 20 ≤ s.schedClock l.ctx - l.waitSince then some l else none)
    (fun l =>
      let s1 := s.putLaunch { l with reserving := true }
      { s1 with sched := { s1.sched with selectDue := true } })

/-- A record that has not started: it has placed nothing. -/
def Launch.notStarted (l : Launch) : Bool := l.nextWg == 0 && l.status.isNone && !l.done

/-- The records of a queue below a WPTR that no walker has parsed; more than the ring holds are not there. -/
def Queue.unparsed (q : Queue) (w : Nat) : List Nat := (List.range (min (q.ahead w) q.size)).map (fun k => (q.parsed + k) % 2 ^ 64)

/-- WPTR as it reads now; what the device read last where it cannot be read. -/
def State.readWptr (s : State) (q : Queue) : Nat :=
  match s.vread q.ctx q.qbase 8 with
  | some r => leNat r.2
  | none => q.wptr

/-- The unparsed records of a queue up to its WPTR, entered with CANCELLED (R86, R113). -/
def State.cancelUnparsed (s : State) (q : Queue) : State :=
  let w := s.readWptr q
  let s2 := (q.unparsed w).foldl (fun s i =>
    match s.vread q.ctx (q.entry i) 128 with
    | none => s.addLaunch q i (launchRecOf []) q.region KDesc.zero false false (some 4)
    | some (s', rb) => s'.addLaunch q i (launchRecOf rb) q.region KDesc.zero false false (some 4)) s
  s2.syncQueue { q with parsed := (q.parsed + (q.unparsed w).length) % 2 ^ 64, wptr := w }

/-- What a cancellation of a queue's unparsed records must wait for: WPTR, then the records below it, and the header. -/
def State.cancelGate (s : State) (q : Queue) : Option State :=
  (s.vgate q.ctx [(q.qbase, 8, .read), (q.qbase + 8, 24, .write)]).orElse (fun _ =>
    s.vgate q.ctx ((q.unparsed (s.readWptr q)).map (fun i => (q.entry i, 128, Access.read))))

/-! ## enq (R131 to R133) -/

/-- The claim and publication of one record. -/
def Iss.publish (c : Iss) (d : Nat) (q : Queue) (rec : List Byte) : Eff :=
  match c.devPlace q.qbase 8 .write with
  | .error e => e
  | .ok h =>
    let r := c.st.deviceRead h 8
    let w := leNat r.2
    match c.devPlace (q.entry w) 128 .write with
    | .error e => e
    | .ok p =>
      if q.size ≤ q.used w then c.done (c.g.setS d 1)
      else
        let s1 := r.1.deviceWrite p (rec.take 64 ++ List.replicate 8 0 ++ rec.drop 72)
        let s2 := (s1.deviceWrite h (leBytes 8 ((w + 1) % 2 ^ 64))).putQueue { q with doorbell := true }
        c.doneIn s2 (c.g.setS d 0)

/-- enq. -/
def execEnq (d a b : Fin 64) (s : State) : Host.Outcome State Fault Refusal :=
  runInstr s [opS 12 d, opS 18 a, opS 24 b] fun c =>
    let va := (c.g.s b).toNat
    if va % 128 != 0 then c.alignAt .read 0 va 1
    else
      match c.releaseFirst 6 with
      | some e => e
      | none =>
        let k := c.released 6
        match k.devPlace va 128 .read with
        | .error e => e
        | .ok p =>
          if k.st.poisonAt p 128 then .waits (k.st.groupFatal k.g 5 (p.lineNo * 128))
          else
            let r := k.st.deviceRead p 128
            let k1 := { k with st := r.1 }
            match k1.st.queue? ((k1.g.s a).toNat % 1024) with
            | none => k1.done (k1.g.setS d 2)
            | some q =>
              if q.ctx != k1.ctx || !q.producer then k1.done (k1.g.setS d 2)
              else if q.st != .active then k1.done (k1.g.setS d 3)
              else k1.publish d q r.2

end Sys2Proof.Machine
end

