-- ==== Sys2Proof/Machine/Save.lean ====
section
/-! DEFINITION. Pre-emption (R184 to R190): the save records, PREEMPT, yield, the instruction limit of the pre-emption
handler, the save of a unit with its copies paused, and the moves of groups between cores. -/

namespace Sys2Proof.Machine

/-! ## Save records (R188 to R190) -/

/-- A bit as a number. -/
def bit (b : Bool) (i : Nat) : Nat := if b then 2 ^ i else 0

/-- HOW of a group record and its mask of vector granules. -/
def Group.how (g : Group) (u : HUnit) : Nat × Nat :=
  match g.saved with
  | some x => (x.how, x.vmask.toNat)
  | none =>
    let all := 2 ^ u.kd.vgran - 1
    if g.hasEnded then (if u.st == .growWait then (4, all) else if g.succEnded then (3, all) else (2, all)) else (0, all)

/-- The first word of a group record. -/
def Group.recordWord (g : Group) (u : HUnit) : Nat :=
  let h := g.how u
  h.1 + bit (g.hdl.any (fun x => x.restored)) 3 + bit g.pendTrap 4 + bit g.inFaultWait 5 + bit g.inWait 6 + g.slot % 32 * 2 ^ 7 +
    g.gi * 2 ^ 12 + h.2 * 2 ^ 16

/-- The group that a record describes: one that waits to grow into a successor is recorded as not yet started, at the successor's
ENTRY with the rows that it inherits, every other row zero (R150, R151). -/
def Group.recorded (g : Group) (u : HUnit) : Group :=
  if u.st == .growWait then
    { g with slot0 := { pc := u.kd.entry, mask := fullMask u.kd.m, frame := 0, cptr := 0, last := 0 },
             vregs := g.vregs ++ List.replicate (8 * u.kd.vgran - g.vregs.length) (vecRow u.kd.m (fun _ => 0)) }
  else g

/-- A PC slot's word. -/
def PcSlot.word (p : PcSlot) : Nat := if p.live then p.pc % 2 ^ 57 + 2 ^ 63 else 0

/-- The CTRL words (R189). -/
def State.ctrlWords (s : State) (g : Group) : List Nat :=
  let dd := s.drydown (s.groupCtx g)
  let round := match s.wg? g.unit g.wg with
    | some w => w.round
    | none => 0
  [g.flags.toNat, g.cause.toNat, g.trappc.toNat, g.tinfo0.toNat, g.tinfo1.toNat, g.tinfo2.toNat, g.tinfo3.toNat, g.ucond.toNat,
    g.batch.toNat, g.mmxcnt.toNat, g.cprog.toNat, if dd then g.slot % 32 + round % 2 ^ 48 * 256 else 0,
    if dd then g.retired else s.clock (.core g.core)]

/-- The handle words of a group. -/
def Workgroup.handleWord (w : Workgroup) (gi n : Nat) : Nat :=
  match w.handles.find? (fun h => h.name == n && h.owner == gi) with
  | some h => 1 + h.banks.headD 0 * 256 + h.banks.length * 65536
  | none => 0

/-- The held tile slots of a group in ascending number. -/
def Workgroup.tilesOf (w : Workgroup) (gi : Nat) : List TileSlot :=
  (List.range 16).filterMap (fun n => w.tiles.find? (fun t => t.name == n && t.owner == gi))

/-- The trap frame that a record holds: in a handler what lies in memory (R165, R186), once it has been written. -/
def State.recordFrame (s : State) (g : Group) : List Byte :=
  if g.hdl.any (fun h => h.framed) then s.devRead g.spill 96 else g.trapFrame

/-- The header and sections of a group record. -/
def State.groupRecord (s : State) (x : Group) (u : HUnit) (w : Workgroup) : List Byte :=
  let h := x.how u
  let g := x.recorded u
  let depth := g.depth + g.slot0.frame * 2 ^ 8 + g.slot1.frame * 2 ^ 16 + g.slot0.cptr * 2 ^ 24 + g.slot1.cptr * 2 ^ 32
  let held := (w.tilesOf g.gi).foldl (fun acc t => acc + 2 ^ t.name) 0
  let rentry := match g.saved with
    | some x => x.rentry
    | none => 0
  let vecs : List Byte := (List.range (8 * u.kd.vgran)).flatMap (fun r =>
    if h.2.testBit (r / 8) then (g.vregs.getD r []).flatMap (fun x => leBytes 4 x.toNat) else [])
  leBytes 8 (g.recordWord u) ++ leBytes 8 g.slot0.word ++ leBytes 8 g.slot1.word ++ leBytes 32 g.slot0.mask.toNat ++
    leBytes 32 g.slot1.mask.toNat ++ leBytes 8 depth ++ (s.ctrlWords g).flatMap (fun x => leBytes 8 x) ++ leBytes 8 rentry ++
    leBytes 8 g.keys.toNat ++ leBytes 8 g.struckMask ++ leBytes 8 held ++
    (List.range 16).flatMap (fun n => leBytes 8 (w.handleWord g.gi n)) ++ s.recordFrame g ++ List.replicate 56 (0 : Byte) ++
    vecs ++ g.sregs.flatMap (fun x => leBytes 8 x.toNat) ++ g.pregs.flatMap (fun x => leBytes 32 x.toNat) ++
    (w.tilesOf g.gi).flatMap (fun t => Memory.readN t.bytes 0 32768) ++
    (List.range 16).flatMap (fun n => match w.handles.find? (fun a => a.name == n && a.owner == g.gi) with
      | some a => Memory.readN a.bytes 0 (2048 * a.banks.length)
      | none => [])

/-- The lowest workgroup of a unit, whose header the scratch image follows. -/
def HUnit.lowest (u : HUnit) : Nat := u.wgs.foldl min (u.wgs.headD 0)

/-- A workgroup header with its scratch image, if it has one. -/
def State.wgRecord (s : State) (u : HUnit) (w : Workgroup) (groups : Nat) : List Byte :=
  let addr := match s.launch? u.launch with
    | some l => l.addr
    | none => 0
  let dd := match s.launch? u.launch with
    | some l => s.drydown l.ctx
    | none => false
  let img := if w.index == u.lowest then u.scratch else none
  let len := match img with
    | some r => r.2
    | none => 0
  let st := match u.st with
    | .running => 0
    | .handover => 1
    | .growWait => 2
    | .retiring => 0
  let regoff := match w.regroup, u.scratch with
    | some o, some r => o - r.1
    | _, _ => 0
  leBytes 8 addr ++ leBytes 8 u.kdAddr ++ leBytes 4 w.index ++
    leBytes 4 (groups + st * 32 + bit img.isSome 7 + bit w.regroup.isSome 8) ++ leBytes 8 len ++ leBytes 8 regoff ++
    leBytes 8 (if dd then w.round else 0) ++ List.replicate 208 (0 : Byte) ++
    (match img with
     | some r => List.replicate (roundUp4k 256 - 256) (0 : Byte) ++ (s.sramOf u.cluster).readN r.1 r.2
     | none => [])

/-- The parts of a unit's record in order: each workgroup's header, then its groups. -/
def State.recordParts (s : State) (u : HUnit) : List (List Byte) :=
  (s.unitWgs u.id).flatMap (fun w =>
    let gs := ((List.range 16).filterMap (fun i => (s.wgGroups u.id w.index).find? (fun g => g.gi == i)))
    s.wgRecord u w gs.length :: gs.map (fun g => s.groupRecord g u w))

/-- Parts written into the save area, with the pieces that they take; none where they do not fit (R94). -/
def State.writeParts (s : State) (ctx : Nat) (parts : List (List Byte)) : Option (State × List (Nat × Nat)) :=
  match s.ctx? ctx with
  | none => none
  | some c => match c.takeSave (parts.map List.length) with
    | none => none
    | some (c1, addrs) =>
      some ((addrs.zip parts).foldl (fun s p => s.serveWrite p.1 p.2) (s.putCtx c1),
        (addrs.zip parts).map (fun p => (p.1, roundUp4k p.2.length)))

/-- What the writes of parts wait for: the lines of the pieces that they will take (R228). -/
def State.partsGate (s : State) (ctx : Nat) (parts : List (List Byte)) : Option State :=
  match s.ctx? ctx with
  | none => none
  | some c => match c.takeSave (parts.map List.length) with
    | none => none
    | some (_, addrs) => s.devGates (addrs.zip (parts.map List.length))

/-- What a save or a dump of groups accesses in their spill regions: the trap frames, and the divergence stacks with their on-chip
entries (R165, R190). -/
def State.spillsGate (s : State) (gs : List Group) : Option State :=
  s.devGates (gs.map (fun g => (g.spill, 128 + 48 * g.stack.length)))

/-- The on-chip entries of some groups' divergence stacks written to their spill regions (R190). -/
def State.writeStacks (s : State) (gs : List Group) : State := gs.foldl (fun st g => st.writeStack g (fun _ => true)) s

/-- Bytes of the save area scrubbed (R187). -/
def State.scrubSave (s : State) (pieces : List (Nat × Nat)) : State :=
  pieces.foldl (fun st p => st.serveWrite p.1 (List.replicate p.2 (0 : Byte))) s

/-! ## Groups that move (R187) -/

/-- A group takes another core and slot, and with it everything that names it. -/
def State.moveGroup (s : State) (core slot core2 slot2 : Nat) : State :=
  let s1 := s.closeRegion core slot
  { s1 with
    sched := { s1.sched with groups := s1.sched.groups.map (fun g =>
      if g.core == core && g.slot == slot then { g with core := core2, slot := slot2 } else g) },
    eng := { s1.eng with
      ceCmds := s1.eng.ceCmds.map (fun k => if k.core == core && k.slot == slot then { k with core := core2, slot := slot2 } else k),
      feCmds := s1.eng.feCmds.map (fun k => if k.core == core && k.slot == slot then { k with core := core2, slot := slot2 } else k) } }

/-- The place of a workgroup in its unit. -/
def HUnit.place (u : HUnit) (index : Nat) : Nat := index - u.lowest

/-- A unit's workgroups and groups leave their cores. -/
def State.leaveCores (s : State) (u : HUnit) : State :=
  let s1 := (s.unitGroups u.id).foldl (fun st g => st.moveGroup g.core g.slot (savedCore u.id (u.place g.wg)) g.slot) s
  { s1 with sched := { s1.sched with
      wgs := s1.sched.wgs.map (fun (w : Workgroup) => if w.unit == u.id then { w with core := savedCore u.id (u.place w.index) } else w) } }

/-! ## The save of a unit (R150, R282, R358, R367) -/

/-- Whether a group has nothing under way but what goes with it. -/
def State.groupQuiet (s : State) (g : Group) : Bool :=
  g.drained && g.meq.isEmpty && !s.queued g && !g.watching .pending && g.blocked.isNone

/-- Whether a group is ready for the save: it has taken its part, or it has ended. -/
def Group.saveDone (g : Group) : Bool := g.saved.isSome || g.hasEnded

/-- The commands of a unit. -/
def State.unitCmds (s : State) (u : Nat) : List CeCmd := s.eng.ceCmds.filter (fun k => k.unit == u)

/-- Whether the copies and transfers that touch a unit let it be saved: its own between portions, none of others into its
run, no count on its way there, none of its own on its way elsewhere. -/
def State.transfersReady (s : State) (u : HUnit) : Bool :=
  (s.unitCmds u.id).all (fun k => k.atPortion s) &&
  s.eng.feCmds.all (fun k => k.unit != u.id || (k.atPortion && !s.unitsSent k.id)) &&
  !s.eng.counts.any (fun m => s.eng.ceCmds.any (fun k => k.unit == u.id && k.id == m.src) ||
    s.eng.feCmds.any (fun k => k.unit == u.id && k.id == m.src)) &&
  (match u.scratch with
   | none => true
   | some (off, len) =>
     !s.eng.ceCmds.any (fun k => k.unit != u.id && k.into u.cluster off (off + len) u.scratchGen) &&
     !s.eng.feCmds.any (fun k => k.unit != u.id && k.into u.cluster off (off + len) u.scratchGen) &&
     !s.eng.counts.any (fun m => m.bar.inPart u.cluster off (off + len) u.scratchGen))

/-- Whether a Drydown unit waits for the boundary at which one of its workgroups admits the request (R103). -/
def State.requestDue (s : State) (u : HUnit) : Bool :=
  s.sched.ctxs.any (fun c => c.events.any (fun e => e.kind == 2 && e.unit == u.id))

/-- Whether a unit can be saved now; one in HANDOVER first hands over (R150). -/
def State.saveReady (s : State) (u : HUnit) : Bool :=
  !u.saved && u.st != .retiring && !(u.st == .handover) && (u.wanted || (s.unitGroups u.id).any (fun g => g.saved.isSome)) &&
  !s.requestDue u && (s.unitGroups u.id).all (fun g => g.saveDone && s.groupQuiet g) && s.transfersReady u

/-- A watch table across a save: every entry is resolved, one that is confirmed is free again, one that is struck stays so (R184,
R233). -/
def restWatch (ws : List WatchEntry) : List WatchEntry :=
  ws.map (fun e => if e.st == .confirmed then { st := .free, lines := [] } else e)

/-- The state that a saved group returns to: one in bwait or in a fault wait issues its instruction again, one in another wait is in
it still (R184, R187, R282). -/
def Group.rest (g : Group) : Group :=
  if g.hasEnded then g
  else if g.inFaultWait then { g with watch := restWatch g.watch, lateTrap := none, st := g.resumeSt, prevSt := g.resumeSt }
  else if g.barWait.isSome then { g with watch := restWatch g.watch, st := g.resumeSt, prevSt := g.resumeSt }
  else { g with watch := restWatch g.watch }

/-- The cores that a unit's workgroups are on. -/
def State.unitCores (s : State) (u : Nat) : List Nat := ((s.unitWgs u).map (·.core)).eraseDups

/-- The update-only partials of a unit's cores applied to their lines, since a later release of the unit's groups is performed on
another core (R248, R261; log 57). -/
def State.releaseUnitCores (s : State) (u : Nat) : State := (s.unitCores u).foldl (fun st k => st.releasePartials k 8) s

/-- What the save of a unit waits for: its spill regions, the lines that its cores' partials go to, the pieces of the save area
(R228). -/
def State.saveGate (s : State) (u : HUnit) (ctx : Nat) : Option State :=
  (s.spillsGate (s.unitGroups u.id)).orElse (fun _ =>
    ((s.unitCores u.id).findSome? (fun k => s.releaseGate k 8)).orElse (fun _ => s.partsGate ctx (s.recordParts u)))

/-- A unit saved: record, scratch image, paused copies; the groups keep what they are beside their cores. None where the save area
has no room. -/
def State.saveUnit (s0 : State) (u : HUnit) : Option State :=
  let s := (s0.writeStacks (s0.unitGroups u.id)).releaseUnitCores u.id
  match s.launch? u.launch with
  | none => none
  | some l =>
    match s.writeParts l.ctx (s.recordParts u) with
    | none => none
    | some (s1, pieces) =>
      let image := match u.scratch with
        | some (off, len) => (s1.sramOf u.cluster).filter (fun (c : Host.Cell) => off ≤ c.1 && c.1 < off + len)
        | none => []
      let bars := match u.scratch with
        | some (off, len) => (s1.ms.barriers.filter (fun (b : Nat × Nat) => b.1 == u.cluster && off ≤ b.2 && b.2 < off + len)).map (·.2)
        | none => []
      let s2 := s1.scrubScratch u.cluster u.scratch
      let s3 := { s2 with eng := { s2.eng with ceCmds := s2.eng.ceCmds.map (fun (k : CeCmd) => if k.unit == u.id then { k with paused := true } else k) } }
      let s4 := s3.leaveCores u
      let s5 := s4.mapGroups (fun g => if g.unit == u.id && !g.isGhost then { g.rest with preemptReq := false } else g)
      let s6 := s5.putUnit { u with saved := true, wanted := false, saveAt := pieces, scrImage := image, scrBars := bars }
      some { s6 with sched := { s6.sched with selectDue := true } }

/-! ## PREEMPT, yield and the limit (R184 to R186) -/

/-- The PC slot at which a group takes PREEMPT: the one that would issue next. -/
def Group.nextSlot (g : Group) : Nat :=
  if g.inWait then g.waitSlot
  else if g.slot0.live && (!g.slot1.live || g.slot0.last ≤ g.slot1.last) then 0 else 1

/-- The granules that a kernel has. -/
def KDesc.allGranules (k : KDesc) : BitVec 16 := BitVec.ofNat 16 (2 ^ k.vgran - 1)

/-- A group saved whole. -/
def Group.saveWhole (g : Group) (k : KDesc) : Group :=
  { g with saved := some { how := 0, rentry := 0, vmask := k.allGranules }, preemptReq := false }

/-- The slot whose turn it is on a core that rotates (log 63). -/
def State.turn (s : State) (core : Nat) : Nat := lookupD 0 s.sched.turns core

/-- The turn passed to a slot. -/
def State.setTurn (s : State) (core slot : Nat) : State :=
  { s with sched := { s.sched with turns := assign s.sched.turns core slot } }

/-- Whether a group may take PREEMPT now: a request stops it, its queues have drained, the release of an earlier fence.rel is over,
and on a core that rotates its turn has come (R103, R179, R184). -/
def State.mayPreempt (s : State) (g : Group) : Bool :=
  s.preemptStops g && !s.queued g && g.relFence.isNone && (g.st == .running || g.inWait || g.inFaultWait) &&
  (!s.rotating g.core || s.turn g.core == g.slot)

/-- A group takes PREEMPT. -/
def State.takePreempt (s : State) (g : Group) (u : HUnit) : State :=
  if g.inFaultWait then s.putGroup (g.detach.saveWhole u.kd)
  else if u.kd.preemptH == 0 then (s.leaveBar g).putGroup (g.saveWhole u.kd)
  else
    let g1 := { g with preemptReq := false }
    (s.putGroup g1).takeTrap g1 g.nextSlot { cause := causePreempt }

/-- The turn of a rotating core that a group's PREEMPT takes passes on (R99, R103). -/
def State.turnTaken (s : State) (rotating : Bool) (g : Group) : State := if rotating then s.setTurn g.core (g.slot + 1) else s

/-- A saved group in its place again: at its restore entry, or in its saved state. With restore entry 0 it goes on from its
frozen slots with the trap frame's registers (R187; log 16). -/
def State.wakeGroup (s : State) (g : Group) (k : KDesc) : Group :=
  match g.saved with
  | none => g
  | some x =>
    let keep := (g.vregs.zipIdx).map (fun r => if x.vmask.getLsbD (r.2 / 8) then r.1 else vecRow k.m (fun _ => 0))
    let g1 := { g with saved := none, vregs := keep }
    if x.how == 1 && x.rentry != 0 then
      { g1 with st := .phandler, prevSt := .phandler, cause := BitVec.ofNat 64 causePreempt,
                hdl := some { pre := true, slot := { pc := x.rentry, mask := fullMask k.m &&& ~~~g.exited, frame := 0, cptr := 0, last := 0 },
                              base := g.stack.length, retired := 0, restored := true, framed := true } }
    else if x.how == 1 then
      let g2 := s.restoreFrame g1
      { g2.clearTrap with hdl := none, st := .running, prevSt := .running }
    else g1

/-- A unit whose records no longer fit in the save area runs on where it is (R94): its groups go on as after a restore
(log 58). -/
def State.runOn (s : State) (u : HUnit) : State :=
  (s.putUnit { u with wanted := false }).mapGroups (fun g =>
    if g.unit == u.id && !g.isGhost then { s.wakeGroup (if g.saved.isSome then g.rest else g) u.kd with preemptReq := false } else g)

/-- The save of a unit that is ready for it, or what it waits for. -/
def State.saveOrRunOn (s : State) (u : HUnit) (ctx : Nat) : Option State :=
  s.afterGate (s.saveGate u ctx) (some ((s.saveUnit u).getD (s.runOn u)))

/-- PREEMPT: a group takes PREEMPT at an instruction boundary; once every group of its unit has, the unit is saved. -/
def execPreempt (core slot : Nat) (s : State) : Host.Outcome State Fault Refusal :=
  eventOf s "PREEMPT"
    (match s.group? core slot with
     | none => none
     | some g => match s.unit? g.unit with
       | none => none
       | some u => match s.launch? u.launch with
         | none => none
         | some l =>
           if !s.regionOpen l.ctx l.region || g.isGhost then none
           else if s.mayPreempt g then some ((s.takePreempt g u).turnTaken (s.rotating g.core) g)
           else if s.saveReady u then s.saveOrRunOn u l.ctx
           else none)
    (fun s' => s')

/-- yield (R185). -/
def execYield (a b : Fin 64) (s : State) : Host.Outcome State Fault Refusal :=
  runInstr s [opS 18 a, opS 24 b] fun c =>
    if !c.inHandler then c.illegalOperand 7
    else
      let entry := (c.g.s a).toNat
      if entry % 2 == 1 then alignFault entry
      else if c.st.queued c.g then .stall
      else
        let mask := (c.g.s b).setWidth 16 &&& c.u.kd.allGranules
        c.done { c.g with saved := some { how := 1, rentry := entry, vmask := mask } }

/-- The word at an address of a group's code, if it can be fetched. -/
def State.codeWord (s : State) (g : Group) (pc : Nat) : Option Nat :=
  match s.xlElem (some g.core) (dieOfCore g.core) (s.groupCtx g) 0 pc .exec with
  | .ok ea l => some (leNat (s.placeRead (l.place ea) 4))
  | .fail _ _ _ _ => none

/-- PHANDLER_LIMIT: 4,096 handler instructions and no yield next: s0 to s7 and p0 return from the trap frame and the
group is saved whole (R186). -/
def execPhandlerLimit (core slot : Nat) (s : State) : Host.Outcome State Fault Refusal :=
  eventOf s "PHANDLER_LIMIT"
    (match s.group? core slot with
     | none => none
     | some g => match g.hdl, s.unit? g.unit with
       | some h, some u =>
         if g.st == .phandler && !h.restored && 4096 ≤ h.retired && g.saved.isNone && g.blocked.isNone && !s.queued g &&
             !((s.codeWord g h.slot.pc).any isYield) then
           s.afterGate (s.devGate g.spill 96)
             (some (s.putGroup { ((s.restoreFrame g).saveWhole u.kd).clearTrap with hdl := none, st := .running, prevSt := .running }))
         else none
       | _, _ => none)
    (fun s' => s')

/-! ## The request (R101, R128) -/

/-- A pre-emption of a unit is asked for. In a Drydown context each workgroup admits it at a round boundary (R103). -/
def State.requestPreempt (s : State) (u : HUnit) : State :=
  match s.launch? u.launch with
  | none => s
  | some l =>
    let s1 := s.putUnit { u with wanted := true }
    if s.drydown l.ctx then
      u.wgs.foldl (fun st w => st.addEvent l.ctx { kind := 2, launch := l.id, unit := u.id, wg := w, arg := 0, cluster := u.cluster, phase := 0 }) s1
    else s1.mapGroups (fun g => if g.unit == u.id && !g.isGhost && !g.hasEnded then { g with preemptReq := true } else g)

/-! ## Restore (R187) -/

/-- An endpoint of a unit's own run moved to its new cluster (R358). -/
def Endpoint.rebase (e : Endpoint) (old new : Nat) (run : Option (Nat × Nat)) : Endpoint :=
  match e with
  | .virt a => .virt a
  | .sram c o => if (Endpoint.sram c o).inRun old run then .sram new o else .sram c o

/-- A barrier reference of the unit's own run moved. -/
def BarRef.rebase (b : BarRef) (old new gen : Nat) : BarRef :=
  if b.cluster == old && b.gen == gen then { b with cluster := new } else b

/-- The copies, transfers and collectives of a restored unit follow it. -/
def State.rebaseTransfers (s : State) (u : HUnit) (new : Nat) : State :=
  { s with eng := { s.eng with
      ceCmds := s.eng.ceCmds.map (fun k => if k.unit == u.id then
        { k with paused := false, cluster := new, src := k.src.rebase u.cluster new u.scratch, dst := k.dst.rebase u.cluster new u.scratch,
                 bar := k.bar.map (fun b => b.rebase u.cluster new u.scratchGen) } else k),
      feCmds := s.eng.feCmds.map (fun k => if k.unit == u.id then
        { k with cluster := new, loc := k.loc.rebase u.cluster new u.scratch, bar := k.bar.map (fun b => b.rebase u.cluster new u.scratchGen) } else k),
      ctt := s.eng.ctt.map (fun e =>
        let d := if e.desc.dspace && e.dstGen == some u.scratchGen then new * 2 ^ 22 + e.desc.dst % 2 ^ 22 else e.desc.dst
        let b := if !e.desc.nobar && e.barGen == some u.scratchGen then new * 2 ^ 22 + e.desc.bar % 2 ^ 22 else e.desc.bar
        { e with desc := { e.desc with dst := d, bar := b } }) } }

/-- The tile slots and handles of a workgroup under new physical numbers. -/
def Workgroup.renumber (w : Workgroup) (core : Nat) (tiles banks : List Nat) : Workgroup :=
  let t := fun (x : Nat) => tiles.getD (w.tileRes.findIdx (· == x)) 0
  let b := fun (x : Nat) => banks.getD (w.bankRes.findIdx (· == x)) 0
  { w with core := core, tileRes := tiles, bankRes := banks, tiles := w.tiles.map (fun x => { x with phys := t x.phys }),
           handles := w.handles.map (fun h => { h with banks := h.banks.map b }) }

/-- The groups of a saved workgroup with the slots that they take on a core: any free ones, or under Drydown their own
numbers (R103). -/
def State.slotsFor (s : State) (u : HUnit) (w : Workgroup) (core : Nat) (own : Bool) : List (Group × Nat) :=
  let gs := (List.range 16).filterMap (fun i => (s.wgGroups u.id w.index).find? (fun g => g.gi == i))
  if own then gs.map (fun g => (g, g.slot)) else gs.zip (s.freeSlots core)

/-- What a saved workgroup needs of a core. -/
def State.savedNeed (s : State) (u : HUnit) (w : Workgroup) : Need :=
  if u.st == .growWait then u.kd.need
  else
    let gs := s.wgGroups u.id w.index
    { slots := gs.length, vec := (gs.map Group.vecBytes).foldl (· + ·) 0, banks := w.bankRes.length, tiles := w.tileRes.length }

/-- A saved workgroup onto a core. -/
def State.placeSavedWg (s : State) (u : HUnit) (w : Workgroup) (core : Nat) (own : Bool) : State :=
  let s1 := (s.slotsFor u w core own).foldl (fun st x => st.moveGroup x.1.core x.1.slot core x.2) s
  s1.putWg (w.renumber core ((s.freeTiles core).take w.tileRes.length) ((s.freeBanks core).take w.bankRes.length))

/-- PAUSED of CPROG after a restore (R358). -/
def State.countPaused (s : State) (g : Group) : Group :=
  let n := (s.eng.ceCmds.filter (fun k => k.unit == g.unit && k.core == g.core && k.slot == g.slot && k.paused)).length
  { g with cprog := BitVec.ofNat 64 (g.cprog.toNat % 65536 + n % 65536 * 65536) }

/-- The events that a unit's workgroups have still to admit name the objects of its run in its new cluster (R187, R281). -/
def State.rebaseEvents (s : State) (ctx unit cluster : Nat) : State :=
  s.mapCtx ctx (fun c => { c with events := c.events.map (fun e => if e.unit == unit && e.kind == 0 then { e with cluster := cluster } else e) })

/-- The copies of peer lines that the dies of some cores hold dropped: a group that comes from another die has read at least as new
values (R243, R252; log 64). -/
def State.dropCopies (s : State) (cores : List Nat) : State := cores.foldl (fun st core => st.dropPeerCopies (dieOfCore core) 9) s

/-- A saved unit placed again: cores for its workgroups, its run at the same offset, its groups continued, the records' space
scrubbed. A unit saved in GROWWAIT then grows to the successor's footprint. -/
def State.restoreUnit (s0 : State) (u : HUnit) (l : Launch) (cluster : Nat) (cores : List Nat) : State :=
  let own := s0.drydown l.ctx
  let s := ((s0.scrubSave u.saveAt).rebaseEvents l.ctx u.id cluster).dropCopies cores
  let s1 := ((s.unitWgs u.id).zip cores).foldl (fun st x => st.placeSavedWg u x.1 x.2 own) s
  let s2 := s1.mapGroups (fun g => if g.unit == u.id && !g.isGhost then s1.wakeGroup (s1.countPaused g) u.kd else g)
  let s3 := s2.withSram cluster (u.scrImage.foldl (fun m c => Memory.write m c.1 c.2) (s2.sramOf cluster))
  let s4 := { s3 with ms := { s3.ms with barriers := s3.ms.barriers ++ u.scrBars.map (fun o => (cluster, o)) } }
  let s5 := (s4.rebaseTransfers u cluster).freeSave l.ctx u.saveAt
  let v := { u with cluster := cluster, saved := false, wanted := false, placed := s5.sched.placeSeq, saveAt := [], scrImage := [], scrBars := [] }
  let s6 := (s5.putUnit v).putLaunch { l with preempted := true, reserving := false, bypassed := false, waitSince := s5.schedClock l.ctx,
                                              cores := (l.cores ++ cores).eraseDups }
  { s6 with sched := { s6.sched with placeSeq := s6.sched.placeSeq + 1 } }.advanceUnit v

end Sys2Proof.Machine
end

