-- ==== Sys2Proof/Machine/Schedule.lean ====
section
/-! DEFINITION. The device scheduler (R124 to R128, R139, R187): order of the ready launches, the choice of cores and
clusters, placement, retries, restores, and pre-emption for a reserving launch. -/

namespace Sys2Proof.Machine

/-! ## Order (R124) -/

/-- Effective priority of a launch. -/
def State.prio (s : State) (l : Launch) : Nat :=
  match s.ctx? l.ctx with
  | some c => c.eff l.region 0 (·.prio)
  | none => 0

/-- An element put into a sorted list. -/
def insertBy {α : Type} (before : α → α → Bool) (x : α) : List α → List α
  | [] => [x]
  | y :: ys => if before x y then x :: y :: ys else y :: insertBy before x ys

/-- A list sorted, stable. -/
def sortBy {α : Type} (before : α → α → Bool) (xs : List α) : List α := xs.foldr (fun x acc => insertBy (fun a b => !before b a) x acc) []

/-- The launches that a pass considers: ready, running, their region open; by priority, then by parse order. -/
def State.passOrder (s : State) : List Launch :=
  sortBy (fun a b => s.prio b < s.prio a || (s.prio a == s.prio b && a.id < b.id))
    (s.sched.launches.filter (fun l => l.ready && l.status.isNone && !l.done && s.regionOpen l.ctx l.region))

/-! ## Choosing a site (R126, R127) -/

/-- Where a unit goes: its cluster, a core for each workgroup, its scratch run. -/
structure Site where
  cluster : Nat
  cores : List Nat
  run : Option (Nat × Nat)
  deriving DecidableEq, Repr

/-- Occupied group slots of a core. -/
def State.occupied (s : State) (core : Nat) : Nat := (s.coreGroups core).length

/-- The free run for a scratch size in a cluster: none where it does not fit. -/
def State.newRun (s : State) (cluster size : Nat) : Option (Option (Nat × Nat)) :=
  let want := roundUp4k size
  if want == 0 then some none else (lowestFit (s.runs cluster) 0 (2 ^ 22) want).map (fun o => some (o, want))

/-- The candidate with the smallest key, the first on a tie. -/
def firstMin {α : Type} (key : α → Nat) (xs : List α) : Option α :=
  xs.foldl (fun acc x => match acc with
    | none => some x
    | some y => if key x < key y then some x else some y) none

/-- The choices of n elements of a list in its order, the lowest first. -/
def choose {α : Type} : Nat → List α → List (List α)
  | 0, _ => [[]]
  | _ + 1, [] => []
  | n + 1, x :: xs => (choose n xs).map (x :: ·) ++ choose (n + 1) xs

/-- Whether workgroups with these needs fit on these cores, each where a test lets it go, within every budget. -/
def State.sitsOn (s : State) (c : Context) (region : Nat) (needs : List Need) (allowed : Nat → Nat → Bool) (cores : List Nat) : Bool :=
  (cores.zip needs).zipIdx.all (fun x => allowed x.2 x.1.1 && s.coreFits x.1.1 x.1.2) && s.mayPlace c region (cores.zip needs)

/-- A site in one cluster for workgroups with these needs: the lowest cores that take them all, in ascending order; the run as
given. -/
def State.siteIn (s : State) (c : Context) (region : Nat) (needs : List Need) (cluster : Nat) (allowed : Nat → Nat → Bool)
    (run : Option (Option (Nat × Nat))) : Option Site :=
  match run with
  | none => none
  | some r => ((choose needs.length ((List.range 4).map (4 * cluster + ·))).find? (s.sitsOn c region needs allowed)).map
      (fun cores => { cluster := cluster, cores := cores, run := r })

/-- The occupied group slots of a cluster. -/
def State.clusterOccupied (s : State) (cluster : Nat) : Nat := total ((List.range 4).map (fun i => s.occupied (4 * cluster + i)))

/-- The site of one unit: for one workgroup the core with the fewest occupied slots, for a cohort the cluster (R126, R127). -/
def State.bestSite (s : State) (c : Context) (region cohort : Nat) (needs : List Need) (allowed : Nat → Nat → Bool)
    (run : Nat → Option (Option (Nat × Nat))) : Option Site :=
  if cohort == 1 then
    firstMin (fun (x : Site) => s.occupied (x.cores.headD 0)) ((List.range 256).filterMap (fun core =>
      if s.sitsOn c region needs allowed [core] then
        (run (clusterOfCore core)).map (fun r => ({ cluster := clusterOfCore core, cores := [core], run := r } : Site))
      else none))
  else
    firstMin (fun (x : Site) => s.clusterOccupied x.cluster) ((List.range 64).filterMap (fun cl =>
      s.siteIn c region needs cl allowed (run cl)))

/-- The site of a new unit. -/
def State.findSite (s : State) (c : Context) (region : Nat) (k : KDesc) (count : Nat) (allowed : Nat → Bool) : Option Site :=
  s.bestSite c region k.cohort (List.replicate count k.need) (fun _ core => allowed core) (fun cl => s.newRun cl k.scratch)

/-! ## Reserving launches (R124) -/

/-- The workgroups of a launch's next unit. -/
def Launch.nextCount (l : Launch) : Nat := min l.kd.cohort (l.record.total - l.nextWg)

/-- What the workgroups of the next unit that a launch places need: those of one saved before, else those of a new one (R128). -/
def State.nextNeeds (s : State) (l : Launch) : List Need :=
  match s.sched.units.find? (fun u => u.launch == l.id && u.saved) with
  | some u => (s.unitWgs u.id).map (s.savedNeed u)
  | none => List.replicate l.nextCount l.kd.need

/-- Whether a core (for a cohort, its cluster) could take a launch's next unit once the workgroups there retire, within
the budgets of its region. -/
def State.couldTake (s : State) (l : Launch) (core : Nat) : Bool :=
  match s.ctx? l.ctx with
  | none => false
  | some c =>
    if l.kd.cohort == 1 then s.mayPlaceOn c l.region ([core].zip (s.nextNeeds l)) true (fun k => k != core)
    else s.mayPlaceOn c l.region (((List.range 4).map (4 * clusterOfCore core + ·)).zip (s.nextNeeds l)) true
      (fun k => clusterOfCore k != clusterOfCore core)

/-- Whether a launch may place on a core beside the reserving launches. -/
def State.admits (s : State) (l : Launch) (core : Nat) : Bool :=
  !s.sched.launches.any (fun r => r.reserving && r.id != l.id && r.status.isNone && !r.done && s.prio l ≤ s.prio r && s.couldTake r core)

/-! ## Placement (R126, R127, R137, R165) -/

/-- One workgroup of a new unit on its core: the lowest free tile slots, banks and group slots (log 65), groups with their spill
regions, each with an acquire at host scope before its first instruction (R126). -/
def State.placeWg (s : State) (l : Launch) (unit index core scratch : Nat) (spills : List Nat) : State :=
  let k := l.kd
  let w : Workgroup :=
    { unit := unit, index := index, core := core, tileRes := (s.freeTiles core).take k.tiles, bankRes := (s.freeBanks core).take k.banks,
      tiles := [], handles := [], regroup := none, moving := none, round := 0, started := false, hold := false }
  let gs := ((s.freeSlots core).zip spills).zipIdx.map (fun x =>
    { Group.start l k unit index x.2 core x.1.1 scratch x.1.2 s.sched.placeSeq with acquire := some 8 })
  { s with sched := { s.sched with wgs := s.sched.wgs ++ [w], groups := s.sched.groups ++ gs.take k.groups } }

/-- A new unit placed at a site, everything reserved at once. -/
def State.placeUnit (s : State) (l : Launch) (x : Site) : Option State :=
  match s.ctx? l.ctx with
  | none => none
  | some c =>
    let n := l.kd.groups
    match c.takeSave (List.replicate (n * x.cores.length) 4096) with
    | none => none
    | some (c1, spills) =>
      let id := s.sched.unitSeq
      let off := match x.run with
        | some r => r.1
        | none => 0
      let u : HUnit :=
        { id := id, launch := l.id, kdAddr := l.record.kdesc, kd := l.kd, cluster := x.cluster, scratch := x.run,
          scratchGen := s.sched.genSeq, st := .running, saved := false, wanted := false,
          wgs := (List.range x.cores.length).map (l.nextWg + ·), succRead := false, acqScope := 8, placed := s.sched.placeSeq,
          saveAt := [], scrImage := [], scrBars := [] }
      let s1 := { s.putCtx c1 with sched := { (s.putCtx c1).sched with
        unitSeq := id + 1, genSeq := s.sched.genSeq + 1, placeSeq := s.sched.placeSeq + 1, units := s.sched.units ++ [u] } }
      let s2 := x.cores.zipIdx.foldl (fun st p =>
        st.placeWg l id (l.nextWg + p.2) p.1 off ((spills.drop (n * p.2)).take n)) s1
      some (s2.putLaunch { l with nextWg := l.nextWg + x.cores.length, reserving := false, bypassed := false,
                                  cores := (l.cores ++ x.cores).eraseDups,
                                  waitSince := s.schedClock l.ctx })

/-- Units of a launch placed in ascending index for as long as a place is found; whether any was. -/
def State.placeNew (s : State) (id : Nat) : Nat → State × Bool
  | 0 => (s, false)
  | n + 1 =>
    match s.launch? id with
    | none => (s, false)
    | some l =>
      if l.record.total ≤ l.nextWg then (s, false)
      else
        match (match s.ctx? l.ctx with
          | none => none
          | some c => s.findSite c l.region l.kd l.nextCount (s.admits l)) with
        | none => (s, false)
        | some x => match s.placeUnit l x with
          | none => (s, false)
          | some s1 => ((s1.placeNew id n).1, true)

/-! ## Retries and restores (R144, R187) -/

/-- The units of a launch that wait for resources of their own: handovers and growth go on. -/
def State.retryUnits (s : State) (id : Nat) : State :=
  (s.sched.units.filter (fun u => u.launch == id && !u.saved && (u.st == .handover || u.st == .growWait))).foldl
    (fun st u => match st.unit? u.id with
      | some v => st.advanceUnit v
      | none => st) s

/-- The run that a saved unit needs in a cluster: its own at the same offset, for one saved in GROWWAIT as large as the successor
needs it (R150, R187). -/
def State.restoreRun (s : State) (u : HUnit) (cluster : Nat) : Option (Option (Nat × Nat)) :=
  match u.scratch with
  | none => if u.st == .growWait then s.newRun cluster u.kd.scratch else some none
  | some (off, len) =>
    let want := if u.st == .growWait then max len (roundUp4k u.kd.scratch) else len
    if runFree (s.runs cluster) (2 ^ 22) off want then some (some (off, want)) else none

/-- Whether a core has a saved workgroup's own slots free, which Drydown asks for (R103). -/
def State.ownSlotsFree (s : State) (u : HUnit) (w : Workgroup) (core : Nat) : Bool :=
  (s.wgGroups u.id w.index).all (fun g => (s.freeSlots core).contains g.slot)

/-- Where a saved unit may return. -/
def State.restoreSite (s : State) (u : HUnit) (l : Launch) (allowed : Nat → Bool) : Option Site :=
  match s.ctx? l.ctx with
  | none => none
  | some c =>
    let ws := s.unitWgs u.id
    let may := fun (i core : Nat) => allowed core && (!s.drydown l.ctx || (match ws[i]? with
      | some w => s.ownSlotsFree u w core
      | none => false))
    s.bestSite c l.region u.kd.cohort (ws.map (s.savedNeed u)) may (s.restoreRun u)

/-- What the restore of a unit waits for: the lines of its records, which it scrubs, and of its spill regions (R228). -/
def State.restoreGate (s : State) (u : HUnit) : Option State := (s.devGates u.saveAt).orElse (fun _ => s.spillsGate (s.unitGroups u.id))

/-- One saved unit placed again if it fits now; whether it was. -/
def State.tryRestore (s : State) (u : HUnit) (l : Launch) : State × Bool :=
  match s.restoreSite u l (s.admits l) with
  | none => (s, false)
  | some x => match s.restoreGate u with
    | some s' => (s', false)
    | none => (s.restoreUnit u l x.cluster x.cores, true)

/-- The saved units of a launch placed again where they fit; whether any was. -/
def State.restoreUnits (s : State) (id : Nat) : State × Bool :=
  (s.sched.units.filter (fun u => u.launch == id && u.saved)).foldl (fun acc u =>
    match acc.1.launch? id with
    | none => acc
    | some l =>
      let r := acc.1.tryRestore u l
      (r.1, acc.2 || r.2)) (s, false)

/-! ## Pre-emption for a reserving launch (R128) -/

/-- Whether the paused commands of a unit fit in its cluster's pause table of 256 entries (R358). -/
def State.pausesFit (s : State) (u : HUnit) : Bool :=
  (s.eng.ceCmds.filter (fun k => k.cluster == u.cluster && k.paused)).length + (s.unitCmds u.id).length ≤ 256

/-- The priority of a unit's launch. -/
def State.unitPrio (s : State) (u : HUnit) : Nat :=
  match s.launch? u.launch with
  | none => 0
  | some v => s.prio v

/-- The units that may make room for a launch: of lower priority, lowest first, then most recently placed. Those already
asked come first. -/
def State.victims (s : State) (l : Launch) : List HUnit :=
  let ok := fun (u : HUnit) => match s.launch? u.launch with
    | none => false
    | some v => s.prio v < s.prio l && !u.saved && u.st != .retiring && s.regionOpen v.ctx v.region
  sortBy (fun a b => (a.wanted && !b.wanted) ||
      (a.wanted == b.wanted && (s.unitPrio a < s.unitPrio b || (s.unitPrio a == s.unitPrio b && b.placed < a.placed))))
    (s.sched.units.filter ok)

/-- Whether the next thing that a launch must place fits: a workgroup or cohort saved before, else its next new one (R128). -/
def State.nextFits (s : State) (c : Context) (l : Launch) : Bool :=
  match s.sched.units.find? (fun u => u.launch == l.id && u.saved) with
  | some u => (s.restoreSite u l (fun _ => true)).isSome
  | none => (s.findSite c l.region l.kd l.nextCount (fun _ => true)).isSome

/-- The state with a unit off its cores, its records taken from the save area and its copies paused: what is left for others (R94,
R358). None where there is no room for that. -/
def State.without (s : State) (u : HUnit) : Option State :=
  match s.launch? u.launch with
  | none => none
  | some l => match s.ctx? l.ctx with
    | none => none
    | some c => match c.takeSave ((s.recordParts u).map List.length) with
      | none => none
      | some (c1, _) =>
        if !s.pausesFit u then none
        else
          let s1 := (((s.putCtx c1).leaveCores u).putUnit { u with saved := true })
          some { s1 with eng := { s1.eng with ceCmds := s1.eng.ceCmds.map (fun k => if k.unit == u.id then { k with paused := true } else k) } }

/-- Victims taken one after another until the launch's next unit fits; none where it never does (log 18). One whose records or
copies have no room once those before it are saved is passed over (R94). -/
def State.chooseVictims (s : State) (c : Context) (l : Launch) : List HUnit → Option (List HUnit)
  | [] => if s.nextFits c l then some [] else none
  | u :: us =>
    if s.nextFits c l then some []
    else match s.without u with
      | none => s.chooseVictims c l us
      | some t => (t.chooseVictims c l us).map (fun vs => u :: vs)

/-- Pre-emption asked for a reserving launch. -/
def State.preemptFor (s : State) (l : Launch) : State :=
  match s.ctx? l.ctx with
  | none => s
  | some c => match s.chooseVictims c l (s.victims l) with
    | none => s
    | some vs => (vs.filter (fun u => !u.wanted)).foldl (fun st u => st.requestPreempt u) s

/-! ## The pass (R124) -/

/-- The turn of one launch in a pass. `behind`: launches before it that could not place. -/
def State.passLaunch (acc : State × List Nat) (l : Launch) : State × List Nat :=
  let s1 := acc.1.retryUnits l.id
  let r := s1.restoreUnits l.id
  let waits := r.1.sched.units.any (fun u => u.launch == l.id && u.saved)
  let p := if waits then (r.1, false) else r.1.placeNew l.id (min 8192 l.record.total)
  let placed := r.2 || p.2
  let s2 := if placed then { p.1 with sched := { p.1.sched with
      launches := p.1.sched.launches.map (fun (m : Launch) => if acc.2.contains m.id then { m with bypassed := true } else m) } }
    else p.1
  match s2.launch? l.id with
  | some m => if !placed && s2.unplaced m then (s2, acc.2 ++ [l.id]) else (s2, acc.2)
  | none => (s2, acc.2)

/-- Whether a unit in HANDOVER no longer waits for copies and deliveries (R146). -/
def State.handoverFree (s : State) : Bool :=
  s.sched.units.any (fun u => u.st == .handover && !u.saved && (match s.launch? u.launch with
    | none => false
    | some l => s.regionOpen l.ctx l.region && (match l.succ? u.kd with
      | none => false
      | some k2 => !s.handoverWaits u k2)))

/-- Whether a saved unit can return: the host has given back what its restore touches, and there is a place. -/
def State.restorable (s : State) : Bool :=
  s.sched.units.any (fun u => u.saved && s.passOrder.any (fun l => l.id == u.launch && (s.restoreGate u).isNone &&
    (s.restoreSite u l (s.admits l)).isSome))

/-- SELECTION_PASS: when resources have changed, when a handover can go on, when a saved unit can return. -/
def execSelectionPass (s : State) : Host.Outcome State Fault Refusal :=
  event s "SELECTION_PASS" ((s.sched.selectDue || s.handoverFree || s.restorable) && s.mgmt.devState == .ready)
    (let s0 := { s with sched := { s.sched with selectDue := false } }
     let s1 := (s0.passOrder.foldl State.passLaunch (s0, [])).1
     (s1.sched.launches.filter (fun l => l.reserving && l.status.isNone && !l.done)).foldl (fun st l => st.preemptFor l) s1)

end Sys2Proof.Machine
end

