-- ==== Sys2Proof/Machine/Context.lean ====
section
/-! DEFINITION. Contexts (spec file 04): the command arbiter, descriptors and region tables, CREATE and DESTROY, fences
and their dumps, queue commands, fault resolution and invalidation by the host (R81 to R95, R112, R113, R209, R212,
R460). -/

namespace Sys2Proof.Machine

/-! ## Commands and status words (R85, R460) -/

/-- Fields of a command's word 0. -/
def Cmd.op (c : Cmd) : Nat := bitsAt c.w0.toNat 0 8
/-- CTX. -/
def Cmd.ctx (c : Cmd) : Nat := bitsAt c.w0.toNat 8 7
/-- ID. -/
def Cmd.idField (c : Cmd) : Nat := bitsAt c.w0.toNat 16 10
/-- SIZE. -/
def Cmd.size (c : Cmd) : Nat := bitsAt c.w0.toNat 26 4
/-- MODE. -/
def Cmd.mode (c : Cmd) : Nat := bitsAt c.w0.toNat 30 2
/-- TAG. -/
def Cmd.tag (c : Cmd) : Nat := bitsAt c.w0.toNat 32 16

/-- BAD_COMMAND (R460). -/
def Cmd.bad (c : Cmd) : Bool :=
  c.op == 0 || 11 < c.op || c.w0.getLsbD 15 || bitsAt c.w0.toNat 48 16 != 0 || ((c.op == 10 || c.op == 11) && 2 ≤ c.mode) ||
  (c.op == 11 && c.mode == 0 && 12 ≤ c.size)

/-- STATBASE of a port. -/
def State.statBase (s : State) (port : Nat) : Nat :=
  match s.mgmt.ports.find? (fun p => p.id == port) with
  | some p => p.statBase
  | none => 0

/-- A status word written into the memory of a port's host, unless its link is out of service. -/
def State.reply (s : State) (dest : Nat × Nat) (value : Nat) : State :=
  if s.linkDead (0x300 + dest.1) then s else s.serveAt (.host dest.1 (s.statBase dest.1 + 8 * dest.2)) (leBytes 8 value)

/-- The command at the head of the arbiter taken off. -/
def State.popCmd (s : State) : State := { s with mgmt := { s.mgmt with cmds := s.mgmt.cmds.tail } }

/-- CTXCMD_SUBMIT: the write of word 0 (R460). A full queue of 64 drops the command; a bad one is answered at once. -/
def execCtxcmdSubmit (port : Nat) (word : BitVec 64) (s : State) : Host.Outcome State Fault Refusal :=
  eventOf s "CTXCMD_SUBMIT"
    (if s.mgmt.devState == .ready then s.mgmt.ports.find? (fun p => p.id == port) else none)
    (fun p =>
      let c : Cmd := { port := port, w0 := word, w1 := p.cmdW1 }
      if 64 ≤ (s.mgmt.cmds.filter (fun k => k.port == port)).length then
        { s with mgmt := { s.mgmt with ports := s.mgmt.ports.map (fun q => if q.id == port then { q with cmdOvf := true } else q) } }
      else if c.bad then s.reply (port, c.tag) 6
      else { s with mgmt := { s.mgmt with cmds := s.mgmt.cmds ++ [c] } })

/-- The command at the head of the arbiter, if it has an operation code. -/
def State.headCmd (s : State) (op : Nat) : Option Cmd :=
  match (if s.mgmt.devState == .ready then s.mgmt.cmds.head? else none) with
  | some c => if c.op == op then some c else none
  | none => none

/-- A command of an operation carried out whole, once what its accesses meet is over: until then the arbiter waits. -/
def State.command (s : State) (name : String) (op : Nat) (gate : Cmd → Option State) (next : Cmd → State) :
    Host.Outcome State Fault Refusal :=
  eventOf s name (match s.headCmd op with
    | none => none
    | some c => s.afterGate (gate c) (some (next c))) (fun t => t)

/-- A command answered and done. -/
def State.answer (s : State) (c : Cmd) (value : Nat) : State := s.popCmd.reply (c.port, c.tag) value

/-- BAD_STATE. -/
def State.badState (s : State) (c : Cmd) : State := s.answer c 3

/-- The context that a command names, if it is LIVE or FENCED and was created through the command's port (R85, R86). -/
def State.cmdCtx (s : State) (c : Cmd) : Option Context :=
  match s.ctx? c.ctx with
  | none => none
  | some x => if x.port == c.port && x.st != .draining then some x else none

/-- The queue that a command names, if its context was created through the command's port. -/
def State.cmdQueue (s : State) (c : Cmd) : Option Queue :=
  match s.queue? c.idField with
  | none => none
  | some q => match s.ctx? q.ctx with
    | none => none
    | some x => if x.port == c.port && q.st != .draining then some q else none

/-! ## The region table (R87, R88) -/

/-- The bytes of a region control block in device memory. -/
def State.rcbBytes (s : State) (rtab r : Nat) : List Byte := s.devRead (rtab + 64 * r) 64

/-- A region as its block describes it. -/
def regionOf (id : Nat) (b : List Byte) (st : RState) (root : Nat) : Region :=
  let w := wordAt b 0
  let v := wordAt b 1
  { id := id, fdroot := id == 0 || w.testBit 1, prio := bitsAt w 2 3, level := bitsAt w 5 2, parent := bitsAt w 8 8,
    ovr := BitVec.ofNat 6 (bitsAt w 16 6), cores := bitsAt v 0 9, vregKib := bitsAt v 16 18, banks := bitsAt v 34 17,
    tiles := bitsAt v 51 13, lshare := bitsAt (wordAt b 2) 0 8, st := st, fenceRoot := root }

/-- VALID of a block. -/
def rcbValid (b : List Byte) : Bool := (wordAt b 0).testBit 0

/-- Whether a valid block breaks R87. -/
def rcbBad (id : Nat) (b : List Byte) : Bool :=
  let w := wordAt b 0
  let v := wordAt b 1
  w.testBit 7 || bitsAt w 22 42 != 0 || bitsAt v 9 7 != 0 || 256 < bitsAt v 0 9 || 131072 < bitsAt v 16 18 ||
  65536 < bitsAt v 34 17 || 4096 < bitsAt v 51 13 || bitsAt (wordAt b 2) 8 56 != 0 ||
  (List.range 4).any (fun i => wordAt b (4 + i) != 0) || ((bitsAt w 5 2 == 0) != (id == 0))

/-- Whether the regions form a tree: every one but region 0 has a valid parent one level above (R88). -/
def treeOk (rs : List Region) : Bool :=
  rs.any (fun r => r.id == 0) && rs.all (fun r => r.id == 0 || rs.any (fun p => p.id == r.parent && p.level + 1 == r.level))

/-- The valid regions of a table; none where one breaks R87 or R88. -/
def State.loadRegions (s : State) (rtab : Nat) : Option (List Region) :=
  let valid := (List.range 256).filter (fun i => rcbValid (s.rcbBytes rtab i))
  if valid.any (fun i => rcbBad i (s.rcbBytes rtab i)) then none
  else
    let rs := valid.map (fun i => regionOf i (s.rcbBytes rtab i) .opened 0)
    if treeOk rs then some rs else none

/-- The device's word of a region control block: FENCED, DUMPDONE, FENCEROOT. -/
def State.markRegions (s : State) (c : Context) (ids : List Nat) (word : Nat) : State :=
  ids.foldl (fun st r => st.serveWrite (c.rtab + 64 * r + 24) (leBytes 8 word)) s

/-- Those words, as ranges of memory. -/
def Context.regionWords (c : Context) (ids : List Nat) : List (Nat × Nat) := ids.map (fun r => (c.rtab + 64 * r + 24, 8))

/-! ## CREATE (R81 to R86) -/

/-- Whether a 52-bit address aligned to 4 KiB stands in a word. -/
def frame52 (x : Nat) : Bool := x % 4096 == 0 && x < 2 ^ 52

/-- Whether CMODE breaks R82. -/
def cmodeBad (x : Nat) : Bool :=
  let h := bitsAt x 4 6
  2 ^ 10 ≤ x || (1 ≤ h && h ≤ 15) || (41 ≤ h && h ≤ 62) || ((x.testBit 1 || x.testBit 2) && !x.testBit 0) || (x.testBit 1 && x.testBit 2)

/-- Whether a context descriptor's own fields break R81 to R83. -/
def descriptorBad (b : List Byte) : Bool :=
  let w := wordAt b
  let log := (w 1).testBit 1 || (w 1).testBit 2
  !frame52 (w 0) || cmodeBad (w 1) || !frame52 (w 2) || !frame52 (w 3) || w 4 % 4096 != 0 || w 4 < 65536 || 2 ^ 40 < w 4 ||
  !frame52 (w 5) || w 6 < 6 || 16 < w 6 || bad57 (w 7) || w 7 % 2 == 1 || !frame52 (w 8) || !frame52 (w 9) || w 10 % 4096 != 0 ||
  (if log then w 9 == 0 || w 10 < 4096 else w 9 != 0 || w 10 != 0) || (List.range 21).any (fun i => w (11 + i) != 0)

/-- A context as its descriptor describes it. -/
def contextOf (id port : Nat) (b : List Byte) (rs : List Region) (logged : Nat) : Context :=
  let w := wordAt b
  { id := id, port := port, st := .live, ptroot := w 0, cmode := BitVec.ofNat 10 (w 1), rtab := w 2, saveBase := w 3, saveSize := w 4,
    fqBase := w 5, fqLog := w 6, handler := w 7, hangRpt := w 8, ddLog := w 9, ddLogSize := w 10, regions := rs, fences := [],
    saveUsed := [], fqProd := 0, fqCons := 0, fqHeld := [], hang := 0, ddCount := logged, ddUsed := [], ddDiv := 0,
    ddLost := false, events := [], drainReply := none }

/-- What CREATE writes: PROD and CONS, and the Drydown log's header (R95, R102). -/
def State.initContext (s : State) (c : Context) : State :=
  let s1 := s.serveWrite c.fqBase (List.replicate 16 0)
  if c.cmode.getLsbD 1 then s1.serveWrite c.ddLog (List.replicate 64 0)
  else if c.cmode.getLsbD 2 then s1.serveWrite (c.ddLog + 8) (List.replicate 56 0)
  else s1

/-- What CREATE waits for: its descriptor, then the region table, PROD and CONS and the log's header that it names. -/
def State.createGate (s : State) (c : Cmd) : Option State :=
  let w := wordAt (s.devRead c.w1.toNat 256)
  (s.devGate c.w1.toNat 256).orElse (fun _ => if descriptorBad (s.devRead c.w1.toNat 256) then none
    else s.devGates [(w 2, 16384), (w 5, 16), (w 9, if w 9 == 0 then 0 else 64)])

/-- CREATE. Of the free context ids it takes the lowest (log 53). -/
def execCreate (s : State) : Host.Outcome State Fault Refusal :=
  s.command "CREATE" 1 s.createGate fun c =>
    match (List.range 128).find? (fun i => (s.ctx? i).isNone) with
    | none => s.answer c 1
    | some id =>
      let a := c.w1.toNat
      let b := s.devRead a 256
      if devLimit < a + 256 || descriptorBad b then s.answer c 2
      else
        match s.loadRegions (wordAt b 2) with
        | none => s.answer c 2
        | some rs =>
          let x := contextOf id c.port b rs (if (wordAt b 1).testBit 2 then s.devLE (wordAt b 9) 8 else 0)
          let s1 := { s with sched := { s.sched with ctxs := s.sched.ctxs ++ [x] } }
          (s1.initContext x).answer c (id * 2 ^ 16)

/-! ## DESTROY (R86) -/

/-- The launches of a context end with CANCELLED, their groups killed. -/
def State.cancelLaunches (s : State) (ctx : Nat) : State :=
  let ids := (s.sched.launches.filter (fun l => l.ctx == ctx)).map (·.id)
  let s1 := ids.foldl (fun st i => st.killLaunch i) s
  { s1 with sched := { s1.sched with launches := (s1.sched.launches.filter (fun (l : Launch) => !(l.ctx == ctx && l.done))).map (fun (l : Launch) =>
      if l.ctx == ctx && l.status.isNone then { l with status := some 4 } else l) } }

/-- The context's remote transfers and collectives end; a collective that has fired is aborted first (R403). -/
def State.cancelEngines (s : State) (ctx : Nat) : State :=
  { s with eng := { s.eng with
      feCmds := s.eng.feCmds.filter (fun k => k.ctx != ctx),
      ceCmds := s.eng.ceCmds.filter (fun k => k.ctx != ctx),
      counts := s.eng.counts.filter (fun m => !(s.eng.ceCmds.any (fun k => k.ctx == ctx && k.id == m.src) ||
        s.eng.feCmds.any (fun k => k.ctx == ctx && k.id == m.src))),
      ctt := s.eng.ctt.filter (fun e => e.ctx != ctx) } }

/-- The pending fault entries of a context become FREE, and groups of other contexts that wait without an entry on those base
dies issue again (R207). -/
def State.freeFaults (s : State) (ctx : Nat) : State :=
  (s.ms.pfes.filter (fun p => p.pending && p.ctx == ctx)).foldl (fun st p => (st.putPfe { p with pending := false }).entryFreed p false) s

/-- The queues of a context. -/
def State.ctxQueues (s : State) (ctx : Nat) : List Queue := s.sched.queues.filter (fun q => q.ctx == ctx)

/-- A context starts to drain. A FENCE command that still waits completes with BAD_STATE (log 20). -/
def State.drain (s : State) (x : Context) (reply : Option (Nat × Nat)) : State :=
  let qs := s.ctxQueues x.id
  let s1 := qs.foldl (fun st q => st.cancelUnparsed q) s
  let s2 := qs.foldl (fun st q => match st.queue? q.id with
    | some v => st.syncQueue { v with st := .draining }
    | none => st) s1
  let s3 := ((s2.cancelLaunches x.id).cancelEngines x.id).freeFaults x.id
  let s4 := (x.fences.flatMap (·.replies)).foldl (fun st r => st.reply r 3) s3
  s4.mapCtx x.id (fun y => { y with st := .draining, fences := [], fqHeld := [], events := [], drainReply := reply })

/-- What DESTROY waits for: the rings of the context's queues. -/
def State.destroyGate (s : State) (c : Cmd) : Option State :=
  match s.cmdCtx c with
  | none => none
  | some x => (s.ctxQueues x.id).findSome? s.cancelGate

/-- DESTROY. -/
def execDestroy (s : State) : Host.Outcome State Fault Refusal :=
  s.command "DESTROY" 2 s.destroyGate fun c =>
    match s.cmdCtx c with
    | none => s.badState c
    | some x => s.popCmd.drain x (some (c.port, c.tag))

/-- Whether nothing of a draining context is left. -/
def State.drained (s : State) (ctx : Nat) : Bool :=
  !s.sched.launches.any (fun l => l.ctx == ctx) && !s.sched.groups.any (fun g => s.anyCtx g == some ctx) &&
    !s.eng.ceCmds.any (fun k => k.ctx == ctx) && !s.eng.feCmds.any (fun k => k.ctx == ctx)

/-- The queues of a context become UNBOUND and say so in their headers, its translations go, its id is free, the status is
written. -/
def State.freeContext (s : State) (x : Context) : State :=
  let s0 := (s.ctxQueues x.id).foldl (fun st q => (st.vwrite x.id (q.qbase + 24) (leBytes 8 0)).getD st) s
  let s1 := s0.dropTranslations x.id .all
  let s2 := { s1 with sched := { s1.sched with ctxs := s1.sched.ctxs.filter (fun (y : Context) => y.id != x.id),
                                               queues := s1.sched.queues.filter (fun (q : Queue) => q.ctx != x.id) } }
  match x.drainReply with
  | some r => s2.reply r 0
  | none => s2

/-- CONTEXT_DRAIN_COMPLETE. -/
def execContextDrainComplete (ctx : Nat) (s : State) : Host.Outcome State Fault Refusal :=
  eventOf s "CONTEXT_DRAIN_COMPLETE"
    (match s.ctx? ctx with
     | none => none
     | some x =>
       if x.st == .draining && s.drained ctx then
         s.gated ctx ((s.ctxQueues ctx).map (fun q => (q.qbase + 24, 8, Access.write))) (some (s.freeContext x))
       else none)
    (fun s' => s')

/-! ## FENCE and RESUME (R91 to R93, R456) -/

/-- The fence in progress that contains a subtree. -/
def Context.enclosing (c : Context) (root : Nat) : Option FenceOp := c.fences.find? (fun f => c.inSubtree f.root root)

/-- FENCE: answered once the fence, or the one that contains it, has reached FENCED. -/
def execFence (s : State) : Host.Outcome State Fault Refusal :=
  s.command "FENCE" 3 (fun _ => none) fun c =>
    match s.cmdCtx c with
    | none => s.badState c
    | some x =>
      let r := c.idField
      if (x.region? r).isNone then s.badState c
      else
        match x.enclosing r with
        | some f => s.popCmd.putCtx { x with fences := x.fences.map (fun g =>
            if g.root == f.root then { g with replies := g.replies ++ [(c.port, c.tag)] } else g) }
        | none =>
          if x.fenceContains r then s.answer c 0
          else (s.popCmd.logRegion 4 9 x.id r false 0).startFence x.id r false (some (c.port, c.tag))

/-- The groups of a subtree. -/
def State.regionGroups (s : State) (c : Context) (root : Nat) : List Group :=
  s.sched.groups.filter (fun g => !g.isGhost && g.core < 256 && s.unitIn c root g.unit)

/-- The launches of a subtree that have begun. -/
def State.runningLaunches (s : State) (c : Context) (root : Nat) : List Launch :=
  s.sched.launches.filter (fun l => l.ctx == c.id && c.inSubtree root l.region && !l.done && 0 < l.nextWg)

/-- The queues of a subtree write their state into their headers. -/
def State.syncQueues (s : State) (c : Context) (root : Nat) : State :=
  (s.sched.queues.filter (fun q => q.ctx == c.id && c.inSubtree root q.region)).foldl (fun st q => match st.queue? q.id with
    | some v => st.syncQueue v
    | none => st) s

/-- What that waits for. -/
def State.headersGate (s : State) (c : Context) (root : Nat) : Option State :=
  s.vgate c.id ((s.sched.queues.filter (fun q => q.ctx == c.id && c.inSubtree root q.region)).map (fun q => (q.qbase + 8, 24, Access.write)))

/-- The regions of a subtree in a state take another. -/
def Context.setRegions (c : Context) (root : Nat) (f : Region → Region) : Context :=
  { c with regions := c.regions.map (fun r => if c.inSubtree root r.id then f r else r) }

/-- Whether nothing of a subtree is under way: its groups' accesses, their queue entries, what its ended groups have sent. -/
def State.subtreeQuiet (s : State) (c : Context) (root : Nat) : Bool :=
  (s.regionGroups c root).all (fun g => g.drained && g.blocked.isNone && !s.queued g) &&
    !s.sched.groups.any (fun g => (s.runningLaunches c root).any (fun l => g.busyGhost l.id))

/-- The dump of a fence begins. -/
def State.startDump (s : State) (c : Context) (root : Nat) : State :=
  let c1 := c.setRegions root (fun r => if r.st == .fencing then { r with st := .dumping } else r)
  (s.putCtx { c1 with fences := c1.fences.map (fun f => if f.root == root then { f with st := .dumping } else f) }).syncQueues c root

/-- FENCE_OUTSTANDING_COMPLETE: loads, stores and atomics of the subtree have completed; the dump begins. -/
def execFenceOutstandingComplete (ctx region : Nat) (s : State) : Host.Outcome State Fault Refusal :=
  eventOf s "FENCE_OUTSTANDING_COMPLETE"
    (match s.ctx? ctx with
     | none => none
     | some c => match c.fences.find? (fun f => f.root == region) with
       | none => none
       | some f =>
         if f.st == .fencing && s.subtreeQuiet c region then s.afterGate (s.headersGate c region) (some (s.startDump c region)) else none)
    (fun s' => s')

/-- The groups to dump in ascending core number and then slot number. -/
def State.dumpOrder (s : State) (c : Context) (root : Nat) : List Group :=
  sortBy (fun a b => a.core < b.core || (a.core == b.core && a.slot < b.slot)) (s.regionGroups c root)

/-- One group's records in a dump: its workgroup's header before the workgroup's first, and its stack's on-chip entries in its spill
region (R190). The first part of the accumulator
says whether the save area still holds records, the last which workgroups have their header. -/
def State.dumpGroup (ctx : Nat) (acc : Bool × State × List (Nat × Nat)) (g : Group) : Bool × State × List (Nat × Nat) :=
  let s := acc.2.1
  match (if acc.1 then s.unit? g.unit else none), s.wg? g.unit g.wg with
  | some u, some w =>
    let first := !acc.2.2.contains (g.unit, g.wg)
    let parts := (if first then [s.wgRecord u w (s.wgGroups u.id w.index).length] else []) ++ [s.groupRecord g u w]
    match s.writeParts ctx parts with
    | none => (false, s, acc.2.2)
    | some (s1, pieces) => (true, (s1.putUnit { u with saveAt := u.saveAt ++ pieces }).writeStacks [g], acc.2.2 ++ [(g.unit, g.wg)])
  | _, _ => acc

/-- The dump of a subtree: whether it is whole, and the state with its records. It holds every group that stands in the subtree,
those that the fence of a smaller subtree has dumped before among them (log 54). -/
def State.dump (s : State) (c : Context) (root : Nat) : Bool × State :=
  let d := (s.dumpOrder c root).foldl (State.dumpGroup c.id) (true, s, [])
  (d.1, d.2.1)

/-- What a dump waits for: the lines to which the partials of its launches' cores go, the spill regions, the pieces of the save
area that it writes and the words of the control blocks. -/
def State.dumpGate (s : State) (c : Context) (root : Nat) : Option State :=
  (((s.runningLaunches c root).flatMap (·.cores)).findSome? (fun k => s.releaseGate k 8)).orElse fun _ =>
  (s.spillsGate (s.regionGroups c root)).orElse fun _ =>
  let pieces := match (s.dump c root).2.ctx? c.id with
    | some y => y.saveUsed.filter (fun p => !c.saveUsed.contains p)
    | none => []
  s.devGates (pieces ++ c.regionWords ((c.regions.filter (fun r => c.inSubtree root r.id)).map (·.id)))

/-- A fence reaches FENCED: the dump is written, cut short where the save area is full; running launches of the subtree
complete with REGION_FENCED; the control blocks say so; the commands that waited are answered. -/
def State.finishFence (s : State) (c : Context) (region : Nat) : State :=
  let d := s.dump c region
  let s1 := (s.runningLaunches c region).foldl (fun st l => st.completeLaunch { l with status := some (l.status.getD 3) }) d.2
  let inside := (c.regions.filter (fun r => c.inSubtree region r.id)).map (·.id)
  let s2 := s1.markRegions c inside (3 + region * 256)
  let s3 := s2.mapCtx c.id (fun y =>
    let y1 := y.setRegions region (fun r => { r with st := .fenced, fenceRoot := region })
    { y1 with fences := y1.fences.filter (fun f => !y.inSubtree region f.root) })
  let s4 := s3.logRegion 4 10 c.id region (!d.1) 0
  ((c.fences.filter (fun f => c.inSubtree region f.root)).flatMap (·.replies)).foldl (fun st r => st.reply r 0) s4

/-- The dump that a FATAL device attempts for a context, once: the records of every resident group, DUMPDONE in the control blocks, the
record of kind 10; no launch completes and no status word is written (R454, R456; log 11). -/
def State.fatalDump (s : State) (c : Context) : Option State :=
  if c.regions.all (fun r => r.st == .fenced && r.fenceRoot == 0) || (s.dumpGate c 0).isSome then none
  else
    let d := s.dump c 0
    let s1 := (d.2.markRegions c (c.regions.map (·.id)) 3).mapCtx c.id (fun y => y.setRegions 0 (fun r => { r with st := .fenced, fenceRoot := 0 }))
    some (s1.logRegion 4 10 c.id 0 (!d.1) 0)

/-- A fence of a subtree whose dump is due: taken once the remote transfers of the launches that it completes are over too (R122). -/
def State.fenceDump (s : State) (c : Context) (region : Nat) : Option State :=
  match c.fences.find? (fun f => f.root == region) with
  | none => none
  | some f =>
    let ls := s.runningLaunches c region
    if f.st == .dumping && !ls.any (fun l => s.launchBusy l.id) then
      s.gated c.id (ls.flatMap s.completionReach) (s.afterGate (s.dumpGate c region) (some (s.finishFence c region)))
    else none

/-- FENCE_DUMP_COMPLETE: of a fence, or of the attempt of a FATAL device, which is the whole context's (region 0). -/
def execFenceDumpComplete (ctx region : Nat) (s : State) : Host.Outcome State Fault Refusal :=
  match (s.ctx? ctx).bind (fun c =>
      if s.mgmt.devState == .fatal then (if region == 0 then s.fatalDump c else none) else s.fenceDump c region) with
  | some t => .next t
  | none => .refused (.eventNotEnabled "FENCE_DUMP_COMPLETE")

/-- RESUME of a subtree: its dumped groups are killed and scrubbed, its regions and queues go on. FENCED and DUMPDONE are cleared,
FENCEROOT stays. -/
def State.resume (s : State) (x : Context) (r : Nat) : State :=
  let us := s.sched.units.filter (fun u => s.unitIn x r u.id)
  let s1 := us.foldl (fun st u => st.killUnit u) s
  let s2 := { s1 with sched := { s1.sched with
    selectDue := true,
    launches := s1.sched.launches.filter (fun (l : Launch) => !(l.done && l.ctx == x.id && x.inSubtree r l.region)),
    queues := s1.sched.queues.map (fun (q : Queue) => if q.ctx == x.id && x.inSubtree r q.region && q.st == QState.held then
      { q with st := q.heldFrom } else q) } }
  let inside := (x.regions.filter (fun k => x.inSubtree r k.id)).map (·.id)
  let s3 := (s2.markRegions x inside (r * 256)).mapCtx x.id (fun y =>
    let y1 := y.setRegions r (fun k => { k with st := .opened })
    { y1 with st := if r == 0 then .live else y1.st })
  s3.syncQueues x r

/-- The region that a RESUME reopens: the root of a fence that is over and that no larger one contains. -/
def State.resumable (s : State) (c : Cmd) : Option (Context × Nat) :=
  match s.cmdCtx c with
  | none => none
  | some x => match x.region? c.idField with
    | none => none
    | some r => if r.st != .fenced || r.fenceRoot != r.id || (x.enclosing r.id).isSome then none else some (x, r.id)

/-- What RESUME waits for: the words of the control blocks and the headers of the queues. -/
def State.resumeGate (s : State) (c : Cmd) : Option State :=
  match s.resumable c with
  | none => none
  | some (x, r) => (s.devGates (x.regionWords ((x.regions.filter (fun k => x.inSubtree r k.id)).map (·.id)))).orElse
      (fun _ => s.headersGate x r)

/-- RESUME. -/
def execResume (s : State) : Host.Outcome State Fault Refusal :=
  s.command "RESUME" 4 s.resumeGate fun c =>
    match s.resumable c with
    | none => s.badState c
    | some (x, r) => (s.resume x r).answer c 0

/-! ## RUPDATE (R88, R90) -/

/-- The regions after one block is read again. -/
def Context.withRegion (x : Context) (id : Nat) (b : List Byte) : List Region :=
  match x.region? id with
  | some old => x.regions.map (fun r => if r.id == id then regionOf id b old.st old.fenceRoot else r)
  | none =>
    let parent := x.region? (bitsAt (wordAt b 0) 8 8)
    let st := match parent with
      | some p => p.st
      | none => .opened
    let root := match parent with
      | some p => p.fenceRoot
      | none => 0
    x.regions ++ [regionOf id b st root]

/-- The block of the region that an RUPDATE names, as a range of memory. -/
def State.rupdateGate (s : State) (c : Cmd) : Option State :=
  match s.cmdCtx c with
  | none => none
  | some x => if 256 ≤ c.idField then none else s.devGate (x.rtab + 64 * c.idField) 64

/-- RUPDATE. A region that is not valid and whose block is not valid either stays as it is, with status OK (log 55). -/
def execRupdate (s : State) : Host.Outcome State Fault Refusal :=
  s.command "RUPDATE" 5 s.rupdateGate fun c =>
    match s.cmdCtx c with
    | none => s.badState c
    | some x =>
      let id := c.idField
      let b := s.rcbBytes x.rtab id
      let s1 := { s with sched := { s.sched with selectDue := true } }
      if 256 ≤ id then s.badState c
      else if !rcbValid b then
        (if (x.region? id).isNone then s.answer c 0
         else if x.regions.any (fun r => r.id != 0 && r.parent == id) || s.sched.queues.any (fun q => q.ctx == x.id && q.region == id) then
           s.badState c
         else if id == 0 then s.answer c 2
         else (s1.putCtx { x with regions := x.regions.filter (fun r => r.id != id) }).answer c 0)
      else if rcbBad id b || !treeOk (x.withRegion id b) then s.answer c 2
      else (s1.putCtx { x with regions := x.withRegion id b }).answer c 0

/-! ## Queue commands (R112, R113, R116) -/

/-- Whether a queue descriptor breaks R112. -/
def queueDescBad (x : Context) (b : List Byte) : Bool :=
  let w := wordAt b
  bad57 (w 0) || w 0 % 4096 != 0 || bitsAt (w 1) 0 5 < 4 || 16 < bitsAt (w 1) 0 5 || (w 1).testBit 7 || bitsAt (w 1) 16 48 != 0 ||
  w 2 != 0 || w 3 != 0 || (x.region? (bitsAt (w 1) 8 8)).isNone

/-- A queue as its descriptor describes it: ACTIVE from the start (R116). -/
def queueOf (id : Nat) (x : Context) (b : List Byte) (now : Nat) : Queue :=
  { id := id, ctx := x.id, qbase := wordAt b 0, qlog := bitsAt (wordAt b 1) 0 5, producer := (wordAt b 1).testBit 5,
    stopOnErr := (wordAt b 1).testBit 6, region := bitsAt (wordAt b 1) 8 8, st := .active, heldFrom := .active, err := 0, wptr := 0,
    parsed := 0, retired := 0, doneIdx := [], doorbell := false, polled := now }

/-- What QBIND waits for: its descriptor, then the header of the ring that it names. -/
def State.qbindGate (s : State) (c : Cmd) : Option State :=
  match s.cmdCtx c with
  | none => none
  | some x => (s.devGate c.w1.toNat 32).orElse (fun _ => s.vgate x.id [(wordAt (s.devRead c.w1.toNat 32) 0, 32, .write)])

/-- QBIND. A bad descriptor is answered before the lack of an id (log 56); of the free ids it takes the lowest (log 53). -/
def execQbind (s : State) : Host.Outcome State Fault Refusal :=
  s.command "QBIND" 6 s.qbindGate fun c =>
    match s.cmdCtx c with
    | none => s.badState c
    | some x =>
      let a := c.w1.toNat
      if a % 32 != 0 || devLimit < a + 32 || queueDescBad x (s.devRead a 32) then s.answer c 2
      else
        match (List.range 1024).find? (fun i => (s.queue? i).isNone) with
        | none => s.answer c 4
        | some id =>
          let q := queueOf id x (s.devRead a 32) (s.schedClock x.id)
          let s1 := { s with sched := { s.sched with queues := s.sched.queues ++ [q] } }
          (((s1.vwrite x.id q.qbase (List.replicate 8 0)).getD s1).syncQueue q).answer c (id * 2 ^ 16)

/-- What a command waits for that works on the header of the queue that it names. -/
def State.headerGate (s : State) (c : Cmd) : Option State :=
  match s.cmdQueue c with
  | none => none
  | some q => s.vgate q.ctx [(q.qbase, 8, .read), (q.qbase + 8, 24, .write)]

/-- QUNBIND. -/
def execQunbind (s : State) : Host.Outcome State Fault Refusal :=
  s.command "QUNBIND" 7 s.headerGate fun c =>
    match s.cmdQueue c with
    | none => s.badState c
    | some q =>
      if q.st == .held || s.readWptr q != q.parsed || q.parsed != q.retired then s.badState c
      else
        let s1 := (s.vwrite q.ctx (q.qbase + 24) (leBytes 8 0)).getD s
        ({ s1 with sched := { s1.sched with queues := s1.sched.queues.filter (fun (p : Queue) => p.id != q.id) } } : State).answer c 0

/-- QSTART. -/
def execQstart (s : State) : Host.Outcome State Fault Refusal :=
  s.command "QSTART" 8 s.headerGate fun c =>
    match s.cmdQueue c with
    | none => s.badState c
    | some q => if q.st == .stopped then (s.syncQueue { q with st := .active, err := 0 }).answer c 0 else s.badState c

/-- The launches of a queue that a cancellation completes, once its unparsed records are in the table. -/
def State.cancelDue (s : State) (q : Queue) : List Launch :=
  s.sched.launches.filter (fun l => l.queue == q.id && !l.done && (l.notStarted || l.status == some 4))

/-- The launches of a queue that have not started complete with CANCELLED, one after another in index order. -/
def State.cancelQueue (s : State) (q : Queue) : State :=
  let s1 := s.cancelUnparsed q
  ((s1.cancelDue q).map (·.id)).foldl (fun st i => match st.launch? i with
    | some l => st.completeLaunch { l with status := some 4 }
    | none => st) s1

/-- What QCANCEL waits for: the ring, then what the completions access. -/
def State.qcancelGate (s : State) (c : Cmd) : Option State :=
  match s.cmdQueue c with
  | none => none
  | some q => (s.cancelGate q).orElse (fun _ => s.vgate q.ctx (((s.cancelUnparsed q).cancelDue q).flatMap s.completionReach))

/-- QCANCEL. -/
def execQcancel (s : State) : Host.Outcome State Fault Refusal :=
  s.command "QCANCEL" 9 s.qcancelGate fun c =>
    match s.cmdQueue c with
    | none => s.badState c
    | some q => (s.cancelQueue q).answer c 0

/-! ## FRESOLVE and TLBINV (R209, R212) -/

/-- The fault entry that an FRESOLVE resolves: one of the context that it names. -/
def State.fresolves (s : State) (c : Cmd) : Option Pfe :=
  match s.cmdCtx c with
  | none => none
  | some x => match s.tokenEntry c.w1.toNat with
    | none => none
    | some p => if p.ctx == x.id then some p else none

/-- A resolution FAIL waits for the queue entries of the groups that it makes trap (R176). -/
def State.fresolveGate (s : State) (c : Cmd) : Option State :=
  match s.fresolves c with
  | none => none
  | some p => if c.mode != 0 && s.failWaits p then some s else none

/-- FRESOLVE. -/
def execFresolve (s : State) : Host.Outcome State Fault Refusal :=
  s.command "FRESOLVE" 10 s.fresolveGate fun c =>
    if (s.cmdCtx c).isNone then s.badState c
    else match s.fresolves c with
      | none => s.answer c 5
      | some p => (if c.mode == 0 then s.resolveRetry p else s.resolveFail p).answer c 0

/-- The oldest TLBINV command in progress whose accesses are over. -/
def State.invalDone (s : State) : Option Cmd := s.mgmt.invals.find? (fun c => s.ctxQuiet c.ctx)

/-- TLBINV_COMMAND: a command drops its translations at once and makes room in the arbiter; each is answered on its own, once every
access of its context is done (R211, R212). -/
def execTlbinvCommand (s : State) : Host.Outcome State Fault Refusal :=
  eventOf s "TLBINV_COMMAND"
    (match s.headCmd 11 with
     | some c => some (match s.cmdCtx c with
       | none => s.badState c
       | some x =>
         let s1 := s.popCmd.dropTranslations x.id (if c.mode == 0 then alignedRange c.w1.toNat c.size else .all)
         { s1 with mgmt := { s1.mgmt with invals := s1.mgmt.invals ++ [c] } })
     | none => s.invalDone.bind (fun c =>
         let s1 := s.flushPartials
         s.afterGate s.flushGate (some (({ s1 with mgmt := { s1.mgmt with invals := s1.mgmt.invals.erase c } } : State).reply (c.port, c.tag) 0))))
    (fun s' => s')

/-! ## The fault queue (R95) -/

/-- Held records written while there is room and no host holds the bytes that they go to. -/
def State.pushHeld (s : State) (ctx : Nat) : Nat → State
  | 0 => s
  | n + 1 =>
    match s.ctx? ctx with
    | none => s
    | some c => match c.fqHeld with
      | [] => s
      | r :: rs =>
        if c.fqFull then s
        else match s.fqGate c with
          | some s1 => s1
          | none => ((s.putCtx { c with fqHeld := rs }).pushFault { c with fqHeld := rs } r).pushHeld ctx n

/-- CONS read again and held records written. -/
def State.pollCons (s : State) (c : Context) : State :=
  (s.putCtx { c with fqCons := s.devLE (c.fqBase + 8) 8 }).pushHeld c.id c.fqHeld.length

/-- FAULT_QUEUE_CONS_POLL: CONS read again while records are held. -/
def execFaultQueueConsPoll (ctx : Nat) (s : State) : Host.Outcome State Fault Refusal :=
  eventOf s "FAULT_QUEUE_CONS_POLL"
    (match s.ctx? ctx with
     | none => none
     | some c => if c.fqHeld.isEmpty then none else s.afterGate (s.devGate (c.fqBase + 8) 8) (some (s.pollCons c)))
    (fun s' => s')

end Sys2Proof.Machine
end

