-- ==== Sys2Proof/Machine/Waits.lean ====
section
/-! DEFINITION. Regrouping (R191 to R194), the hang detector (R96 to R98) and the round boundaries of Drydown mode (R99
to R103). -/

namespace Sys2Proof.Machine

/-! ## Regrouping (R192 to R194) -/

/-- The groups of a workgroup in ascending index. -/
def State.wgOrder (s : State) (u w : Nat) : List Group :=
  (List.range 16).filterMap (fun i => (s.wgGroups u w).find? (fun g => g.gi == i))

/-- The key of a member slot. -/
def keyOf (gs : List Group) (m i : Nat) : Nat :=
  match gs[i / m]? with
  | some g => g.keys.toNat / 2 ^ (8 * (i % m)) % 256
  | none => 0

/-- Slots 0 to n − 1 stably sorted by key. -/
def slotOrder (gs : List Group) (m n : Nat) : List Nat := sortBy (fun a b => decide (keyOf gs m a < keyOf gs m b)) (List.range n)

/-- The lanes of a register in a member slot. -/
def slotLanes (gs : List Group) (m r i : Nat) : List Word32 :=
  match gs[i / m]? with
  | some g => (((g.vregs.getD r []).drop (32 * (i % m))).take 32)
  | none => List.replicate 32 0

/-- The groups after every member slot j has taken the registers of some granules and the key of slot src j. -/
def moveSlots (gs : List Group) (m : Nat) (gm : Nat) (src : Nat → Nat) : List Group :=
  gs.zipIdx.map (fun x =>
    let rows := x.1.vregs.zipIdx.map (fun r =>
      if gm.testBit (r.2 / 8) then (List.range m).flatMap (fun k => slotLanes gs m r.2 (src (x.2 * m + k))) else r.1)
    let keys := (List.range m).foldl (fun acc k => acc + keyOf gs m (src (x.2 * m + k)) * 2 ^ (8 * k)) 0
    { x.1 with vregs := rows, keys := BitVec.ofNat 64 keys })

/-- The slot whose registers go back to slot k in mrestore: the one whose record entry names k; itself where none does. -/
def backSource (src : List Nat) (k : Nat) : Nat := if src.contains k then src.findIdx (· == k) else k

/-- The record that the RGU writes (R192). -/
def regroupRecord (src : List Nat) (gm m : Nat) : List Byte :=
  ((List.range 128).flatMap (fun i => leBytes 1 (src.getD i 0))) ++ leBytes 2 gm ++ leBytes 1 src.length ++ leBytes 1 m ++
    List.replicate 124 (0 : Byte)

/-- Why a regroup fails (R194). `back`: mrestore. -/
def State.regroupReason (s : State) (u : HUnit) (w : Workgroup) (ops : List (Nat × Nat)) (back : Bool) : Option Nat :=
  let gm := (ops.headD (0, 0)).1 % 65536
  let off := if back then (ops.headD (0, 0)).1 else (ops.headD (0, 0)).2
  let inRun := match u.scratch with
    | some (o, len) => decide (o ≤ off) && decide (off + 256 ≤ o + len)
    | none => false
  if !back && (gm == 0 || 2 ^ u.kd.vgran ≤ gm) then some 1
  else if (s.wgGroups u.id w.index).length < u.kd.groups || (s.wgGroups u.id w.index).any Group.hasEnded then some 2
  else if !back && (off % 256 != 0 || !inRun) then some 3
  else if ops.any (fun o => o != ops.headD (0, 0)) then some 4
  else if back then (if w.regroup != some off then some 5 else none)
  else if w.regroup.isSome then some 5 else none

/-- REGROUP_FAULT in a group that has issued its mregroup or mrestore, at that instruction. -/
def State.regroupFault (reason : Nat) (s : State) (h : Group) (slot raw : Nat) : State :=
  let k := { h with regroup := none }
  (s.putGroup k).takeTrap k slot { cause := causeRegroup, tinfo0 := raw, tinfo1 := reason }

/-- REGROUP_FAULT in every group that has issued, in ascending index; `g`: the one that issues now (R178, R194). -/
def Iss.failRegroup (c : Iss) (reason : Nat) : State :=
  (List.range 16).foldl (fun st i =>
    if i == c.g.gi then st.regroupFault reason c.g c.which c.raw.toNat
    else match (st.wgGroups c.g.unit c.g.wg).find? (fun h => h.gi == i) with
      | none => st
      | some h =>
        if h.regroup.isNone then st
        else st.regroupFault reason h h.waitSlot ((c.st.codeWord h (h.pcSlot h.waitSlot).pc).getD 0)) c.st

/-- Whether a group waits for its workgroup at mregroup or mrestore; one that has taken PREEMPT there does not (R184). -/
def Group.atRegroup (h : Group) : Bool := h.st == .wait .regroup && h.regroup.isSome && h.saved.isNone

/-- The body of mregroup and mrestore: the group waits until all have issued, each once every register of it is written (R159); the
last arrival checks and starts the move. -/
def Iss.regroupWith (c : Iss) (ops : Nat × Nat) (back : Bool) : Eff :=
  if !c.converged then c.convergence 1
  else if !(c.st.pendingRegs c.g).isEmpty then .stall
  else
    match c.st.wg? c.g.unit c.g.wg with
    | none => .stall
    | some w =>
      let others := (c.st.wgGroups c.g.unit c.g.wg).filter (fun h => h.gi != c.g.gi)
      let ended := others.length + 1 < c.u.kd.groups || others.any Group.hasEnded
      let mine := { c.g with regroup := some (BitVec.ofNat 64 ops.1, BitVec.ofNat 64 ops.2) }
      let d := { c with g := mine, st := c.st.putGroup mine }
      if w.moving.isSome then d.waitFor .regroup
      else if ended || others.all Group.atRegroup then
        let all := ops :: others.filterMap (fun h => h.regroup.map (fun o => (o.1.toNat, o.2.toNat)))
        match c.st.regroupReason c.u w all back with
        | some r => .waits (c.failRegroup r)
        | none =>
          let gs := c.st.wgOrder c.g.unit c.g.wg
          let off := if back then ops.1 else ops.2
          let n := c.u.kd.groups * c.u.kd.m
          let src := if back then (List.range n).map (fun i => c.st.sramLE c.cluster (off + i) 1) else slotOrder gs c.u.kd.m n
          let gm := if back then c.st.sramLE c.cluster (off + 128) 2 else ops.1 % 65536
          let mv : Move := { back := back, granules := BitVec.ofNat 16 gm, offset := off, src := src }
          { d with st := d.st.putWg { w with moving := some mv } }.waitFor .regroup
      else d.waitFor .regroup

/-- mregroup. -/
def execMregroup (a b : Fin 64) (s : State) : Host.Outcome State Fault Refusal :=
  runInstr s [opS 18 a, opS 24 b] fun c => c.regroupWith ((c.g.s a).toNat, (c.g.s b).toNat) false

/-- mrestore. -/
def execMrestore (a : Fin 64) (s : State) : Host.Outcome State Fault Refusal :=
  runInstr s [opS 18 a] fun c => c.regroupWith ((c.g.s a).toNat, (c.g.s a).toNat) true

/-- A group past its mregroup or mrestore. -/
def Group.pastRegroup (g : Group) : Group :=
  let k := if g.st == .held then { g with st := g.prevSt } else g
  let h := (k.advance k.waitSlot 4).stamp k.waitSlot
  let r := { h with regroup := none, prevSt := g.resumeSt }
  if g.st == .held then { r with st := .held } else { r with st := g.resumeSt }

/-- REGROUP_MOVE_COMPLETE: registers and keys moved, the record written or closed, every group resumed. -/
def execRegroupMoveComplete (unit index : Nat) (s : State) : Host.Outcome State Fault Refusal :=
  eventOf s "REGROUP_MOVE_COMPLETE"
    (match s.unit? unit, s.wg? unit index with
     | some u, some w => w.moving.map (fun m => (u, w, m))
     | _, _ => none)
    (fun x =>
      let u := x.1
      let w := x.2.1
      let mv := x.2.2
      let gs := s.wgOrder unit index
      let src := fun (j : Nat) => if mv.back then backSource mv.src j else mv.src.getD j j
      let moved := (moveSlots gs u.kd.m mv.granules.toNat src).map Group.pastRegroup
      let s1 := moved.foldl (fun st g => st.putGroup g) s
      let s2 := if mv.back then s1.engineSram u.cluster (mv.offset + 128) [0, 0]
        else s1.engineSram u.cluster mv.offset (regroupRecord mv.src mv.granules.toNat u.kd.m)
      let s3 := s2.putWg { w with moving := none, regroup := if mv.back then none else some mv.offset }
      match s3.launch? u.launch with
      | some l => s3.mapCtx l.ctx (fun c => { c with hang := 0 })
      | none => s3)

/-! ## The hang detector (R96 to R98) -/

/-- The resident groups of a context. -/
def State.residents (s : State) (ctx : Nat) : List Group :=
  s.sched.groups.filter (fun g => !g.isGhost && g.core < 256 && s.groupCtx g == ctx)

/-- Whether a group's unit is in HANDOVER or GROWWAIT. -/
def State.unitPaused (s : State) (g : Group) : Bool :=
  match s.unit? g.unit with
  | some u => u.st == .handover || u.st == .growWait
  | none => false

/-- KIND of a waiting group in the hang report (R98); none for a group that does not wait. -/
def State.waitKind (s : State) (g : Group) : Option Nat :=
  if g.hasEnded || s.unitPaused g then some 1
  else match g.st with
    | .wait w => some (match w with
      | .bar _ _ => 0
      | .batch _ => 2
      | .pack _ => 2
      | .fence => 3
      | .regroup => 3)
    | .held => some 4
    | .running => none
    | .faultWait _ _ => none
    | .handler => none
    | .phandler => none
    | .ended _ => some 1

/-- What the detector's counter does (R96): reset, held, or incremented. -/
inductive HangStep where
  | reset | hold | count
  deriving DecidableEq, Repr

/-- HANGEXP of a context. -/
def Context.hangExp (c : Context) : Nat := bitsAt c.cmode.toNat 4 6

/-- HANGLIM; none when the detector is off. -/
def Context.hangLim (c : Context) : Option Nat :=
  if c.hangExp == 63 then none else some (2 ^ (if c.hangExp == 0 then 28 else c.hangExp))

/-- Whether an engine works for a context. -/
def State.enginesBusy (s : State) (ctx : Nat) : Bool :=
  s.eng.ceCmds.any (fun k => k.ctx == ctx) || s.eng.feCmds.any (fun k => k.ctx == ctx) ||
  s.eng.ctt.any (fun e => e.ctx == ctx && e.st == .fired) || (s.residents ctx).any (fun g => !g.meq.isEmpty)

/-- The step of the counter in cycles in which no group of the context issues. -/
def State.hangStep (s : State) (c : Context) : HangStep :=
  let gs := s.residents c.id
  if c.hangLim.isNone || gs.isEmpty then .reset
  else if s.enginesBusy c.id || !gs.all (fun g => (s.waitKind g).isSome) then .hold
  else .count

/-- Cycles of a base die's scheduler that pass for the detectors of its contexts. -/
def State.tickHang (s : State) (base n : Nat) : State :=
  { s with sched := { s.sched with ctxs := s.sched.ctxs.map (fun c =>
      if c.port != base then c
      else match s.hangStep c with
        | .reset => { c with hang := 0 }
        | .hold => c
        | .count => { c with hang := c.hang + n }) } }

/-- The barrier fields of an entry of kind 0: the two halves of the entry (R98). -/
def State.hangBar (s : State) (g : Group) : Nat × Nat :=
  match g.barWait with
  | none => (0, 0)
  | some (o, q) =>
    let cl := clusterOfCore g.core
    let w0 := cl * 2 ^ 16 + o % 2 ^ 22 * 2 ^ 22 + q % 2 ^ 16 * 2 ^ 44
    match s.bar? cl o with
    | none => (w0, 0)
    | some b =>
      let now := q == b.phase
      (w0, b.expect + (if now then b.arr0 else b.arr1) * 2 ^ 16 + bitsOfInt 32 (if now then b.pend0 else b.pend1) * 2 ^ 32)

/-- An entry of the hang report. -/
def State.hangEntry (s : State) (g : Group) : List Byte :=
  let kind := (s.waitKind g).getD 0
  let b := if kind == 0 then s.hangBar g else (0, 0)
  leBytes 8 (g.core % 256 + g.slot % 32 * 2 ^ 8 + kind * 2 ^ 13 + b.1) ++ leBytes 8 b.2

/-- The bytes of the hang report (R98). -/
def State.hangBytes (s : State) (c : Context) : List Byte :=
  let gs := sortBy (fun a b => a.core < b.core || (a.core == b.core && a.slot < b.slot))
    ((s.residents c.id).filter (fun g => (s.waitKind g).isSome))
  leBytes 4 gs.length ++ leBytes 1 c.hangExp ++ List.replicate 59 (0 : Byte) ++ gs.flatMap s.hangEntry

/-- The hang report written. -/
def State.hangReport (s : State) (c : Context) : State := s.serveWrite c.hangRpt (s.hangBytes c)

/-- The PC slot at which a group takes HANG: that of its waiting or faulting instruction, else the one that would issue next (R161). -/
def Group.hangSlot (g : Group) : Nat :=
  let h := if g.st == .held then { g with st := g.prevSt } else g
  if h.inFaultWait then ((g.lateTrap.bind (·.slot)).getD h.nextSlot) else h.nextSlot

/-- One group takes HANG, where its state lets it, with its KIND of the report; one whose handler waits meets the fatal error of a
trap in a handler (R97, R162, R179). -/
def State.hangGroup (s : State) (core slot kind : Nat) : State :=
  match s.group? core slot with
  | none => s
  | some g =>
    if g.hasEnded || s.unitPaused g || g.saved.isSome then s
    else if g.inWait || (g.st == .held && !g.pendTrap) then
      s.takeTrap g g.hangSlot { cause := causeHang, tinfo1 := kind }
    else s

/-- The groups of a list take HANG in ascending workgroup and group index, each with the kind of wait in which the expiry found it: a
group that the handler of an earlier one has made HELD by then was in its wait. -/
def State.hangGroups (s : State) (gs : List Group) : State :=
  (sortBy (fun a b => a.unit < b.unit || (a.unit == b.unit && (a.wg < b.wg || (a.wg == b.wg && a.gi < b.gi)))) gs).foldl
    (fun st g => st.hangGroup g.core g.slot ((s.waitKind g).getD 0)) s

/-- The groups of a context take HANG; in a Drydown context each workgroup admits it at a round boundary (R101). With
only ended groups and units in handover, the fault policy applies to their launches. -/
def State.deliverHang (s : State) (c : Context) : State :=
  let gs := s.residents c.id
  if gs.all (fun g => s.waitKind g == some 1) then
    ((gs.map (fun g => s.launchId g)).eraseDups).foldl (fun st i => match st.launch? i with
      | some l => st.faultPolicy c.id l.id l.region causeHang
      | none => st) s
  else if s.drydown c.id then
    ((gs.filter (fun g => s.waitKind g != some 1)).map (fun g => (g.unit, g.wg))).eraseDups.foldl (fun st x =>
      match st.unit? x.1 with
      | some u => st.addEvent c.id { kind := 3, launch := u.launch, unit := x.1, wg := x.2, arg := 0, cluster := u.cluster, phase := 0 }
      | none => st) s
  else s.hangGroups gs

/-- What the delivery of HANG waits for: the queue entries of the groups that take it (R312), and the lines of the report (R228). -/
def State.hangGate (s : State) (c : Context) : Option State :=
  if (s.residents c.id).any (fun g => s.waitKind g != some 1 && s.queued g) then some s else s.devGate c.hangRpt (s.hangBytes c).length

/-- HANG_DETECTOR_EXPIRY (R97). -/
def execHangDetectorExpiry (ctx : Nat) (s : State) : Host.Outcome State Fault Refusal :=
  eventOf s "HANG_DETECTOR_EXPIRY"
    (match s.ctx? ctx with
     | none => none
     | some c => match c.hangLim with
       | none => none
       | some n => if n ≤ c.hang && s.hangStep c == .count then
           s.afterGate (s.hangGate c) (some (((s.hangReport c).mapCtx ctx (fun x => { x with hang := 0 })).deliverHang c))
         else none)
    (fun s' => s')

/-! ## Drydown (R99 to R103) -/

/-- The bytes of a log record of an event (R102). -/
def State.ddRecord (s : State) (e : ExtEvent) (round : Nat) : List Byte :=
  let addr := match s.launch? e.launch with
    | some l => l.addr
    | none => 0
  let arg := if e.kind == 0 then e.arg else if e.kind == 1 then e.arg % 32 else 0
  leBytes 8 (addr % 2 ^ 57) ++ leBytes 4 e.wg ++ leBytes 4 arg ++ leBytes 8 round ++ leBytes 8 (e.kind + e.cluster % 64 * 16)

/-- Records that fit in a context's log. -/
def Context.ddRoom (c : Context) : Nat := (c.ddLogSize - 64) / 32

/-- The address of a log record. -/
def Context.ddAt (c : Context) (i : Nat) : Nat := c.ddLog + 64 + 32 * i

/-- An admitted event recorded (R101, R102). -/
def State.ddWrite (s : State) (ctx : Nat) (e : ExtEvent) (round : Nat) : State :=
  match s.ctx? ctx with
  | none => s
  | some c =>
    if !c.cmode.getLsbD 1 || c.ddLost || c.st == .draining then s
    else if c.ddRoom ≤ c.ddCount then (s.serveWrite (c.ddLog + 16) [1]).putCtx { c with ddLost := true }
    else
      ((s.serveWrite (c.ddAt c.ddCount) (s.ddRecord e round)).serveWrite c.ddLog (leBytes 8 (c.ddCount + 1))).putCtx
        { c with ddCount := c.ddCount + 1 }

/-- The fields of log record i: launch address, workgroup, argument, ROUND, KIND. -/
def State.ddRead (s : State) (c : Context) (i : Nat) : Nat × Nat × Nat × Nat × Nat :=
  let a := c.ddAt i
  (s.devLE a 8, s.devLE (a + 8) 4, s.devLE (a + 12) 4, s.devLE (a + 16) 8, s.devLE (a + 24) 1 % 16)

/-- The unconsumed log records of a workgroup, as record numbers. -/
def State.ddOpen (s : State) (c : Context) (addr wg : Nat) : List Nat :=
  (List.range c.ddCount).filter (fun i => !c.ddUsed.contains i && (s.ddRead c i).1 == addr && (s.ddRead c i).2.1 == wg)

/-- The address of a launch's record. -/
def State.launchAddr (s : State) (id : Nat) : Nat :=
  match s.launch? id with
  | some l => l.addr
  | none => 0

/-- The record that a pending event matches (R102). -/
def State.ddMatch (s : State) (c : Context) (e : ExtEvent) : Option Nat :=
  (s.ddOpen c (s.launchAddr e.launch) e.wg).find? (fun i =>
    let r := s.ddRead c i
    r.2.2.2.2 == e.kind && (1 < e.kind || r.2.2.1 == (if e.kind == 1 then e.arg % 32 else e.arg)))

/-- Whether a workgroup is stopped under REPLAY: a logged event of its ROUND has not occurred (R101). -/
def State.ddStops (s : State) (c : Context) (u : HUnit) (w : Workgroup) : Bool :=
  c.cmode.getLsbD 2 && (s.ddOpen c (s.launchAddr u.launch) w.index).any (fun i => (s.ddRead c i).2.2.2.1 ≤ w.round)

/-- What an event does once it is visible to its workgroup. -/
def State.ddApply (s : State) (e : ExtEvent) (w : Workgroup) : State :=
  if e.kind == 0 then s.releaseWaiters e.cluster e.arg
  else if e.kind == 1 then
    match s.group? w.core (e.arg % 32) with
    | none => s
    | some g =>
      if g.unit != w.unit || g.faultOf.isNone then s
      else if 32 ≤ e.arg then s.failFault g
      else s.putGroup g.retryFault
  else if e.kind == 2 then
    s.mapGroups (fun g => if g.unit == w.unit && g.wg == w.index && !g.isGhost && !g.hasEnded then { g with preemptReq := true } else g)
  else s.hangGroups (s.wgGroups w.unit w.index)

/-- Whether an event is admitted at a boundary, and the log record that it consumes. -/
def State.ddAdmit (s : State) (c : Context) (e : ExtEvent) (round : Nat) : Option (Option Nat) :=
  if !c.cmode.getLsbD 2 then some none
  else match s.ddMatch c e with
    | none => some none
    | some i => if (s.ddRead c i).2.2.2.1 ≤ round then some (some i) else none

/-- One pending event of a workgroup at its boundary. -/
def State.ddEvent (ctx : Nat) (w : Workgroup) (s : State) (e : ExtEvent) : State :=
  match s.ctx? ctx with
  | none => s
  | some c =>
    match (if c.events.contains e then s.ddAdmit c e w.round else none) with
    | none => s
    | some r =>
      let replay := c.cmode.getLsbD 2
      let c1 := { c with events := c.events.erase e, ddUsed := c.ddUsed ++ r.toList, ddDiv := if replay && r.isNone then c.ddDiv + 1 else c.ddDiv }
      let s1 := s.putCtx c1
      let s2 := if replay && r.isNone && c.st != .draining then s1.serveWrite (c.ddLog + 8) (leBytes 8 c1.ddDiv) else s1
      (s2.ddWrite ctx e w.round).ddApply e w

/-- The round boundary of one workgroup of a Drydown context: ROUND counts unless a replay stops the workgroup
(log 66), events are admitted in order, the workgroup goes on. -/
def State.ddBoundary (s : State) (w : Workgroup) : State :=
  match s.unit? w.unit with
  | none => s
  | some u =>
    match (match s.launch? u.launch with
      | none => none
      | some l => if s.drydown l.ctx then s.ctx? l.ctx else none) with
    | none => s
    | some c =>
      let w1 := { w with round := if s.ddStops c u w then w.round else w.round + 1 }
      let s1 := (c.events.filter (fun e => e.unit == w.unit && e.wg == w.index)).foldl (State.ddEvent c.id w1) (s.putWg w1)
      match s1.wg? w.unit w.index, s1.ctx? c.id with
      | some w2, some c2 => s1.putWg { w2 with hold := s1.ddStops c2 u w2 }
      | _, _ => s1

/-- The context of a workgroup, where it logs or replays. -/
def State.ddCtx (s : State) (w : Workgroup) : Option Context :=
  match s.unit? w.unit with
  | none => none
  | some u => match s.launch? u.launch with
    | none => none
    | some l => s.ctx? l.ctx

/-- The events that a workgroup has still to admit. -/
def State.ddDue (s : State) (w : Workgroup) : List ExtEvent :=
  match s.ddCtx w with
  | none => []
  | some c => c.events.filter (fun e => e.unit == w.unit && e.wg == w.index)

/-- What a workgroup's boundary waits for: the queue entries of its groups where an event may make one trap (R312), the lines of the
log that it reads or writes (R228). -/
def State.ddGate (s : State) (w : Workgroup) : Option State :=
  if (s.ddDue w).any (fun e => e.kind == 1 || e.kind == 3) && (s.wgGroups w.unit w.index).any s.queued then some s
  else match s.ddCtx w with
    | none => none
    | some c =>
      if c.cmode.getLsbD 1 || c.cmode.getLsbD 2 then s.devGate c.ddLog (64 + 32 * min c.ddRoom (c.ddCount + (s.ddDue w).length)) else none

/-- DRYDOWN_ROUND_BOUNDARY: the rotation of a core passes from slot 31 to slot 0. -/
def execDrydownRoundBoundary (core : Nat) (s : State) : Host.Outcome State Fault Refusal :=
  eventOf s "DRYDOWN_ROUND_BOUNDARY"
    (if s.rotating core && 32 ≤ s.turn core then
      s.afterGate ((s.coreWgs core).findSome? s.ddGate) (some ((s.coreWgs core).foldl State.ddBoundary (s.setTurn core 0)))
     else none)
    (fun s' => s')

end Sys2Proof.Machine
end

