-- ==== Sys2Proof/Machine/Matrix.lean ====
section
/-! DEFINITION. The matrix engine (spec file 15): tile slots and accumulator handles, batched operations and their
completion, matrix products, bank rows, exact accumulator slots. -/

namespace Sys2Proof.Machine

/-! ## Slots and handles (R359, R361, R369) -/

/-- The workgroup of the issuing group. -/
def Iss.wg (c : Iss) : Option Workgroup := c.st.wg? c.g.unit c.g.wg

/-- A held tile slot by name. -/
def Workgroup.tile? (w : Workgroup) (n : Nat) : Option TileSlot := w.tiles.find? (fun t => t.name == n)

/-- A held handle by name. -/
def Workgroup.handle? (w : Workgroup) (n : Nat) : Option Handle := w.handles.find? (fun h => h.name == n)

/-- A held tile slot replaced. -/
def Workgroup.putTile (w : Workgroup) (t : TileSlot) : Workgroup :=
  { w with tiles := w.tiles.map (fun u => if u.name == t.name then t else u) }

/-- A held handle replaced. -/
def Workgroup.putHandle (w : Workgroup) (h : Handle) : Workgroup :=
  { w with handles := w.handles.map (fun u => if u.name == h.name then h else u) }

/-- TILE_FAULT (R369). -/
def Iss.tileFault (c : Iss) (n reason : Nat) : Eff :=
  .trap { cause := causeTile, tinfo0 := c.raw.toNat, tinfo1 := n, tinfo2 := reason }

/-- ACC_FAULT (R369). -/
def Iss.accFault (c : Iss) (n reason : Nat) : Eff :=
  .trap { cause := causeAcc, tinfo0 := c.raw.toNat, tinfo1 := n, tinfo2 := reason }

/-- The slots that must be held, in their order, else TILE_FAULT with reason 1. -/
def Iss.needTiles (c : Iss) (w : Workgroup) (ns : List Nat) (body : Eff) : Eff :=
  match ns.find? (fun n => (w.tile? n).isNone) with
  | some n => c.tileFault n 1
  | none => body

/-- The handle that must be held, else ACC_FAULT with reason 1. -/
def Iss.needHandle (c : Iss) (w : Workgroup) (n : Nat) (body : Handle → Eff) : Eff :=
  match w.handle? n with
  | none => c.accFault n 1
  | some h => body h

/-- The body of an instruction on the workgroup's slots and handles. -/
def Iss.onWg (c : Iss) (body : Workgroup → Eff) : Eff :=
  match c.wg with
  | none => .stall
  | some w => body w

/-! ## Operations under way (R364, R365) -/

/-- The tile slots that an operation touches. -/
def MeWork.tiles : MeWork → List Nat
  | .tld t _ _ _ => [t]
  | .tzero t => [t]
  | .mma _ ta tb _ _ _ _ m => ta :: (List.range m).map (tb + ·)
  | .mred _ ta _ _ => [ta]
  | .abzero _ => []
  | .acld _ _ _ => []
  | .acst _ _ _ => []
  | .xinit _ _ => []
  | .xadd _ _ _ _ => []
  | .xaddp _ _ _ => []
  | .xmerge _ _ _ _ => []
  | .xround _ _ _ _ _ _ => []
  | .xld _ _ _ => []
  | .xst _ _ _ => []

/-- The handles that an operation touches. -/
def MeWork.handles : MeWork → List Nat
  | .tld _ _ _ _ => []
  | .tzero _ => []
  | .mma a _ _ _ _ _ _ _ => [a]
  | .mred a _ _ _ => [a]
  | .abzero a => [a]
  | .acld a _ _ => [a]
  | .acst a _ _ => [a]
  | .xinit a _ => [a]
  | .xadd a _ _ _ => [a]
  | .xaddp a _ _ => [a]
  | .xmerge a _ b _ => [a, b]
  | .xround _ a _ _ _ _ => [a]
  | .xld a _ _ => [a]
  | .xst a _ _ => [a]

/-- The memory that an operation reads. -/
def MeWork.reads : MeWork → List Chunk
  | .tld _ _ rows scales => rows.flatten ++ scales.flatten.map (·.2)
  | .acld _ _ rows => rows.flatten
  | .xld _ _ cs => cs
  | .acst _ _ _ => []
  | .xst _ _ _ => []
  | .tzero _ => []
  | .abzero _ => []
  | .mma _ _ _ _ _ _ _ _ => []
  | .mred _ _ _ _ => []
  | .xinit _ _ => []
  | .xadd _ _ _ _ => []
  | .xaddp _ _ _ => []
  | .xmerge _ _ _ _ => []
  | .xround _ _ _ _ _ _ => []

/-- Whether two operations touch one slot or one handle. -/
def MeWork.meets (x y : MeWork) : Bool :=
  x.tiles.any (fun n => y.tiles.contains n) || x.handles.any (fun n => y.handles.contains n)

/-- The generations of the slots and handles that an operation names (R153). -/
def Workgroup.tags (w : Workgroup) (x : MeWork) : List Nat :=
  x.tiles.map (fun n => ((w.tile? n).map (·.gen)).getD 0) ++ x.handles.map (fun n => ((w.handle? n).map (·.gen)).getD 0)

/-- The batched operations in a core's ME queue (R367). -/
def State.meCount (s : State) (core : Nat) : Nat :=
  ((s.sched.groups.filter (fun g => g.core == core)).map (fun g => g.meq.length)).foldl (· + ·) 0

/-- A batched instruction: it does not clear the scoreboard while the core's ME queue is full. -/
def runMe (s : State) (ops : List Opnd) (body : Iss → Workgroup → Eff) : Host.Outcome State Fault Refusal :=
  runInstr s ops fun c => if 128 ≤ c.st.meCount c.g.core then .stall else c.onWg (fun w => body c w)

/-- An operation joins the open batch (R364). -/
def Iss.enqueue (c : Iss) (w : Workgroup) (x : MeWork) : Eff :=
  let op : MeOp := { seq := c.g.seq, batch := c.g.batch.toNat + 1, work := x, tags := w.tags x }
  c.done { c.g with meq := c.g.meq ++ [op], seq := c.g.seq + 1 }

/-- Whether an operation of the issuing group on a slot or handle is under way. -/
def Iss.ownPending (c : Iss) (hit : MeWork → Bool) : Bool := c.g.meq.any (fun m => hit m.work)

/-- Whether an operation of the workgroup on a slot or handle is under way, one of a group that has ended included. -/
def Iss.wgPending (c : Iss) (hit : MeWork → Bool) : Bool :=
  c.st.sched.groups.any (fun g => g.home == c.g.unit && g.wg == c.g.wg && g.meq.any (fun m => hit m.work))

/-! ## Slot and handle management (R371, R372) -/

/-- The lowest physical slot or bank of a reservation that is not in use, n of them. -/
def freeOf (res used : List Nat) : List Nat := res.filter (fun x => !used.contains x)

/-- A workgroup and the next generation put into a state. -/
def State.putWgGen (s : State) (w : Workgroup) : State :=
  let s1 := s.putWg w
  { s1 with sched := { s1.sched with genSeq := s1.sched.genSeq + 1 } }

/-- tclaim. -/
def execTclaim (n : Fin 64) (s : State) : Host.Outcome State Fault Refusal :=
  runInstr s [] fun c => c.onWg fun w =>
    if (w.tile? n.val).isSome then c.tileFault n.val 2
    else if c.u.kd.tiles ≤ w.tiles.length then c.tileFault n.val 3
    else match freeOf w.tileRes (w.tiles.map (·.phys)) with
      | [] => c.tileFault n.val 3
      | p :: _ =>
        let t : TileSlot := { name := n.val, owner := c.g.gi, phys := p, gen := c.st.sched.genSeq, bytes := [] }
        c.doneIn (c.st.putWgGen { w with tiles := w.tiles ++ [t] }) c.g

/-- trel. -/
def execTrel (n : Fin 64) (s : State) : Host.Outcome State Fault Refusal :=
  runInstr s [] fun c => c.onWg fun w =>
    match w.tile? n.val with
    | none => c.tileFault n.val 1
    | some t =>
      if t.owner != c.g.gi then c.tileFault n.val 4
      else if c.wgPending (fun x => x.tiles.contains n.val) then c.waitFor .fence
      else c.doneIn (c.st.putWg { w with tiles := w.tiles.filter (fun u => u.name != n.val) }) c.g

/-- tzero. -/
def execTzero (n : Fin 64) (s : State) : Host.Outcome State Fault Refusal :=
  runMe s [] fun c w => c.needTiles w [n.val] (c.enqueue w (.tzero n.val))

/-- aballoc. -/
def execAballoc (n b : Fin 64) (s : State) : Host.Outcome State Fault Refusal :=
  runInstr s [opS 18 b] fun c => c.onWg fun w =>
    let k := (c.g.s b).toNat
    if k == 0 || 256 < k then c.illegalOperand 18
    else if (w.handle? n.val).isSome then c.accFault n.val 2
    else
      let free := freeOf w.bankRes (w.handles.flatMap (·.banks))
      if free.length < k then c.accFault n.val 3
      else
        let h : Handle := { name := n.val, owner := c.g.gi, banks := free.take k, gen := c.st.sched.genSeq, bytes := [] }
        c.doneIn (c.st.putWgGen { w with handles := w.handles ++ [h] }) c.g

/-- abfree. -/
def execAbfree (n : Fin 64) (s : State) : Host.Outcome State Fault Refusal :=
  runInstr s [] fun c => c.onWg fun w =>
    c.needHandle w n.val fun h =>
      if h.owner != c.g.gi then c.accFault n.val 4
      else if c.wgPending (fun x => x.handles.contains n.val) then c.waitFor .fence
      else c.doneIn (c.st.putWg { w with handles := w.handles.filter (fun u => u.name != n.val) }) c.g

/-- abzero. -/
def execAbzero (n : Fin 64) (s : State) : Host.Outcome State Fault Refusal :=
  runMe s [] fun c w => c.needHandle w n.val fun _ => c.enqueue w (.abzero n.val)

/-! ## Memory of an ME instruction (R370 step 6) -/

/-- The translations of the bytes of one row or object: within the first 4 KiB frame, and past it (R201). -/
def Iss.rowXl (c : Iss) (a : Access) (member va len : Nat) : List (Nat × Xl) :=
  let core := some c.g.core
  let die := dieOfCore c.g.core
  let n := min len (4096 - va % 4096)
  let x := c.st.xlElem core die c.ctx member va a
  if n == len then [(n, x)]
  else match x with
    | .ok ea l => [(n, x), (len - n, c.st.xlNext core die c.ctx l (ea + n) a)]
    | .fail _ ea _ _ => [(n, x), (len - n, (c.st.translate core die c.ctx (ea + n)).access a (ea + n))]

/-- The effective address of a translation. -/
def Xl.addr : Xl → Nat
  | .ok ea _ => ea
  | .fail _ ea _ _ => ea

/-- A trap of an ME instruction names no element; the fault entry of a FAULTWAIT keeps the member (R370). -/
def Iss.plain (c : Iss) (e : Eff) : Eff :=
  match e with
  | .trap t => .trap { t with first := none, nelem := 0 }
  | .waits s => .waits (match s.group? c.g.core c.g.slot with
    | some g => match g.lateTrap with
      | some t => s.putGroup { g with lateTrap := some { t with first := none, nelem := 0 } }
      | none => s
    | none => s)
  | .done s => .done s
  | .exited s => .exited s
  | .trapIn s g t => .trapIn s g { t with first := none, nelem := 0 }
  | .stall => .stall

/-- Translation and permission of the rows: pieces in ascending address for the choice of the failing one, then the rows
as placed pieces. -/
def Iss.placeRows (c : Iss) (a : Access) (member : Nat) (rows : List (Nat × Nat)) : Except Eff (List (List Placed)) :=
  let xs := rows.map (fun r => c.rowXl a member r.1 r.2)
  let sorted := sortBy (fun x y => decide (x.2.addr < y.2.addr)) xs.flatten
  match worstFail (sorted.map (fun x => (32 * member, x.2))) with
  | some (f, _, ea, level, perm, _) =>
    .error (if f == .absent then c.xStop f a ea level perm (some (32 * member)) 1 else c.xStop f a ea level perm none 0)
  | none => .ok (xs.map (fun ps => ps.filterMap (fun p => match p.2 with
    | .ok ea l => some { elem := 0, ea := ea, leaf := l, place := c.st.placeOf l ea, high := false, width := p.1, mode := .raw }
    | .fail _ _ _ _ => none)))

/-- A trap at the lowest address of the pieces that fail a test. -/
def lowestTrap (cause : Nat) (a : Access) (reason : Nat) (bad : List Placed) : Option Eff :=
  match sortBy (fun x y => decide (x.ea < y.ea)) bad with
  | [] => none
  | p :: _ => some (.trap { cause := cause, tinfo0 := p.ea, tinfo1 := accessWord a 15 (some p.leaf) reason })

/-- The chunk of n bytes at a place; a read of a CHECKED page takes its bytes now, when the stamp is placed (R253). -/
def Iss.chunkAt (c : Iss) (now : Bool) (p : Place) (n : Nat) (cache : Bool) : Chunk :=
  { place := p, n := n, cache := cache, got := if now && !p.remote then some (c.st.groupRead c.g c.g.seq p n) else none }

/-- A placed piece as a chunk of a read. -/
def Iss.chunkIn (c : Iss) (p : Placed) : Chunk := c.chunkAt p.leaf.checked p.place p.width p.leaf.cache

/-- A placed piece as a chunk of a write. -/
def Placed.chunk (p : Placed) : Chunk := { place := p.place, n := p.width, cache := p.leaf.cache, got := none }

/-- A batched read whose chunks are taken at issue: it waits for the group's earlier accesses to their bytes, and poison is fatal to
the region; else the operation joins the batch. -/
def Iss.enqueueRead (c : Iss) (w : Workgroup) (x : MeWork) : Eff :=
  let now := x.reads.filter (fun k => k.got.isSome)
  if now.any (fun k => !c.g.mayRead c.g.seq k.place k.n) then .stall
  else match now.find? (fun k => c.st.poisonAt k.place k.n) with
    | some k => .waits (c.st.groupFatal c.g 5 (k.place.lineNo * 128))
    | none => { c with st := now.foldl (fun (s : State) (k : Chunk) => s.readSpan c.g.core k.place k.n k.cache) c.st }.enqueue w x

/-- The checks 3 to 5 of R333 for the rows of an ME instruction, then its body with its stamps placed. -/
def Iss.meAccess (c : Iss) (a : Access) (member : Nat) (rows : List (Nat × Nat)) (format : List (List Placed) → Option Eff)
    (body : Iss → List (List Placed) → Eff) : Eff :=
  match c.placeRows a member rows with
  | .error e => c.plain e
  | .ok ps =>
    match format ps with
    | some e => e
    | none =>
      let flat : List Placed := sortBy (fun x y => decide (x.ea < y.ea)) ps.flatten
      let d := { c with st := c.fillAll c.st (rows.map (fun (r : Nat × Nat) => r.1) ++ flat.map (fun (p : Placed) => p.ea)) }
      c.plain (d.withStamps (if a == Access.write then StampKind.write else StampKind.read) false flat (fun i => body i ps))

/-! ## tld (R373, R374) -/

/-- Whether a tld control word holds a value outside its range (R373). -/
def tldIllegal (cw m : Nat) : Bool :=
  let frow := cw % 128
  let nrow := cw / 2 ^ 8 % 128
  let rb := cw / 2 ^ 16 % 512
  cw.testBit 7 || cw.testBit 15 || cw / 2 ^ 29 % 8 != 0 || 127 < frow + nrow || rb < 4 || 256 < rb || rb % 4 != 0 ||
    m ≤ cw / 2 ^ 25 % 8 || cw / 2 ^ 32 % 2 ^ 32 % 4 != 0 || (cw.testBit 28 && 224 < rb)

/-- The bytes of a block on a bx page. -/
def Leaf.blockBytes (l : Leaf) : Nat := if l.fmt == 9 then 16 else 32

/-- The rows that SCALES = 1 admits: REASON 1 for a page that is not bx and LINEAR, or differs from its row's first;
REASON 2 for a row without whole blocks and room for their scales. -/
def scalesCheck (rb : Nat) (rows : List (List Placed)) : Option Eff :=
  let bad1 := rows.flatMap (fun ps => ps.filter (fun p => !p.leaf.isBx || p.leaf.geom != 0 || (match ps.head? with
    | some q => q.leaf.fmt != p.leaf.fmt
    | none => false)))
  let bad2 := rows.filterMap (fun ps => match ps.head? with
    | some p => if (p.ea - p.leaf.base) % p.leaf.blockBytes != 0 || rb % p.leaf.blockBytes != 0 ||
        (p.leaf.fmt == 9 && 208 < rb) then some p else none
    | none => none)
  (lowestTrap causeFormat .read 1 bad1).orElse (fun _ => lowestTrap causeFormat .read 2 bad2)

/-- The scale pairs of a row: bytes 224 + 2c of a bx8 row and 208 + 2c of a bx4 row, with their places and whether the page has
CHECKED = 1. -/
def rowScales (ps : List Placed) : List (Nat × Place × Bool) :=
  let pairs := ps.flatMap (fun p => (List.range (p.width / p.leaf.blockBytes)).map (fun i =>
    (p.leaf.fmt, Place.dev (p.leaf.scaleAt ((p.ea - p.leaf.base) / p.leaf.blockBytes + i)), p.leaf.checked)))
  pairs.zipIdx.map (fun x => ((if x.1.1 == 9 then 208 else 224) + 2 * x.2, x.1.2))

/-- What the scale pairs that are read at issue wait for (R228). -/
def Iss.scalesGate (c : Iss) (rows : List (List Placed)) : Option Eff :=
  ((rows.flatMap rowScales).findSome? (fun x => if x.2.2 then c.st.placeGate x.2.1 2 else none)).map c.gated

/-- tld. -/
def execTld (n a k : Fin 64) (s : State) : Host.Outcome State Fault Refusal :=
  runMe s [opS 18 a, opS 24 k] fun c w =>
    let cw := (c.g.s k).toNat
    let addr := (c.g.s a).toNat
    if tldIllegal cw c.g.members then c.illegalOperand 24
    else c.needTiles w [n.val] <|
      if addr % 4 != 0 then c.alignAt .read (32 * (cw / 2 ^ 25 % 8)) addr 1
      else
        let rb := cw / 2 ^ 16 % 512
        let rows := (List.range (cw / 2 ^ 8 % 128 + 1)).map (fun r => ((addr + r * (cw / 2 ^ 32)) % 2 ^ 64, rb))
        c.meAccess .read (cw / 2 ^ 25 % 8) rows
          (fun ps => if cw.testBit 28 then (scalesCheck rb ps).orElse (fun _ => c.scalesGate ps) else none)
          fun i ps => i.enqueueRead w (.tld n.val (cw % 128) (ps.map (fun r => r.map i.chunkIn))
            (if cw.testBit 28 then ps.map (fun r => (rowScales r).map (fun x => (x.1, i.chunkAt x.2.2 x.2.1 2 false))) else []))

/-! ## Matrix products (R360, R363, R375 to R380) -/

/-- SM of a shape. -/
def shapeM (sh : Nat) : Nat := 16 * (sh / 4 + 1)
/-- SN of a shape. -/
def shapeN (sh : Nat) : Nat := 16 * (sh % 4 + 1)
/-- K of a format. -/
def meK (t : Nat) : Nat := [32, 64, 128, 128, 256, 256, 256, 512, 224, 416].getD t 0
/-- Bytes of an accumulator element. -/
def meW (t : Nat) : Nat := if t == 0 then 8 else 4

/-- The checks of a product at issue: full convergence, slots, handle and its capacity (R370). -/
def Iss.product (c : Iss) (w : Workgroup) (slots : List Nat) (a sh t members : Nat) (body : Eff) : Eff :=
  if !c.converged then c.trapRaw causeConvergence 1 none
  else c.needTiles w slots <| c.needHandle w a fun h =>
    if 2048 * h.banks.length < 64 * meW t * shapeM sh * members then c.accFault a 5 else body

/-- mma and mma.z. -/
def Iss.mma (c : Iss) (w : Workgroup) (sh ta tb a t : Nat) (z : Bool) : Eff :=
  c.product w [ta, tb] a sh t 1 (c.enqueue w (.mma a ta tb sh t z false 1))

/-- The bytes of PRESENT, NCOUNT, CHECK and VALUES of a sparse line (R378). -/
def sparseLine (m : Memory) (row h : Nat) : List Nat := (m.readN (256 * row + 128 * h) 128).map (·.toNat)

/-- The present positions of a line in ascending order. -/
def linePositions (line : List Nat) : List Nat := (List.range 128).filter (fun p => (line.getD (p / 8) 0).testBit (p % 8))

/-- The swizzle check of one line (R379). -/
def lineOk (nibbles : Bool) (line : List Nat) : Bool :=
  let n := (linePositions line).length
  let used := if nibbles then (n + 1) / 2 else n
  line.getD 16 0 == n && n ≤ (if nibbles then 128 else 110) &&
    line.getD 17 0 == Nat.xor 0xA5 ((line.take 17).foldl (· + ·) 0 % 256) &&
    (line.drop (18 + used)).all (· == 0) &&
    !(nibbles && n % 2 == 1 && 16 ≤ line.getD (17 + used) 0)

/-- The swizzle check of a slot's first rows. -/
def swizzleOk (nibbles : Bool) (m : Memory) (rows : Nat) : Bool :=
  (List.range rows).all (fun i => lineOk nibbles (sparseLine m i 0) && lineOk nibbles (sparseLine m i 1))

/-- mmas and mmas.z: the swizzle check reads the slot after every earlier operation of the group on it. -/
def Iss.mmas (c : Iss) (w : Workgroup) (sh ta tb a t : Nat) (z : Bool) : Eff :=
  c.product w [ta, tb] a sh t 1 <|
    if c.ownPending (fun x => x.tiles.contains ta) then .stall
    else if !swizzleOk (t == 7) (((w.tile? ta).map (·.bytes)).getD []) (shapeM sh) then c.tileFault ta 5
    else c.enqueue w (.mma a ta tb sh t z true 1)

/-- mma.mb and mma.mb.z. -/
def Iss.mmaMb (c : Iss) (w : Workgroup) (sh ta tb a t : Nat) (z : Bool) : Eff :=
  let m := c.g.members
  if !c.converged then c.trapRaw causeConvergence 1 none
  else if 15 < tb + m - 1 then c.tileFault tb 6
  else c.product w (ta :: (List.range m).map (tb + ·)) a sh t m (c.enqueue w (.mma a ta tb sh t z false m))

/-- mma. -/
def execMma (sh : Fin 32) (a b d t : Fin 16) (s : State) : Host.Outcome State Fault Refusal :=
  runMe s [] fun c w => c.mma w sh.val a.val b.val d.val t.val false
/-- mma.z. -/
def execMmaZ (sh : Fin 32) (a b d t : Fin 16) (s : State) : Host.Outcome State Fault Refusal :=
  runMe s [] fun c w => c.mma w sh.val a.val b.val d.val t.val true
/-- mmas. -/
def execMmas (sh : Fin 32) (a b d t : Fin 16) (s : State) : Host.Outcome State Fault Refusal :=
  runMe s [] fun c w => c.mmas w sh.val a.val b.val d.val t.val false
/-- mmas.z. -/
def execMmasZ (sh : Fin 32) (a b d t : Fin 16) (s : State) : Host.Outcome State Fault Refusal :=
  runMe s [] fun c w => c.mmas w sh.val a.val b.val d.val t.val true
/-- mma.mb. -/
def execMmaMb (sh : Fin 32) (a b d t : Fin 16) (s : State) : Host.Outcome State Fault Refusal :=
  runMe s [] fun c w => c.mmaMb w sh.val a.val b.val d.val t.val false
/-- mma.mb.z. -/
def execMmaMbZ (sh : Fin 32) (a b d t : Fin 16) (s : State) : Host.Outcome State Fault Refusal :=
  runMe s [] fun c w => c.mmaMb w sh.val a.val b.val d.val t.val true

/-- mred; its operand is shape[4:2]. -/
def execMred (sh : Fin 8) (a d t : Fin 16) (s : State) : Host.Outcome State Fault Refusal :=
  runMe s [] fun c w => c.product w [a.val] d.val (4 * sh.val) t.val 1 (c.enqueue w (.mred d.val a.val (4 * sh.val) t.val))

/-! ## mfence and mwait (R381) -/

/-- mfence. -/
def execMfence (d : Fin 64) (s : State) : Host.Outcome State Fault Refusal :=
  runInstr s [opS 12 d] fun c =>
    let b := c.g.batch + 1
    c.done { (c.g.setS d b) with batch := b }

/-- mwait. -/
def execMwait (a : Fin 64) (s : State) : Host.Outcome State Fault Refusal :=
  runInstr s [opS 18 a] fun c =>
    let q := (c.g.s a).toNat
    let b := c.g.batch.toNat
    if b + 1 < q then c.illegalOperand 18
    else
      let d := { c with g := if q == b + 1 then { c.g with batch := c.g.batch + 1 } else c.g }
      if c.g.meq.any (fun m => m.batch ≤ q) then d.waitFor (.batch q) else d.done d.g

/-! ## acld and acst (R382, R383) -/

/-- acld and acst: the row word's checks, the handle's, alignment, memory. -/
def Iss.bankRows (c : Iss) (n : Nat) (addr rw : Nat) (acc : Access) (body : Nat → Iss → List (List Placed) → Eff)
    (w : Workgroup) : Eff :=
  let first := rw % 4096
  let count := rw / 2 ^ 12 % 4096 + 1
  let member := rw / 2 ^ 24 % 8
  let pitch := rw / 2 ^ 32
  if rw / 2 ^ 27 % 32 != 0 || c.g.members ≤ member || 2048 ≤ first || 2048 < count then c.illegalOperand 18
  else c.needHandle w n fun h =>
    if 8 * h.banks.length < first + count then c.accFault n 5
    else if addr % 16 != 0 || pitch % 16 != 0 then c.alignAt acc (32 * member) addr 1
    else
      let rows := (List.range count).map (fun r => ((addr + r * pitch) % 2 ^ 64, 256))
      c.meAccess acc member rows
        (fun ps => lowestTrap causeFormat acc 1 (ps.flatten.filter (fun p => p.leaf.format && 1 < p.leaf.fmt)))
        (body first)

/-- acld. -/
def execAcld (a k : Fin 64) (n : Fin 16) (s : State) : Host.Outcome State Fault Refusal :=
  runMe s [opS 11 a, opS 18 k] fun c w => c.bankRows n.val (c.g.s a).toNat (c.g.s k).toNat .read
    (fun first i ps => i.enqueueRead w (.acld n.val first (ps.map (fun r => r.map i.chunkIn)))) w

/-- acst. -/
def execAcst (a k : Fin 64) (n : Fin 16) (s : State) : Host.Outcome State Fault Refusal :=
  runMe s [opS 11 a, opS 18 k] fun c w => c.bankRows n.val (c.g.s a).toNat (c.g.s k).toNat .write
    (fun first i ps => i.enqueue w (.acst n.val first (ps.map (fun r => r.map Placed.chunk)))) w

/-! ## Exact accumulator slots (R384, R385) -/

/-- xinit. -/
def execXinit (n : Fin 16) (k : Fin 8) (s : State) : Host.Outcome State Fault Refusal :=
  runMe s [] fun c w => c.needHandle w n.val fun _ => c.enqueue w (.xinit n.val k.val)

/-- xadd.f64. -/
def execXaddF64 (v : Fin 128) (n : Fin 16) (k : Fin 8) (s : State) : Host.Outcome State Fault Refusal :=
  runMe s [opW 11 v] fun c w => c.needHandle w n.val fun _ =>
    c.enqueue w (.xadd n.val k.val true (c.elems.map (fun e => (c.g.v64 v e).toNat)))

/-- xadd.f32. -/
def execXaddF32 (v : Fin 128) (n : Fin 16) (k : Fin 8) (s : State) : Host.Outcome State Fault Refusal :=
  runMe s [opV 11 v] fun c w => c.needHandle w n.val fun _ =>
    c.enqueue w (.xadd n.val k.val false (c.elems.map (fun e => (c.g.v v e).toNat)))

/-- xaddp.f32. -/
def execXaddpF32 (a : Fin 128) (n : Fin 16) (k : Fin 8) (b : Fin 128) (s : State) : Host.Outcome State Fault Refusal :=
  runMe s [opV 11 a, opV 25 b] fun c w => c.needHandle w n.val fun _ =>
    c.enqueue w (.xaddp n.val k.val (c.elems.map (fun e => ((c.g.v a e).toNat, (c.g.v b e).toNat))))

/-- xmerge. -/
def execXmerge (n : Fin 16) (k : Fin 8) (m : Fin 16) (j : Fin 8) (s : State) : Host.Outcome State Fault Refusal :=
  runMe s [] fun c w => c.needHandle w n.val fun _ => c.needHandle w m.val fun _ =>
    c.enqueue w (.xmerge n.val k.val m.val j.val)

/-- xround.f64. -/
def execXroundF64 (r : Fin 4) (d : Fin 128) (n : Fin 16) (k : Fin 8) (s : State) : Host.Outcome State Fault Refusal :=
  runMe s [opWd 11 d] fun c w => c.needHandle w n.val fun _ =>
    c.enqueue w (.xround d.val n.val k.val true r.val c.mask)

/-- xround.f32. -/
def execXroundF32 (r : Fin 4) (d : Fin 128) (n : Fin 16) (k : Fin 8) (s : State) : Host.Outcome State Fault Refusal :=
  runMe s [opVd 11 d] fun c w => c.needHandle w n.val fun _ =>
    c.enqueue w (.xround d.val n.val k.val false r.val c.mask)

/-! ## XA objects in memory (R386, R387) -/

/-- What the page of an XA object must be: no FORMAT; two pages of one class and target (R334, R386). -/
def xaPages (a : Access) (rows : List (List Placed)) : Option Eff :=
  let ps := rows.flatten
  let split := ps.filter (fun p => match ps.head? with
    | some q => q.leaf.cls != p.leaf.cls || q.leaf.target != p.leaf.target
    | none => false)
  (lowestTrap causeAlign a 3 (if split.isEmpty then [] else ps)).orElse (fun _ =>
    lowestTrap causeFormat a 1 (ps.filter (fun p => p.leaf.format)))

/-- xld. -/
def execXld (n : Fin 16) (k : Fin 8) (a : Fin 64) (s : State) : Host.Outcome State Fault Refusal :=
  runMe s [opS 18 a] fun c w => c.needHandle w n.val fun _ =>
    let addr := (c.g.s a).toNat
    if addr % 32 != 0 then c.alignAt .read 0 addr 3
    else c.meAccess .read 0 [(addr, 288)] (xaPages .read) fun i ps =>
      i.enqueueRead w (.xld n.val k.val (ps.flatten.map i.chunkIn))

/-- xst. -/
def execXst (n : Fin 16) (k : Fin 8) (a : Fin 64) (s : State) : Host.Outcome State Fault Refusal :=
  runMe s [opS 18 a] fun c w => c.needHandle w n.val fun _ =>
    let addr := (c.g.s a).toNat
    if addr % 32 != 0 then c.alignAt .write 0 addr 3
    else c.meAccess .write 0 [(addr, 288)] (xaPages .write) fun i ps =>
      i.enqueue w (.xst n.val k.val (ps.flatten.map Placed.chunk))

/-- An XA slot of a handle (R362). -/
def Handle.xa (h : Handle) (k : Nat) : Xa := xaOfImage (h.bytes.readLE (288 * k) 288)

/-- An XA slot written. -/
def Handle.setXa (h : Handle) (k : Nat) (x : Xa) : Handle := { h with bytes := h.bytes.writeLE (288 * k) 288 (xaImage x) }

/-- A write in the 16-byte units of R218, as a store's elements. -/
def unitWrites (cs : List Chunk) (bs : List Byte) : List StoreElem :=
  (cs.foldl (fun (acc : List StoreElem × List Byte) (c : Chunk) =>
    let mine := acc.2.take c.n
    (acc.1 ++ (List.range ((c.n + 15) / 16)).map (fun i =>
      { elem := 0, place := c.place.plus (16 * i), bytes := (mine.drop (16 * i)).take 16, cache := c.cache, checked := false, arrived := true }),
     acc.2.drop c.n)) ([], bs)).1

/-- Whether writes of a group that belong to no element may be performed now: every earlier access of the group is (R246, R259). -/
def State.clearWrite (s : State) (g : Group) (seq : Nat) (cs : List Chunk) : Bool := cs.all (fun c => s.mayWrite g seq none c.place c.n)

/-- Whether reads of a group may be performed now (R246, R247). -/
def State.clearRead (s : State) (g : Group) (seq : Nat) (cs : List Chunk) : Bool :=
  cs.all (fun c => g.mayRead seq c.place c.n && !s.peerWaits g c.place c.n)

/-- Writes that belong to no element applied or sent, in ascending address; none where one must wait. -/
def State.applyUnits (s : State) (g : Group) (ws : List StoreElem) : Option (State × Group) :=
  ws.foldl (fun acc w => acc.bind (fun r => r.1.applyWrite r.2 none w.place w.bytes w.cache)) (some (s, g))

/-- The bytes of chunks as a group reads them. -/
def State.readChunks (s : State) (g : Group) (seq : Nat) (cs : List Chunk) : List Byte :=
  cs.flatMap (fun c => s.groupRead g seq c.place c.n)

/-- What reads of chunks leave in the caches. -/
def State.touchChunks (s : State) (core : Nat) (cs : List Chunk) : State :=
  cs.foldl (fun s c => s.readSpan core c.place c.n c.cache) s

/-- xpack: a wait for the group's earlier operations on the handle, then the CXF, written before the next
instruction. -/
def execXpack (n : Fin 16) (k : Fin 8) (a : Fin 64) (s : State) : Host.Outcome State Fault Refusal :=
  runInstr s [opS 18 a] fun c => c.onWg fun w => c.needHandle w n.val fun h =>
    let addr := (c.g.s a).toNat
    if addr % 16 != 0 then c.alignAt .write 0 addr 3
    else if c.ownPending (fun x => x.handles.contains n.val) then c.waitFor (.pack n.val)
    else
      let bs := cxfBytes (h.xa k.val)
      c.meAccess .write 0 [(addr, bs.length)] (xaPages .write) fun i ps =>
        let cs := ps.flatten.map Placed.chunk
        if !i.st.clearWrite i.g i.g.seq cs then .stall
        else match cs.findSome? (fun x => i.st.placeGate x.place x.n) with
          | some s' => i.gated s'
          | none => match i.st.applyUnits i.g (unitWrites cs bs) with
            | none => .stall
            | some (s', g) => i.doneIn s' { g with seq := g.seq + 1 }

/-- A read of chunks at issue: stalled, held up by a gate, fatal on poison, trapped by a lost route or a refusal; else the
bytes and the state with its cache copies. -/
def Iss.readNow (c : Iss) (cs : List Chunk) (body : Iss → List Byte → Eff) : Eff :=
  match c.st.farTrap (cs.map (fun x => (0, 0, x.place, x.n))) .read with
  | some t => c.plain (.trap t)
  | none =>
    if !c.st.clearRead c.g c.g.seq cs || cs.any (fun x => !c.st.reachable x.place) then .stall
    else match cs.findSome? (fun x => c.st.placeGate x.place x.n) with
      | some s' => c.gated s'
      | none => match cs.find? (fun x => c.st.poisonAt x.place x.n) with
        | some x => .waits (c.st.groupFatal c.g 5 (x.place.lineNo * 128))
        | none => body { c with st := c.st.touchChunks c.g.core cs } (c.st.readChunks c.g c.g.seq cs)

/-- xunpack: header, then limbs; it follows the group's earlier operations on the handle (R365). -/
def execXunpack (n : Fin 16) (k : Fin 8) (a : Fin 64) (s : State) : Host.Outcome State Fault Refusal :=
  runInstr s [opS 18 a] fun c => c.onWg fun w => c.needHandle w n.val fun h =>
    let addr := (c.g.s a).toNat
    if addr % 16 != 0 then c.alignAt .read 0 addr 3
    else if c.ownPending (fun x => x.handles.contains n.val) then .stall
    else match c.placeRows .read 0 [(addr, 16)] with
      | .error e => c.plain e
      | .ok hs =>
        match xaPages .read hs with
        | some e => e
        | none =>
          let d := { c with st := c.fillAll c.st [addr] }
          d.readNow (hs.flatten.map Placed.chunk) fun d' hb =>
            let map := leNat (hb.take 8)
            if cxfMalformed map (leNat (hb.drop 8)) then
              .trap { cause := causeFormat, tinfo0 := ((hs.flatten.head?.map (·.ea)).getD addr),
                      tinfo1 := accessWord .read 15 (hs.flatten.head?.map (·.leaf)) 4 }
            else
              d'.meAccess .read 0 [(addr, 16 + 8 * (cxfLimbs map).length)] (xaPages .read) fun i ps =>
                i.readNow (ps.flatten.map Placed.chunk) fun j bs =>
                  match cxfRead bs with
                  | none => .stall
                  | some x => j.doneIn (j.st.putWg (w.putHandle (h.setXa k.val x))) { j.g with seq := j.g.seq + 1 }

/-! ## Completion (R364 to R367) -/

/-- The float value of element k of a slot row (R360), or of its code for an integer format. -/
def meFp (t : Nat) (m : Memory) (row k : Nat) : Fp :=
  let at' := 256 * row
  if t == 0 then fmtF64.decode (m.readLE (at' + 8 * k) 8)
  else if t == 1 then fmtF32.decode (m.readLE (at' + 4 * k) 4)
  else if t == 2 then fmtBf16.decode (m.readLE (at' + 2 * k) 2)
  else if t == 3 then fmtF16.decode (m.readLE (at' + 2 * k) 2)
  else if t == 4 then fmtE4m3.decode (m.readLE (at' + k) 1)
  else if t == 5 then fmtE5m2.decode (m.readLE (at' + k) 1)
  else if t == 8 then
    bxDecode true (m.readLE (at' + 224 + 2 * (k / 32)) 1) (m.readLE (at' + 225 + 2 * (k / 32)) 1) (m.readLE (at' + k) 1)
  else
    let b := m.readLE (at' + k / 2) 1
    bxDecode false (m.readLE (at' + 208 + 2 * (k / 32)) 1) (m.readLE (at' + 209 + 2 * (k / 32)) 1)
      (if k % 2 == 1 then b / 16 else b % 16)

/-- The integer element k of a slot row in i8 or i4. -/
def meInt (t : Nat) (m : Memory) (row k : Nat) : Int :=
  if t == 6 then intOfBits 8 true (m.readLE (256 * row + k) 1)
  else
    let b := m.readLE (256 * row + k / 2) 1
    intOfBits 4 true (if k % 2 == 1 then b / 16 else b % 16)

/-- A row of operands: floats or integers. -/
inductive MeRow where
  | fp (xs : List Fp)
  | int (xs : List Int)

/-- A dense row of a slot with K elements. -/
def denseRow (t k : Nat) (m : Memory) (row : Nat) : MeRow :=
  if t == 6 || t == 7 then .int ((List.range k).map (meInt t m row)) else .fp ((List.range k).map (meFp t m row))

/-- The code of the value at a position of a line, if it is present. -/
def lineValue (nibbles : Bool) (line : List Nat) (p : Nat) : Option Nat :=
  ((linePositions line).idxOf? p).map (fun i =>
    if nibbles then (let b := line.getD (18 + i / 2) 0; if i % 2 == 1 then b / 16 else b % 16) else line.getD (18 + i) 0)

/-- A sparse row: 256 logical positions (R378, R379). -/
def sparseRow (t : Nat) (m : Memory) (row : Nat) : MeRow :=
  let codes := (List.range 256).map (fun p => lineValue (t == 7) (sparseLine m row (p / 128)) (p % 128))
  if t == 6 || t == 7 then
    .int (codes.map (fun x => match x with
      | some v => intOfBits (if t == 7 then 4 else 8) true v
      | none => 0))
  else
    .fp (codes.map (fun x => match x with
      | some v => (if t == 4 then fmtE4m3 else fmtE5m2).decode v
      | none => .fin false 0 0))

/-- A row of ones. -/
def onesRow (t k : Nat) : MeRow :=
  if t == 6 || t == 7 then .int (List.replicate k 1) else .fp (List.replicate k (.fin false 1 0))

/-- accumulate of R376. -/
def accumulate (t acc : Nat) (x y : MeRow) : Nat :=
  match x, y with
  | .int xs, .int ys => accInt acc (xs.zip ys)
  | .fp xs, .fp ys =>
    if t == 0 then accWide fmtF64 acc (xs.zip ys)
    else if t == 1 then accWide fmtF32 acc (xs.zip ys)
    else accNarrow acc (xs.zip ys)
  | .int _, .fp _ => acc
  | .fp _, .int _ => acc

/-- One C element accumulated (R362, R376). -/
def cStep (t : Nat) (z : Bool) (x y : MeRow) (i j : Nat) (m : Memory) : Memory :=
  let w := meW t
  let p := 64 * w * i + w * j
  m.writeLE p w (accumulate t (if z then 0 else m.readLE p w) x y)

/-- The C elements of one product: the left slot's rows against the right slot's, in C rows from `base` on. -/
def productInto (t sh : Nat) (z sparse : Bool) (left right : Memory) (base : Nat) (m : Memory) : Memory :=
  let k := if sparse then 256 else meK t
  let ys := (List.range (shapeN sh)).map (denseRow t k right)
  (List.range (shapeM sh)).foldl (fun m i =>
    let x := if sparse then sparseRow t left i else denseRow t k left i
    (ys.zipIdx).foldl (fun m y => cStep t z x y.1 (base + i) y.2 m) m) m

/-- A handle with other bytes. -/
def Handle.withBytes (h : Handle) (m : Memory) : Handle := { h with bytes := m }

/-- What an operation of the engine makes of the workgroup's slots and handles, apart from its memory traffic. -/
def Workgroup.apply (w : Workgroup) (x : MeWork) : Workgroup :=
  let tileBytes := fun n => ((w.tile? n).map (·.bytes)).getD []
  let onTile := fun n (f : Memory → Memory) => match w.tile? n with
    | some t => w.putTile { t with bytes := f t.bytes }
    | none => w
  let onHandle := fun n (f : Handle → Handle) => match w.handle? n with
    | some h => w.putHandle (f h)
    | none => w
  match x with
  | .tzero t => onTile t (fun _ => [])
  | .abzero a => onHandle a (fun h => h.withBytes [])
  | .mma a ta tb sh t z sparse members => onHandle a (fun h => h.withBytes
      ((List.range members).foldl (fun m i => productInto t sh z sparse (tileBytes ta) (tileBytes (tb + i)) (i * shapeM sh) m)
        h.bytes))
  | .mred a ta sh t => onHandle a (fun h => h.withBytes
      ((List.range (shapeM sh)).foldl
        (fun m i => cStep t false (denseRow t (meK t) (tileBytes ta) i) (onesRow t (meK t)) i 0 m) h.bytes))
  | .xinit a k => onHandle a (fun h => h.setXa k Xa.zero)
  | .xadd a k wide xs => onHandle a (fun h => h.setXa k
      (xs.foldl (fun x v => xaAdd x ((if wide then fmtF64 else fmtF32).decode v)) (h.xa k)))
  | .xaddp a k xs => onHandle a (fun h => h.setXa k
      (xs.foldl (fun x v => xaAdd x (meProduct (fmtF32.decode v.1) (fmtF32.decode v.2))) (h.xa k)))
  | .xmerge a k b j => match w.handle? b with
    | some o => onHandle a (fun h => h.setXa k (xaMerge (h.xa k) (o.xa j)))
    | none => w
  | .tld _ _ _ _ => w
  | .acld _ _ _ => w
  | .acst _ _ _ => w
  | .xround _ _ _ _ _ _ => w
  | .xld _ _ _ => w
  | .xst _ _ _ => w

/-- The rows that tld moved: bytes and scale pairs (R374). -/
def TileSlot.load (t : TileSlot) (first : Nat) (rows : List (List Byte)) (scales : List (List (Nat × List Byte))) : TileSlot :=
  let m1 := rows.zipIdx.foldl (fun m r => m.writeN (256 * (first + r.2)) r.1) t.bytes
  { t with bytes := scales.zipIdx.foldl (fun m r => r.1.foldl (fun m p => m.writeN (256 * (first + r.2) + p.1) p.2) m) m1 }

/-- Free bytes (log 8): what a read returns whose route is lost, or refused, after issue. -/
def State.takeFreeBytes (s : State) : Nat → List Byte × State
  | 0 => ([], s)
  | n + 1 =>
    let r := s.takeFree
    let more := r.2.takeFreeBytes n
    (BitVec.ofNat 8 r.1 :: more.1, more.2)

/-- The bytes of a chunk that an engine read returns: those taken at issue, else what the group reads now; where it cannot be read
any more, free ones. -/
def State.readChunk (s : State) (g : Group) (seq : Nat) (x : Chunk) : List Byte × State :=
  match x.got with
  | some bs => (bs, s)
  | none =>
    if x.place.remote && ((s.placeLink x.place).isNone || s.peerRefuses x.place x.n) then s.takeFreeBytes x.n
    else (s.groupRead g seq x.place x.n, s.readSpan g.core x.place x.n x.cache)

/-- The bytes of a row of chunks. -/
def State.readRow (s : State) (g : Group) (seq : Nat) (cs : List Chunk) : List Byte × State :=
  cs.foldl (fun (acc : List Byte × State) x =>
    let r := acc.2.readChunk g seq x
    (acc.1 ++ r.1, r.2)) ([], s)

/-- The bytes of rows. -/
def State.readRows (s : State) (g : Group) (seq : Nat) (rows : List (List Chunk)) : List (List Byte) × State :=
  rows.foldl (fun (acc : List (List Byte) × State) cs =>
    let r := acc.2.readRow g seq cs
    (acc.1 ++ [r.1], r.2)) ([], s)

/-- The memory that an operation writes, with its bytes. -/
def Workgroup.meWrites (w : Workgroup) (x : MeWork) : List StoreElem :=
  match x with
  | .acst a first rows => match w.handle? a with
    | some h => rows.zipIdx.flatMap (fun r => unitWrites r.1 (h.bytes.readN (256 * (first + r.2)) 256))
    | none => []
  | .xst a k cs => match w.handle? a with
    | some h => unitWrites cs (leBytes 288 (xaImage (h.xa k)))
    | none => []
  | _ => []

/-- Whether an operation in the queue may be applied: no earlier one of its group touches what it touches, and its memory
may be accessed. -/
def State.meReady (s : State) (g : Group) (m : MeOp) (earlier : List MeOp) : Bool :=
  !earlier.any (fun e => e.work.meets m.work) &&
    (if m.work.stores then
       m.work.chunks.all (fun c => s.mayWrite g m.seq none c.1 c.2)
     else s.clearRead g m.seq m.work.reads) &&
    m.work.reads.all (fun c => !c.place.remote || (s.placeLink c.place).isNone || s.reachable c.place)

/-- The workgroup, group and state after an operation; none where a write to a peer or host must wait. -/
def State.meApply (s : State) (g : Group) (w : Workgroup) (m : MeOp) : Option State :=
  let g1 := { g with meq := g.meq.filter (fun e => e.seq != m.seq) }
  if w.tags m.work != m.tags then some (s.putGroup g1)
  else match m.work with
  | .tld t first rows scales =>
    let r := s.readRows g m.seq rows
    let sc := scales.map (fun row => row.map (fun p => (p.1, (s.readChunk g m.seq p.2).1)))
    some ((match w.tile? t with
      | some u => r.2.putWg (w.putTile (u.load first r.1 sc))
      | none => r.2).putGroup g1)
  | .acld a first rows =>
    let r := s.readRows g m.seq rows
    some ((match w.handle? a with
      | some h => r.2.putWg (w.putHandle (h.withBytes
          (r.1.zipIdx.foldl (fun (b : Memory) (x : List Byte × Nat) => b.writeN (256 * (first + x.2)) x.1) h.bytes)))
      | none => r.2).putGroup g1)
  | .xld a k cs =>
    let r := s.readRow g m.seq cs
    some ((match w.handle? a with
      | some h => r.2.putWg (w.putHandle (h.setXa k (xaOfImage (leNat r.1))))
      | none => r.2).putGroup g1)
  | .xround d a k wide mode mask =>
    match w.handle? a with
    | none => some (s.putGroup g1)
    | some h =>
      let r := xaRound (if wide then fmtF64 else fmtF32) (Fin.ofNat 4 mode) (h.xa k)
      let g2 := if wide then g1.setV64 d mask (fun _ => BitVec.ofNat 64 r.1) else g1.setV d mask (fun _ => BitVec.ofNat 32 r.1)
      some (s.putGroup (g2.orFlags r.2))
  | _ =>
    if m.work.stores then (s.applyUnits g1 (w.meWrites m.work)).map (fun r => r.1.putGroup r.2)
    else some ((s.putWg (w.apply m.work)).putGroup g1)

/-- BATCH_COMPLETE: the k-th operation in a group's part of the ME queue is applied. With the last of a batch the batch
has completed, and an mwait for it goes on (R364, R381). -/
def execBatchComplete (core slot k : Nat) (s : State) : Host.Outcome State Fault Refusal :=
  eventOf s "BATCH_COMPLETE"
    (match s.group? core slot with
     | none => none
     | some g => match g.meq[k]? with
       | none => none
       | some m =>
         if g.saved.isSome || !s.meReady g m (g.meq.take k) then none
         else match m.work.chunks.findSome? (fun c => s.placeGate c.1 c.2) with
           | some s' => if s' == s then none else some s'
           | none => match (if m.work.stores then none else m.work.chunks.find? (fun c => s.poisonAt c.1 c.2)) with
             | some c => some ((s.putGroup { g with meq := g.meq.filter (fun e => e.seq != m.seq) }).groupFatal g 5
                 (c.1.lineNo * 128))
             | none => (s.wg? g.home g.wg).bind (fun w => s.meApply g w m))
    (fun s' => s')

end Sys2Proof.Machine
end

