-- ==== Sys2Proof/Machine/Links.lean ====
section
/-! DEFINITION. Links (spec file 16): their states, what a link that goes DOWN or is retired takes with it, flits and
retry, vertical buses and elevator routers, packets, acknowledgements, the host ports' links (R229, R388 to R398). -/

namespace Sys2Proof.Machine

/-! ## Link states (R389, R390, R454) -/

/-- A link by id. -/
def State.link? (s : State) (id : Nat) : Option Link := s.fab.links.find? (fun l => l.id == id)

/-- A link changed. -/
def State.setLink (s : State) (id : Nat) (f : Link → Link) : State :=
  { s with fab := { s.fab with links := s.fab.links.map (fun l => if l.id == id then f l else l) } }

/-- Whether an id is a Brodnus port's. -/
def isBrodnus (id : Nat) : Bool := decide (0x200 ≤ id) && decide (id < 0x210)
/-- Whether an id is a host port's. -/
def isHostLink (id : Nat) : Bool := id == 0x300 || id == 0x301
/-- Whether an id is an elevator router's. -/
def isRouter (id : Nat) : Bool := decide (0x100 ≤ id) && decide (id < 0x120)

/-- Whether a state is DOWN or RETIRED. -/
def LState.dead : LState → Bool
  | .training => false
  | .up => false
  | .degraded => false
  | .retraining => false
  | .down => true
  | .retired => true

/-- The class of the log record of a transition (R454). -/
def transitionClass (id : Nat) (new : LState) : Nat :=
  if new.dead then (if id == 0x180 then 3 else if isHostLink id then 2 else 0)
  else if new == .degraded && decide (id < 0x100) then 0
  else 4

/-- A transition of a link, logged (R390, R457). -/
def State.linkTo (s : State) (id : Nat) (new : LState) : State :=
  (s.logUnit (transitionClass id new) 6 id 0 ((s.linkState id).code + 256 * new.code)).setLink id
    (fun l => { l with st := new, since := s.clock (.link id) })

/-! ## Writes that are not acknowledged (R263, R390, R400, R402) -/

/-- The writes that a link carries, oldest first in each group. -/
def State.sentOn (s : State) (id : Nat) : List (Nat × Nat × SentWrite) :=
  s.sched.groups.flatMap (fun g => (g.sent.filter (fun w => w.link == id)).map (fun w => (g.core, g.slot, w)))

/-- A sent write taking effect at the far side. -/
def State.applySent (s : State) (w : SentWrite) : State :=
  match w.red with
  | none => s.serveAt w.place w.bytes
  | some (op, x) => (s.atomAt op { elem := 0, va := 0, place := w.place, rest := w.rest, x := x, y := 0, value := none }).2

/-- The bytes of a sent write. -/
def SentWrite.width (w : SentWrite) : Nat := match w.red with
  | none => w.bytes.length
  | some (op, _) => atomWidth op

/-- A remote transfer leaves the engine once it has ended or its last unit is done, and none of its units is on its way. -/
def State.settleFe (s : State) (k : FeCmd) : State :=
  let s1 := { s with eng := { s.eng with feCmds := s.eng.feCmds.map (fun m => if m.id == k.id then k else m) } }
  if (k.ended || k.parts.all (fun p => k.done.contains p)) && !s.unitsSent k.id then
    { s1 with eng := { s1.eng with feCmds := s1.eng.feCmds.filter (fun m => m.id != k.id) } }
  else s1

/-- What the end of a sent unit means for the rput that it belongs to: an acknowledged one counts at the barrier (R416). -/
def State.settleUnit (s : State) (w : SentWrite) (acked : Bool) : State :=
  match w.cmd.bind (fun i => s.eng.feCmds.find? (fun k => k.id == i)) with
  | none => s
  | some k =>
    let s1 := if acked then s.sendCount k.id (some k.unit) k.bar w.bytes.length else s
    s1.settleFe k

/-- A sent write settled: it takes effect or not, and counts as discarded or not. One that the peer refuses has no effect and
counts as discarded (R401). -/
def State.settleSent (s : State) (core slot : Nat) (w : SentWrite) (took lost : Bool) : State :=
  let refused := s.peerRefuses w.place w.width
  let s1 := if took && !refused then s.applySent w else s
  match s1.group? core slot with
  | none => s1
  | some g => (s1.putGroup { g with sent := g.sent.erase w,
                                    lost := if lost || refused then g.lost ++ [w.place.targetNo] else g.lost }).settleUnit w
                (!lost && !refused)

/-- A sent write sent again on another link (R395, R400). -/
def State.resend (s : State) (core slot : Nat) (w : SentWrite) (link : Nat) : State :=
  match s.group? core slot with
  | none => s
  | some g => (s.pushFlit link).putGroup { g with sent := g.sent.map (fun v =>
      if v == w then { w with link := link, flit := s.nextFlit link } else v) }

/-- The writes on a link that is lost: sent again where the route has another port, else discarded; the far side may or may
not have taken each. -/
def State.loseSent (s : State) (id : Nat) (took : Nat → Bool) : State :=
  (s.sentOn id).zipIdx.foldl (fun s x => match s.placeLink x.1.2.2.place with
    | some l => s.resend x.1.1 x.1.2.1 x.1.2.2 l
    | none => s.settleSent x.1.1 x.1.2.1 x.1.2.2 (took x.2) true) s

/-- After the set of ports of a route has changed, every sent write whose line has another port now is sent again there
(R400). -/
def State.reroute (s : State) : State :=
  (s.sched.groups.flatMap (fun g => g.sent.map (fun w => (g.core, g.slot, w)))).foldl (fun s x =>
    if x.2.2.place.isPeer then
      match s.placeLink x.2.2.place with
      | some l => if l != x.2.2.link then s.resend x.1 x.2.1 x.2.2 l else s
      | none => s
    else s) s

/-! ## A link that leaves service -/

/-- Whether a vertical bus is out of service, by itself or with its router (R394). -/
def State.busDead (s : State) (die b : Nat) : Bool := s.linkDead (32 * die + b) || s.linkDead (0x100 + 4 * die + b / 8)

/-- Whether a die has no bus in service. -/
def State.dieCut (s : State) (die : Nat) : Bool := (List.range 32).all (s.busDead die)

/-- The device is FATAL once some die has no bus in service (R394, R454). -/
def State.checkDies (s : State) : State := if (List.range 8).any s.dieCut then s.enterFatal else s

/-- What a port's host held and cached goes back or away (R229, R398). -/
def State.returnHalves (s : State) (port : Nat) : State :=
  { s with ms := { s.ms with
      lines := s.ms.lines.map (fun r =>
        { r with hostLo := if r.hostLo == some port then none else r.hostLo,
                 hostHi := if r.hostHi == some port then none else r.hostHi }),
      hostLines := s.ms.hostLines.filter (fun h => h.port != port),
      backInv := s.ms.backInv.filter (fun b => b.1 != port) } }

/-- Every context of a port drains (R398, R446). -/
def State.drainPort (s : State) (port : Nat) : State :=
  (s.sched.ctxs.filter (fun x => x.port == port && x.st != .draining)).foldl (fun s x => match s.ctx? x.id with
    | some y => s.drain y none
    | none => s) s

/-- What follows a link into DOWN or RETIRED (R390, R394, R396, R398). -/
def State.loseLink (s : State) (id : Nat) (new : LState) (took : Nat → Bool) : State :=
  let n := (s.sentOn id).length
  let s1 := (s.linkTo id new).setLink id (fun l =>
    { l with retry := [], nakOut := none, discards := (l.discards + n) % 2 ^ 32 })
  let s2 := if isBrodnus id || isHostLink id then s1.loseSent id took else s1
  if id == 0x180 then s2.enterFatal
  else if isHostLink id then (s2.returnHalves (id - 0x300)).drainPort (id - 0x300)
  else if isBrodnus id then s2.reroute
  else s2.checkDies

/-- Free choices for the writes of a lost link (log 8), one bit each. -/
def State.freeTook (s : State) (id : Nat) : (Nat → Bool) × State :=
  let n := (s.sentOn id).length
  (fun i => (Config.freeWord (s.freeCtr + i)).getLsbD 0, { s with freeCtr := s.freeCtr + n })

/-- A link lost at a moment when nothing says which of its writes the far side has taken. -/
def State.dropLink (s : State) (id : Nat) (new : LState) : State :=
  let r := s.freeTook id
  r.2.loseLink id new r.1

/-! ## Training and retraining (R390) -/

/-- Whether a link in TRAINING or RETRAINING may still finish: RETRAINING only within RETWIN. -/
def State.mayTrain (s : State) (l : Link) : Bool :=
  l.st == .training || (l.st == .retraining && decide (s.clock (.link l.id) - l.since < l.retwin))

/-- The rate that a vertical bus is set to (R393). -/
def State.vbtOf (s : State) (bus : Nat) : Vbt :=
  match s.fab.vbts.find? (fun v => v.bus == bus) with
  | some v => v
  | none => { bus := bus, rate := 0, trim := 0x80 }

/-- LINK_TRAINED: UP at full width and rate, else DEGRADED. A bus trains at no higher rate than its VBT. -/
def execLinkTrained (link width rate : Nat) (s : State) : Host.Outcome State Fault Refusal :=
  eventOf s "LINK_TRAINED"
    (match s.link? link with
     | none => none
     | some l =>
       if s.mayTrain l && decide (width < 4) && decide (rate < 3) && (256 ≤ link || decide ((s.vbtOf link).rate ≤ rate)) then
         some l else none)
    (fun _ =>
      let s1 := (s.linkTo link (if width == 0 && rate == 0 then .up else .degraded)).setLink link
        (fun l => { l with width := width, rate := rate })
      if isBrodnus link then s1.reroute else s1)

/-- LINK_TRAINING_FAILED: eight failed attempts in TRAINING, or a failed RETRAINING. -/
def execLinkTrainingFailed (link : Nat) (s : State) : Host.Outcome State Fault Refusal :=
  event s "LINK_TRAINING_FAILED" (s.linkState link == .training || s.linkState link == .retraining) (s.dropLink link .down)

/-- LINK_ERROR_RETRAIN. -/
def execLinkErrorRetrain (link : Nat) (s : State) : Host.Outcome State Fault Refusal :=
  event s "LINK_ERROR_RETRAIN" (s.linkCarries link) (s.linkTo link .retraining)

/-- RETWIN_EXPIRY: `applied` numbers the unacknowledged writes that the far side had taken. -/
def execRetwinExpiry (link : Nat) (applied : List Nat) (s : State) : Host.Outcome State Fault Refusal :=
  event s "RETWIN_EXPIRY"
    (s.fab.links.any (fun l => l.id == link && l.st == .retraining && decide (l.retwin ≤ s.clock (.link link) - l.since)))
    (s.loseLink link .down (fun i => applied.contains i))

/-- ENABLE. -/
def execEnable (link : Nat) (s : State) : Host.Outcome State Fault Refusal :=
  event s "ENABLE" (s.linkState link == .down) (s.linkTo link .training)

/-- RETRAIN. -/
def execRetrain (link : Nat) (s : State) : Host.Outcome State Fault Refusal :=
  event s "RETRAIN" (s.linkCarries link) (s.linkTo link .retraining)

/-- Whether an elevator router may be retired now. -/
def State.mayRetireRouter (s : State) (router : Nat) : Bool :=
  decide (router < 32) && s.linkState (0x100 + router) != .retired && !s.fab.drains.any (fun d => d.router == router)

/-- New routing tables without a router, and DRAIN sent to it (R395 steps 1 to 3). -/
def State.startDrain (s : State) (router : Nat) : State :=
  { s with fab := { s.fab with drains := s.fab.drains ++ [{ router := router, since := s.clock (.base (router / 16)) }] } }

/-- RETIRE. An elevator router is retired by the steps of R395. -/
def execRetire (link : Nat) (s : State) : Host.Outcome State Fault Refusal :=
  event s "RETIRE"
    (if isRouter link then s.mayRetireRouter (link - 0x100) else (s.link? link).isSome && s.linkState link != .retired)
    (if isRouter link then s.startDrain (link - 0x100) else s.dropLink link .retired)

/-- The timing register of a bus written: RATE 3 takes the bus DOWN, else it retrains (R393). -/
def State.writeVbt (s : State) (v : Vbt) : State :=
  let s1 := { s with fab := { s.fab with vbts := s.fab.vbts.filter (fun (u : Vbt) => u.bus != v.bus) ++ [v] } }
  let s2 := s1.logUnit 4 7 v.bus 0 0
  if v.rate == 3 then (if s.linkDead v.bus then s2 else s2.dropLink v.bus .down)
  else if s.linkCarries v.bus then s2.linkTo v.bus .retraining
  else s2

/-- VBT_WRITE (R393). -/
def execVbtWrite (bus : Nat) (word : BitVec 64) (s : State) : Host.Outcome State Fault Refusal :=
  event s "VBT_WRITE" (decide (bus < 256))
    (s.writeVbt { bus := bus, rate := bitsAt word.toNat 0 2, trim := bitsAt word.toNat 8 8 })

/-! ## Flits (R392) -/

/-- CRC-64 of the ECMA-182 polynomial, most significant bit first, starting from 0 (log 21). -/
def crcBits : Nat → BitVec 64 → BitVec 64
  | 0, c => c
  | n + 1, c => crcBits n (if c.getLsbD 63 then (c <<< 1) ^^^ 0x42F0E1EBA9EA3693 else c <<< 1)

/-- The CRC of bytes. -/
def crc64 (bs : List Byte) : BitVec 64 := bs.foldl (fun c b => crcBits 8 (c ^^^ ((b.setWidth 64 : BitVec 64) <<< (56 : Nat)))) 0

/-- Flits up to a number acknowledged: they leave the retry buffer and the writes that they carry take effect. -/
def State.ackFlits (s : State) (link ack : Nat) : State :=
  match s.link? link with
  | none => s
  | some l =>
    match l.retry.findIdx? (fun f => f.seq == ack) with
    | none => s
    | some i =>
      let acked := l.retry.take (i + 1)
      let s1 := s.setLink link (fun l => { l with retry := l.retry.drop (i + 1) })
      ((s1.sentOn link).filter (fun x => acked.any (fun f => f.seq == x.2.2.flit))).foldl
        (fun s x => s.settleSent x.1 x.2.1 x.2.2 true false) s1

/-- The header of a flit: SEQ, ACK and KIND. -/
def flitHeader (f : List Byte) : Nat × Nat × Nat :=
  let w := leNat (f.take 8)
  (bitsAt w 0 12, bitsAt w 12 12, bitsAt w 24 4)

/-- Whether a flit's CRC holds. -/
def flitOk (f : List Byte) : Bool := (crc64 (f.take 240)).toNat == leNat ((f.drop 240).take 8)

/-- A corrected and checked flit: its acknowledgement, then its place in the sequence. -/
def State.acceptFlit (s : State) (link : Nat) (f : List Byte) : State :=
  let h := flitHeader f
  let s1 := s.ackFlits link h.2.1
  if h.2.2 == 1 || h.2.2 == 2 then
    s1.setLink link (fun l =>
      if h.1 == l.rxSeq then { l with rxSeq := (l.rxSeq + 1) % 4096, nakOut := none }
      else if (l.rxSeq + 4096 - h.1) % 4096 ≤ 2048 then l
      else { l with nakOut := some l.rxSeq })
  else s1

/-- FLIT_RECEIVE: corrected, checked, accepted in order, or dropped and answered with a NAK. What its packets ask for comes
as steps of their own (log 1). -/
def execFlitReceive (port : Nat) (flit : List Byte) (s : State) : Host.Outcome State Fault Refusal :=
  let link := 0x200 + port
  let f := Config.fecCorrect flit
  event s "FLIT_RECEIVE" (decide (port < 16) && s.linkCarries link && flit.length == 256)
    (if flitOk f then s.acceptFlit link f else s.setLink link (fun l => { l with nakOut := some l.rxSeq }))

/-- A flit sent again. -/
def Flit.again (f : Flit) : Flit := { f with replays := f.replays + 1 }

/-- A flit of a link that retrains: its count starts again. -/
def Flit.fresh (f : Flit) : Flit := { f with replays := 0 }

/-- NAK_RECEIVE: everything before the named SEQ has arrived; the rest is sent again. The sixteenth replay of one flit
starts RETRAINING (R390). -/
def execNakReceive (port expected : Nat) (s : State) : Host.Outcome State Fault Refusal :=
  let link := 0x200 + port
  eventOf s "NAK_RECEIVE"
    (match s.link? link with
     | none => none
     | some l => if port < 16 && s.linkCarries link && l.retry.any (fun f => f.seq == expected) then some l else none)
    (fun _ =>
      let s1 := (s.ackFlits link ((expected + 4095) % 4096)).setLink link (fun l => { l with retry := l.retry.map Flit.again })
      if s1.fab.links.any (fun l => l.id == link && l.retry.any (fun f => decide (16 ≤ f.replays))) then
        (s1.setLink link (fun l => { l with retry := l.retry.map Flit.fresh })).linkTo link .retraining
      else s1)

/-! ## Packets and routers (R395) -/

/-- A packet's write has reached its destination. -/
def State.arrive (s : State) (p : Packet) : State :=
  match s.group? p.core p.slot with
  | none => s
  | some g => s.putGroup { g with stores := g.stores.map (fun e => if e.seq == p.store then
      { e with elems := e.elems.map (fun w => if w.place.lineNo == p.line && !w.place.remote then { w with arrived := true } else w) }
      else e) }

/-- Whether some vertical bus of a die carries traffic now, with its router (R391, R394). -/
def State.dieCarries (s : State) (die : Nat) : Bool :=
  (List.range 32).any (fun b => s.linkCarries (32 * die + b) && s.linkCarries (0x100 + 4 * die + b / 8))

/-- Whether packets from a die to an LLC slice are held: no bus of the die carries traffic, or the slice lies on the other base die and
the link between the two does not (R391). -/
def State.pathHolds (s : State) (die slice : Nat) : Bool :=
  !s.dieCarries die || (baseOfDie die != slice / 64 && !s.linkCarries 0x180)

/-- PACKET_RECEIVE: the packet of a flow in sequence is applied and acknowledged; a duplicate is dropped. Links that train or retrain
hold it. -/
def execPacketReceive (flow seq : Nat) (s : State) : Host.Outcome State Fault Refusal :=
  eventOf s "PACKET_RECEIVE"
    (match s.fab.flows.find? (fun f => f.id == flow) with
     | none => none
     | some f => (f.unacked.find? (fun p => p.seq == seq)).bind (fun p =>
         if seq ≤ f.expected && !s.pathHolds f.src f.dst then some (f, p) else none))
    (fun x =>
      let f1 := { x.1 with unacked := x.1.unacked.filter (fun p => p.seq != seq),
                           expected := if seq == x.1.expected then seq + 1 else x.1.expected }
      let s1 := { s with fab := { s.fab with flows := s.fab.flows.map (fun f => if f.id == flow then f1 else f) } }
      if seq == x.1.expected then s1.arrive x.2 else s1)

/-- ROUTER_RETIRE: new routing tables, then DRAIN. -/
def execRouterRetire (router : Nat) (s : State) : Host.Outcome State Fault Refusal :=
  event s "ROUTER_RETIRE" (s.mayRetireRouter router) (s.startDrain router)

/-- A drained router closed: its link is RETIRED (kinds 6 and 8), its buses leave service with it. -/
def State.closeRouter (s : State) (router : Nat) : State :=
  let s1 := { s with fab := { s.fab with drains := s.fab.drains.filter (fun d => d.router != router) } }
  ((s1.logUnit 4 8 (0x100 + router) 0 0).linkTo (0x100 + router) .retired).checkDies

/-- Whether an unacknowledged packet has gone through a router. -/
def State.viaRouter (s : State) (router : Nat) : Bool := s.fab.flows.any (fun f => f.unacked.any (fun p => p.via == router))

/-- The DRAIN of a router. -/
def State.drainOf (s : State) (router : Nat) : Option RouterDrain := s.fab.drains.find? (fun d => d.router == router)

/-- ROUTER_DRAIN_EMPTY: every packet of the old path has been delivered. -/
def execRouterDrainEmpty (router : Nat) (s : State) : Host.Outcome State Fault Refusal :=
  eventOf s "ROUTER_DRAIN_EMPTY"
    ((s.drainOf router).bind (fun d =>
      if s.clock (.base (router / 16)) - d.since ≤ 2 ^ 16 && !s.viaRouter router then some d else none))
    (fun _ => s.closeRouter router)

/-- ROUTER_DRAIN_TIMEOUT: the router is not empty in time, or cannot forward: each unacknowledged packet that went through the router is sent again on a new path. -/
def execRouterDrainTimeout (router : Nat) (s : State) : Host.Outcome State Fault Refusal :=
  eventOf s "ROUTER_DRAIN_TIMEOUT"
    ((s.drainOf router).bind (fun d =>
      if 2 ^ 16 < s.clock (.base (router / 16)) - d.since || !s.linkCarries (0x100 + router) then some d else none))
    (fun _ =>
      let s1 := s.closeRouter router
      { s1 with fab := { s1.fab with flows := s1.fab.flows.map (fun f =>
          { f with unacked := f.unacked.map (fun p => if p.via == router then { p with via := s1.routerOf (router / 4) } else p) }) } })

/-! ## Host ports (R229, R263) -/

/-- BACK_INVALIDATE_TIMEOUT: a host that does not answer within the retrain window: its port is DOWN. -/
def execBackInvalidateTimeout (port line : Nat) (high : Bool) (s : State) : Host.Outcome State Fault Refusal :=
  let id := 0x300 + port
  let window := ((s.link? id).map (·.retwin)).getD 0
  event s "BACK_INVALIDATE_TIMEOUT"
    (!s.linkDead id && s.ms.backInv.any (fun b => b.1 == port && b.2.1 == line && b.2.2.1 == high &&
      decide (window ≤ s.clock (.link id) - b.2.2.2)))
    (s.dropLink id .down)

/-- HOST_WRITE_ACKNOWLEDGED: the k-th write on its way to a host, none of its group before it to the same bytes. -/
def execHostWriteAcknowledged (port k : Nat) (s : State) : Host.Outcome State Fault Refusal :=
  let all := s.sentOn (0x300 + port)
  eventOf s "HOST_WRITE_ACKNOWLEDGED"
    (match all[k]? with
     | none => none
     | some x =>
       if s.linkCarries (0x300 + port) && !(all.take k).any (fun y => y.1 == x.1 && y.2.1 == x.2.1 &&
           y.2.2.place.meets y.2.2.width x.2.2.place x.2.2.width) then some x else none)
    (fun x => s.settleSent x.1 x.2.1 x.2.2 true false)

end Sys2Proof.Machine
end

