-- ==== Sys2Proof/Machine/Fabric.lean ====
section
/-! DEFINITION. The fabric engine's remote copies rput and rget (R415, R416), with the events that move their units, and the
accesses of peers to this device (R401). -/

namespace Sys2Proof.Machine

/-! ## Issue (R416) -/

/-- What a remote command's block of four registers asks for; none where a value is out of its range. -/
structure RemoteAsk where
  loc : Endpoint
  remote : Nat
  len : Nat
  bar : Option (Nat × Nat)
  phase : Nat
  deriving DecidableEq, Repr

/-- The block of rput and rget (R351, R416). -/
def remoteAsk (own : Nat) (r : Nat → Nat) : Option RemoteAsk :=
  let ctl := r 2
  let nobar := ctl.testBit 52
  if ctl / 2 ^ 53 != 0 || 2 ≤ ctl / 2 ^ 48 % 4 || ctl / 2 ^ 50 % 4 != 0 || (nobar && (r 3 != 0 || ctl / 2 ^ 32 % 2 ^ 16 != 0)) ||
      2 ^ 31 ≤ ctl % 2 ^ 32 || bad57 (r 1) then none
  else
    match endpointOf own (ctl / 2 ^ 48 % 4) (r 0), (if nobar then some (0, 0) else sramWordOf own (r 3)) with
    | some e, some b =>
      some { loc := e, remote := r 1, len := ctl % 2 ^ 32, bar := if nobar then none else some b, phase := ctl / 2 ^ 32 % 2 ^ 16 }
    | _, _ => none

/-- The same as a copy, so that its runs are checked under R355 step 4: the remote side counts as virtual. -/
def RemoteAsk.asCopy (k : RemoteAsk) (put : Bool) : CopyAsk :=
  { src := if put then k.loc else .virt k.remote, dst := if put then .virt k.remote else k.loc,
    geom := { planes := 1, rows := 1, len := k.len, spitch := 0, dpitch := 0, sstride := 0, dstride := 0 },
    bar := k.bar, phase := k.phase, aligned := [] }

/-- The translations of the pages of a virtual range. -/
def Iss.cmdRange (c : Iss) (a : Access) (e : Endpoint) (len : Nat) : List (Nat × Xl) :=
  match e with
  | .sram _ _ => []
  | .virt va => c.st.xlRange (dieOfCluster c.cluster) c.ctx a (len / 4096 + 2) va len

/-- A peer's refusal that an rget meets at issue: PERM 0, no element (R401). -/
def Iss.remoteRefused (c : Iss) (xs : List (Nat × Xl)) (len : Nat) : Option Eff :=
  match xs.find? (fun x => match x.2 with
    | .ok ea l => c.st.peerRefuses (c.st.placeOf l ea) (min len (l.base + l.bytes - ea))
    | .fail _ _ _ _ => false) with
  | some x => some (.trap (xTrap .perm .read x.1 0 0 none 0))
  | none => none

/-- A remote command accepted; one of no bytes is complete at once. -/
def Iss.acceptRemote (c : Iss) (put : Bool) (k : RemoteAsk) (peer : Nat) (leaves : List Leaf) (dg : Nat) (bar : Option BarRef) : Eff :=
  if k.len == 0 then c.done { c.g with seq := c.g.seq + 1 }
  else
    let cmd : FeCmd :=
      { id := c.st.eng.nextCmd, put := put, cluster := c.cluster, ctx := c.ctx, region := c.l.region, launch := c.l.id,
        unit := c.g.unit, core := c.g.core, slot := c.g.slot, inst := c.g.inst, issued := c.g.seq, loc := k.loc, remote := k.remote, peer := peer,
        len := k.len, bar := bar, dstGen := dg, leaves := leaves, stale := [], pausedOn := none, done := [], ended := false }
    c.doneIn { c.st with eng := { c.st.eng with nextCmd := c.st.eng.nextCmd + 1, feCmds := c.st.eng.feCmds ++ [cmd] } }
      { c.g with seq := c.g.seq + 1 }

/-- The pages of the remote side: every one of CLASS 1 and one TARGET; that target. -/
def remoteTarget (xs : List (Nat × Xl)) : Option Nat :=
  match leavesOf xs with
  | [] => some 0
  | l :: ls => if (l :: ls).all (fun m => m.cls == 1 && m.target == l.target) then some l.target else none

/-- ALIGN_FAULT of rput and rget at the value that is not a multiple of 4: a virtual side gives the format of its page, a length and
cluster SRAM none (R334). -/
def Iss.remoteAlign (c : Iss) (k : RemoteAsk) (put : Bool) (v : Nat) : Eff :=
  let bare : Nat → Access → Eff := fun v a => .trap { cause := causeAlign, tinfo0 := v, tinfo1 := accessWord a 15 none 2 }
  if k.loc.addr % 4 != 0 then
    (match k.loc with
     | .virt va => c.alignAt (if put then .read else .write) 0 va 2
     | .sram _ _ => bare v (if put then .read else .write))
  else if k.remote % 4 != 0 then c.alignAt (if put then .write else .read) 0 k.remote 2
  else bare v (if put then .read else .write)

/-- The body of rput and rget. -/
def Iss.remote (c : Iss) (a : Nat) (put : Bool) : Eff :=
  match remoteAsk c.cluster (fun i => (c.g.s (a + i)).toNat) with
  | none => c.illegalOperand 18
  | some k =>
    match [k.loc.addr, k.remote, k.len].find? (· % 4 != 0) with
    | some v => c.remoteAlign k put v
    | none =>
      let xs := c.cmdRange (if put then .write else .read) (.virt k.remote) k.len
      match c.cmdXlFail (if put then .write else .read) xs with
      | some e => e
      | none =>
        match remoteTarget xs with
        | none => c.illegalOperand 18
        | some peer =>
          let ys := c.cmdRange (if put then .read else .write) k.loc k.len
          match c.cmdXlFail (if put then .read else .write) ys with
          | some e => e
          | none =>
            match c.copyRuns (k.asCopy put) with
            | .error e => e
            | .ok (dg, bar) =>
              if (leavesOf ys).any (fun l => l.cls != 0) then c.illegalOperand 18
              else if peer != c.st.fab.devId && !xs.isEmpty && !c.st.routeOpen (.peer peer 0) then
                .trap (c.st.linkDownTrap (.peer peer 0))
              else match (if put then none else c.remoteRefused xs k.len) with
                | some e => e
                | none =>
                  if 256 ≤ c.st.eng.feCmds.length then .stall
                  else c.acceptRemote put k peer (leavesOf (xs ++ ys)) dg bar

/-- rput. -/
def execRput (a : Fin 64) (s : State) : Host.Outcome State Fault Refusal :=
  runInstr s [opS 18 (a.val + 3)] fun c => c.remote a true

/-- rget. -/
def execRget (a : Fin 64) (s : State) : Host.Outcome State Fault Refusal :=
  runInstr s [opS 18 (a.val + 3)] fun c => c.remote a false

/-! ## Units (R258, R401, R416) -/

/-- A remote command replaced. -/
def State.putFe (s : State) (k : FeCmd) : State :=
  { s with eng := { s.eng with feCmds := s.eng.feCmds.map (fun m => if m.id == k.id then k else m) } }

/-- Whether a command may begin a unit: not while its unit is saved; while it is asked to give way, or an invalidation waits for it,
only in a portion that it has begun (R211, R282, R358). -/
def FeCmd.mayBegin (s : State) (k : FeCmd) (part : Nat) : Bool :=
  !(s.unit? k.unit).any (fun u => u.saved) &&
  ((!(s.unit? k.unit).any (fun u => u.wanted) && k.stale.isEmpty) || k.done.any (fun q => k.portion q == k.portion part))

/-- Translations that an invalidation dropped are gone once the portions that used them are moved (R211). -/
def FeCmd.settled (k : FeCmd) : FeCmd := if k.stale.isEmpty || !k.atPortion then k else { k with stale := [] }

/-- The translations that a command may use. -/
def FeCmd.known (k : FeCmd) : List Leaf := k.leaves ++ k.stale

/-- A unit that a remote command may move now. -/
def State.feUnit (s : State) (cmd part : Nat) : Option (FeCmd × Nat × Nat) :=
  match s.eng.feCmds.find? (fun k => k.id == cmd) with
  | none => none
  | some k =>
    if k.pausedOn.isSome || k.ended || k.done.contains part || !k.mayBegin s part then none
    else (k.unitAt part).map (fun u => (k, u.1, u.2))

/-- The two sides of a unit, source first. -/
def FeCmd.sides (s : State) (k : FeCmd) (off n : Nat) : Except (XFail × Nat × Nat × Access) (Side × Side) :=
  let far := Endpoint.virt (k.remote + off)
  let near := k.loc.plus off
  match s.side k.known k.cluster k.ctx .read (if k.put then near else far) n with
  | .error x => .error (x.1, x.2.1, x.2.2, .read)
  | .ok a => match s.side k.known k.cluster k.ctx .write (if k.put then far else near) n with
    | .error x => .error (x.1, x.2.1, x.2.2, .write)
    | .ok b => .ok (a, b)

/-- Words written at their places by a transfer of a core's group, four bytes each. -/
def State.writePlaces (s : State) (core : Nat) (ps : List Place) (bs : List Byte) : State :=
  ps.zipIdx.foldl (fun s p => s.writeWords core [p.1] ((bs.drop (4 * p.2)).take 4)) s

/-- A discarded rput unit: counted by the link and at the issuer's next fence (R263). -/
def State.loseUnit (s : State) (k : FeCmd) : State :=
  let s1 := s.countDiscard (s.downLink (.peer k.peer 0)).1
  if !k.put then s1
  else match s1.issuer k.core k.slot k.unit k.inst with
    | some g => s1.putGroup { g with lost := g.lost ++ [k.peer] }
    | none => s1

/-- A refused rput unit counts at the issuer's next fence (R401). -/
def State.refuseUnit (s : State) (k : FeCmd) : State :=
  if !k.put then s
  else match s.issuer k.core k.slot k.unit k.inst with
    | some g => s.putGroup { g with lost := g.lost ++ [k.peer] }
    | none => s

/-- A command with a unit done; what it translated afresh is kept. -/
def State.unitDone (s : State) (k : FeCmd) (part off n : Nat) : FeCmd :=
  let far := (Endpoint.virt (k.remote + off)).words n
  let near := (k.loc.plus off).words n
  let keep := s.freshLeaves (s.freshLeaves k.leaves k.cluster k.ctx .read (if k.put then near else far))
    k.cluster k.ctx .write (if k.put then far else near)
  ({ k with done := k.done ++ [part], leaves := if k.stale.isEmpty then keep else k.leaves } : FeCmd).settled

/-- A unit moved and counted. -/
def State.moveUnit (s : State) (k : FeCmd) (part off n : Nat) (a b : Side) : State :=
  let bs := s.readSide k.core a n
  let s1 := s.settleFe (s.unitDone k part off n)
  match b with
  | .mem ps => (s1.writePlaces k.core ps bs).sendCount k.id (some k.unit) k.bar n
  | .sram c o => if s1.runLive c o k.dstGen then (s1.engineSram c o bs).sendCount k.id (some k.unit) k.bar n else s1

/-- A unit delivered. While the group that issued an rput runs the same kernel, a unit to a peer is one of its posted writes: it is sent,
and counts once it is acknowledged (R263, R416; log 38). None while its link holds traffic. -/
def State.deliverUnit (s : State) (k : FeCmd) (part off n : Nat) (a b : Side) : Option State :=
  match (if k.put then s.issuer k.core k.slot k.unit k.inst else none), b with
  | some g, .mem (p :: _) =>
    if p.remote then
      (s.sendWrite g none p none (s.readSide k.core a n) none (some k.id)).map (fun r =>
        (r.1.putGroup r.2).settleFe (s.unitDone k part off n))
    else some (s.moveUnit k part off n a b)
  | _, _ => some (s.moveUnit k part off n a b)

/-- FE_UNIT_DELIVER: a unit of an rput on its way to the peer, or of an rget applied here and counted; or refused by the
peer, or lost with its route; or the end of a command that a fault has ended. -/
def execFeUnitDeliver (cmd part : Nat) (reply : FeReply) (s : State) : Host.Outcome State Fault Refusal :=
  eventOf s "FE_UNIT_DELIVER"
    (match s.eng.feCmds.find? (fun k => k.id == cmd && k.ended) with
     | some k => if s.unitsSent k.id then none else some (s.settleFe k)
     | none => match s.feUnit cmd part with
       | none => none
       | some (k, o, n) => match k.sides s o n with
         | .error _ => none
         | .ok (a, b) =>
           if !issuerClear (s.issuer k.core k.slot k.unit k.inst) k.issued (a.places ++ b.places) 4 then none
           else
             let settled := ({ k with done := k.done ++ [part] } : FeCmd).settled
             match s.way a.places b.places 4 with
             | .wait => none
             | .back s' => some s'
             | .lost _ => some ((s.loseUnit k).settleFe settled)
             | .refused _ => if reply == .refused then some ((s.refuseUnit k).settleFe settled) else none
             | .poison pa => some (s.fatalRegion k.ctx k.region 5 pa)
             | .go => if reply == .done then s.deliverUnit k part o n a b else none)
    (fun s' => s')

/-- FE_TRANSFER_FAULT: a page translated afresh fails: V = 0 pauses the command on a fault entry, anything else ends it
(R208, R211). -/
def execFeTransferFault (cmd part : Nat) (s : State) : Host.Outcome State Fault Refusal :=
  eventOf s "FE_TRANSFER_FAULT"
    (match s.feUnit cmd part with
     | none => none
     | some (k, o, n) => match k.sides s o n with
       | .ok _ => none
       | .error (f, ea, level, a) =>
         if f == .held then s.entryStep level
         else if f == .absent then
           let r := s.engineFault k.cluster k.ctx k.region k.launch true a ea level
           r.2.map (fun t => r.1.putFe { k with pausedOn := some t })
         else some (s.settleFe { k with ended := true }))
    (fun s' => s')

/-! ## Accesses of peers (R401) -/

/-- Bit and field tests of an export entry (R401). -/
def exportGrants (w0 w1 : Word64) (peer pa n : Nat) (rd wr : Bool) : Bool :=
  w0.getLsbD 0 && (!rd || w0.getLsbD 1) && (!wr || w0.getLsbD 2) && (w0.getLsbD 3 || bitsAt w0.toNat 4 8 == peer) &&
    bitsAt w0.toNat 12 40 ≤ pa / 4096 && (pa + n - 1) / 4096 ≤ bitsAt w1.toNat 12 40

/-- The bytes, and the kind, of a peer's request. -/
def peerNeeds : PeerReq → Nat × Bool × Bool
  | .read n => (n, true, false)
  | .write bs => (bs.length, false, true)
  | .atomic op _ _ => (atomWidth op.val, true, true)

/-- An admitted request performed at the LLC home (R236, R239). -/
def State.servePeer (s : State) (pa : Nat) (req : PeerReq) : State :=
  let n := (peerNeeds req).1
  let s1 := (linesOf pa n).foldl (fun s l => s.recall l) s
  let answered := fun (t : State) (bs : List Byte) => ({ t with mgmt := { t.mgmt with peerReply := bs } } : State)
  match req with
  | .read _ => answered s1 (s1.devRead pa n)
  | .write bs => answered (s1.serveWrite pa bs) []
  | .atomic op x y =>
    let r := atomBytes op.val x.toNat y.toNat (s1.devRead pa n)
    answered ((s1.serveWrite pa r.2).countBank (.dev pa)) (leBytes 8 r.1)

/-- PEER_ACCESS_INBOUND: applied where one valid entry of the export table covers all its bytes and grants its kind to the
peer; else it has no effect and nothing is answered. -/
def execPeerAccessInbound (peer pa : Nat) (req : PeerReq) (s : State) : Host.Outcome State Fault Refusal :=
  let k := peerNeeds req
  let granted := s.fab.exports.any (fun e => exportGrants e.2.1 e.2.2 peer pa k.1 k.2.1 k.2.2)
  eventOf s "PEER_ACCESS_INBOUND"
    (if s.mgmt.devState != .ready || k.1 == 0 || devLimit < pa + k.1 then none
     else if !granted then some { s with mgmt := { s.mgmt with peerReply := [] } }
     else match s.placeGate (.dev pa) k.1 with
       | some s' => if s' == s then none else some s'
       | none => some (s.servePeer pa req))
    (fun s' => s')

end Sys2Proof.Machine
end

