-- ==== Sys2Proof/Machine/Collective.lean ====
section
/-! DEFINITION. Collectives (R403 to R412): the collective tile table with ctarm, ctdisarm and ctquery (R417 to R419), the
operators, and the events in which an entry fires, receives, delivers and fails. -/

namespace Sys2Proof.Machine

/-! ## Descriptors (R404, R406) -/

/-- The types of an operator (R406). -/
def cttTypes (op : Nat) : List Nat :=
  match op with
  | 0 => [8]
  | 1 => [9]
  | 2 => [9]
  | 3 => [8, 9, 5, 4]
  | 4 => [8, 9, 5, 4]
  | 5 => [8]
  | 6 => [8]
  | 7 => [8]
  | _ => []

/-- The fields of a descriptor's 128 bytes. -/
def cttDescOf (b : List Byte) : CttDesc :=
  let w4 := wordAt b 4
  let w5 := wordAt b 5
  let w7 := wordAt b 7
  { src := wordAt b 0, flag := wordAt b 1, dst := wordAt b 2, bar := wordAt b 3, count := bitsAt w4 0 32, phase := bitsAt w4 32 16,
    op := bitsAt w4 48 4, type := bitsAt w4 52 4, dspace := w4.testBit 56, nobar := w4.testBit 57, rearm := w4.testBit 58,
    xin := w4.testBit 59, xout := w4.testBit 60, gid := bitsAt w5 0 32, nrank := bitsAt w5 32 16, myrank := bitsAt w5 48 16,
    mpr := bitsAt w7 0 16, k := bitsAt w7 16 16, obs := wordAt b 8, fireVal := wordAt b 9, pstride := wordAt b 10 }

/-- RING of a descriptor. -/
def cttRingOf (b : List Byte) : Nat := wordAt b 6

/-- Whether DST or BAR breaks its layout or alignment. -/
def CttDesc.badEnds (d : CttDesc) : Bool :=
  (if d.dspace then (match sramWordOf 0 d.dst with
    | some p => p.2 % 128 != 0
    | none => true) else bad57 d.dst || d.dst % 128 != 0) ||
  (if d.nobar then d.bar != 0 else (match sramWordOf 0 d.bar with
    | some p => p.2 % 32 != 0
    | none => true))

/-- Whether a descriptor is valid (R404), but for the flag's page. -/
def cttValid (b : List Byte) : Bool :=
  let d := cttDescOf b
  bitsAt (wordAt b 4) 61 3 == 0 && bitsAt (wordAt b 7) 32 32 == 0 && (b.drop 88).all (· == 0) &&
  (cttTypes d.op).contains d.type && 1 ≤ d.count && d.count ≤ 2 ^ 24 && 1 ≤ d.nrank && d.nrank ≤ 256 && d.myrank < d.nrank &&
  1 ≤ d.mpr && d.mpr ≤ (if d.op < 2 then 1 else 256) && d.nrank * d.mpr ≤ (if 6 ≤ d.op then 4096 else 65535) &&
  !bad57 d.src && !bad57 d.flag && !bad57 (cttRingOf b) && !bad57 d.obs && d.src % 128 == 0 && d.flag % 8 == 0 &&
  d.pstride % 128 == 0 && (d.mpr == 1 || d.count * d.width ≤ d.pstride) && (d.op == 7 || d.obs == 0) && !d.badEnds

/-! ## Instructions (R417 to R419) -/

/-- An entry that is not FREE. -/
def State.ctt? (s : State) (i : Nat) : Option CttEntry := s.eng.ctt.find? (fun e => e.index == i)

/-- An entry replaced. -/
def State.putCtt (s : State) (e : CttEntry) : State :=
  { s with eng := { s.eng with ctt := s.eng.ctt.map (fun x => if x.index == e.index then e else x) } }

/-- An entry freed: its late counts are dropped with its number (R418). -/
def State.freeCtt (s : State) (i : Nat) : State :=
  let gens := (s.eng.ctt.filter (fun e => e.index == i)).map (·.gen)
  { s with eng := { s.eng with ctt := s.eng.ctt.filter (fun e => e.index != i),
                               counts := s.eng.counts.filter (fun m => !gens.contains m.src) } }

/-- n bytes at an address of the context, read as by ld. -/
def Iss.readBytes (c : Iss) (va n : Nat) (body : Iss → List Byte → Eff) : Eff :=
  match c.placeRows .read 0 [(va, n)] with
  | .error e => c.plain e
  | .ok ps =>
    match c.routeCheck ps.flatten with
    | some e => c.plain e
    | none => ({ c with st := c.fillAll c.st [va] } : Iss).readNow (ps.flatten.map Placed.chunk) body

/-- Whether a ring list is bad: this device is not at MYRANK, ids repeat, or another id has an empty route mask (R417). -/
def State.badRing (s : State) (d : CttDesc) (ring : List Nat) : Bool :=
  ring[d.myrank]? != some s.fab.devId || ring.eraseDups.length != ring.length ||
    ring.any (fun i => i != s.fab.devId && lookupD 0 s.fab.routes i == 0)

/-- An entry as ctarm arms it. -/
def Iss.armed (c : Iss) (i : Nat) (d : CttDesc) (ring : List Nat) : CttEntry :=
  let gen := fun (x n : Nat) => (sramWordOf c.cluster x).bind (fun p => c.st.runGen c.ctx p.1 p.2 n)
  { index := i, ctx := c.ctx, region := c.l.region, launch := c.l.id, record := c.l.addr, cluster := c.cluster, core := c.g.core,
    st := .armed, err := 0, gen := c.st.eng.nextCmd, desc := d, ring := ring,
    barGen := if d.nobar then none else gen d.bar 32, dstGen := if d.dspace then gen d.dst 1 else none, fireVal := d.fireVal,
    readySucc := false, started := false, results := [], sent := [], delivered := [], delivBytes := 0, pausedOn := none,
    failed := false }

/-- The entry armed. -/
def Iss.arm (c : Iss) (i : Nat) (d : CttDesc) (ring : List Nat) : State :=
  let s := c.st.freeCtt i
  { s with eng := { s.eng with ctt := s.eng.ctt ++ [c.armed i d ring], nextCmd := s.eng.nextCmd + 1 } }

/-- The steps of ctarm behind its release. -/
def Iss.ctarm (c : Iss) (dst : Nat) (i addr : Nat) : Eff :=
  let answer := fun (k : Iss) (r : Nat) => k.done (k.g.setS dst (BitVec.ofNat 64 r))
  c.readBytes addr 128 fun k b =>
    if (k.st.ctt? i).any (fun e => e.ctx != k.ctx || e.st == .fired) then answer k 1
    else if !cttValid b then answer k 2
    else
      let d := cttDescOf b
      match k.placeRows .read 0 [(d.flag, 8)] with
      | .error e => k.plain e
      | .ok ps =>
        if ps.flatten.any (fun p => p.leaf.cls != 0 || p.leaf.format) then answer k 2
        else ({ k with st := k.fillAll k.st [d.flag] } : Iss).readBytes (cttRingOf b) d.nrank fun m rb =>
          let ring := rb.map (·.toNat)
          if m.st.badRing d ring then answer m 3
          else m.doneIn (m.arm i d ring) (m.g.setS dst 0)

/-- ctarm. -/
def execCtarm (d a b : Fin 64) (s : State) : Host.Outcome State Fault Refusal :=
  runInstr s [opS 12 d, opS 18 a, opS 24 b] fun c =>
    let i := (c.g.s a).toNat
    let addr := (c.g.s b).toNat
    if 4096 ≤ i then c.illegalOperand 18
    else if addr % 128 != 0 then c.alignAt .read 0 addr 1
    else
      match c.releaseFirst 6 with
      | some e => e
      | none =>
        let k := c.released 6
        k.trapHere (k.ctarm d i addr)

/-- ctdisarm: the ABORT of a fired entry and the end of its reads and writes are one step, so that its fence wait ends at
once (R418). -/
def execCtdisarm (d a : Fin 64) (s : State) : Host.Outcome State Fault Refusal :=
  runInstr s [opS 12 d, opS 18 a] fun c =>
    let i := (c.g.s a).toNat
    if 4096 ≤ i then c.illegalOperand 18
    else if (c.st.ctt? i).any (fun e => e.ctx != c.ctx) then c.done (c.g.setS d 1)
    else c.doneIn (c.st.freeCtt i) (c.g.setS d 0)

/-- LSTAT of a link (R389). -/
def Link.lstat (l : Link) : Nat := l.st.code + l.width * 2 ^ 8 + l.rate * 2 ^ 10 + l.discards * 2 ^ 32

/-- How good a link's state is for a route word, best first; RETIRED counts as DOWN. -/
def LState.rank : LState → Nat
  | .up => 0
  | .degraded => 1
  | .retraining => 2
  | .training => 3
  | .down => 4
  | .retired => 4

/-- The STATE of a rank. -/
def rankState (r : Nat) : Nat := [1, 2, 3, 0, 4].getD r 4

/-- The route word of a peer (R419). -/
def State.routeWord (s : State) (peer : Nat) : Nat :=
  let ls := s.routeLinks peer
  let good := ls.filter s.linkCarries
  rankState ((ls.map (fun l => (s.linkState l).rank)).foldl min 4) + good.length * 2 ^ 8 + good.headD 0x3FF * 2 ^ 16

/-- The state codes of an entry (R419). -/
def CttState.code : CttState → Nat
  | .armed => 1
  | .fired => 2
  | .done => 3
  | .failed => 4

/-- The entry word for a context (R419). -/
def State.cttWord (s : State) (ctx i : Nat) : Nat :=
  match s.ctt? i with
  | none => 0
  | some e => if e.ctx != ctx then 7 else e.st.code + e.err * 8 + e.delivBytes % 2 ^ 32 * 2 ^ 32

/-- ctquery: one that returns STATE 3 is an acquire at .dv (R419). -/
def execCtquery (d a b : Fin 64) (s : State) : Host.Outcome State Fault Refusal :=
  runInstr s [opS 12 d, opS 18 a, opS 24 b] fun c =>
    let x := (c.g.s a).toNat
    let sel := (c.g.s b).toNat % 4
    let answer := fun (w : Nat) => c.g.setS d (BitVec.ofNat 64 w)
    if sel == 3 then c.illegalOperand 24
    else if sel == 1 then
      match c.st.fab.links.find? (fun l => l.id == x) with
      | none => c.illegalOperand 18
      | some l => c.done (answer l.lstat)
    else if sel == 2 then c.done (answer (c.st.routeWord (x % 256)))
    else if 4096 ≤ x then c.illegalOperand 18
    else
      let w := c.st.cttWord c.ctx x
      if w % 8 != 3 then c.done (answer w)
      else if c.g.watching .pending || c.g.acquireWaits 6 then c.waitFor .fence
      else c.doneIn (c.st.doAcquire c.g 6) (answer w)

/-! ## The ring (R405, R407) -/

/-- Elements of a chunk: ceil(COUNT / NRANK). -/
def CttDesc.chunk (d : CttDesc) : Nat := (d.count + d.nrank - 1) / d.nrank

/-- The chunk of an element, which is also the ring position of the rank that completes it. -/
def CttDesc.chunkOf (d : CttDesc) (e : Nat) : Nat := e / d.chunk

/-- The elements of a chunk. -/
def CttDesc.elemsOf (d : CttDesc) (c : Nat) : List Nat :=
  ((List.range d.chunk).map (c * d.chunk + ·)).filter (fun e => decide (e < d.count))

/-- The ring position that starts a chunk. -/
def CttDesc.startOf (d : CttDesc) (c : Nat) : Nat := (c + 1) % d.nrank

/-- The chunk that this rank starts. -/
def CttDesc.myChunk (d : CttDesc) : Nat := (d.myrank + d.nrank - 1) % d.nrank

/-- The neighbours in the ring: predecessor and successor. -/
def CttEntry.pred (e : CttEntry) : Nat := e.ring.getD ((e.desc.myrank + e.desc.nrank - 1) % e.desc.nrank) 0
/-- The successor. -/
def CttEntry.succ (e : CttEntry) : Nat := e.ring.getD ((e.desc.myrank + 1) % e.desc.nrank) 0

/-- Whether the ring is this device alone. -/
def CttEntry.alone (e : CttEntry) : Bool := e.desc.nrank == 1

/-- Whether traffic with a neighbour flows now: its route's port carries traffic (R400, R411). -/
def State.neighbourOpen (s : State) (peer : Nat) : Bool := (s.routePort peer 0).any s.linkCarries

/-- Whether the route of a neighbour is lost for good. -/
def State.ringCut (s : State) (e : CttEntry) : Bool :=
  !e.alone && ((s.routePort e.pred 0).isNone || (s.routePort e.succ 0).isNone)

/-- The parameters of an entry's own READY. -/
def CttEntry.ready (e : CttEntry) : CttReady :=
  { gid := e.desc.gid, op := e.desc.op, type := e.desc.type, count := e.desc.count, nrank := e.desc.nrank, mpr := e.desc.mpr,
    k := e.desc.k, xin := e.desc.xin, xout := e.desc.xout, ring := e.ring }

/-- An entry that fails: it writes and counts no further unit, and sends ABORT (R403, R412). -/
def State.failCtt (s : State) (e : CttEntry) (err : Nat) : State :=
  let s1 := s.putCtt { e with st := .failed, err := err, pausedOn := none, failed := false,
                              sent := if e.alone then e.sent else e.sent ++ [.abort] }
  { s1 with eng := { s1.eng with counts := s1.eng.counts.filter (fun m => m.src != e.gen) } }

/-! ## Reading contributions (R260, R404) -/

/-- What an entry meets when it reads bytes of its context. -/
inductive CttRead where
  | ok (bs : List Byte)
  | bad (f : XFail) (ea level : Nat)
  | fatal (pa : Nat)
  | wait (s : State)

/-- n bytes of device memory at an address of the entry's context. A page of another class counts as a permission that is
lacking (R404, R411). -/
def State.cttRead (s : State) (e : CttEntry) (va n : Nat) : CttRead :=
  let xs := s.xlRange (dieOfCluster e.cluster) e.ctx .read (n / 4096 + 2) va n
  match worstFail xs with
  | some (f, _, ea, level, _, _) => if f == .held then .wait ((s.devGate level 8).getD s) else .bad f ea level
  | none =>
    match xs.find? (fun x => match x.2 with
      | .ok _ l => l.cls != 0
      | .fail _ _ _ _ => false) with
    | some x => .bad .perm x.1 0
    | none =>
      let pieces := xs.filterMap (fun x => match x.2 with
        | .ok ea l => some (l.place ea, min (va + n - ea) (l.base + l.bytes - ea))
        | .fail _ _ _ _ => none)
      match pieces.findSome? (fun p => s.placeGate p.1 p.2) with
      | some s' => .wait s'
      | none => match pieces.find? (fun p => s.poisonAt p.1 p.2) with
        | some p => .fatal (p.1.lineNo * 128)
        | none => .ok (pieces.flatMap (fun p => s.placeRead p.1 p.2))

/-- Several ranges read one after another; the first that fails decides. -/
def State.cttReads (s : State) (e : CttEntry) : List (Nat × Nat) → Except CttRead (List (List Byte))
  | [] => .ok []
  | (va, n) :: rest =>
    match s.cttRead e va n with
    | .ok bs => match s.cttReads e rest with
      | .error r => .error r
      | .ok more => .ok (bs :: more)
    | .bad f ea level => .error (.bad f ea level)
    | .fatal pa => .error (.fatal pa)
    | .wait s' => .error (.wait s')

/-- Where the contributions of an element lie. -/
def CttDesc.contributions (d : CttDesc) (e : Nat) : List (Nat × Nat) :=
  (List.range d.mpr).map (fun p => (d.src + p * d.pstride + d.width * e, d.width))

/-! ## Operators (R406 to R409) -/

/-- The float format of the type. -/
def CttDesc.fmt (d : CttDesc) : Fmt := if d.type == 9 then fmtF64 else fmtF32

/-- A NaN becomes canonical (R406). -/
def CttDesc.canon (d : CttDesc) (x : Nat) : Nat := if (d.type == 8 || d.type == 9) && d.fmt.isNan x then d.fmt.nan else x

/-- The minimum or maximum of two values of the type (R408). -/
def CttDesc.extreme (d : CttDesc) (x y : Nat) : Nat :=
  let big := d.op == 4
  if d.type == 8 || d.type == 9 then fMinMax d.fmt big false x y
  else
    let less := if d.type == 5 then decide ((BitVec.ofNat 32 x).toInt < (BitVec.ofNat 32 y).toInt) else decide (x < y)
    if less == big then y else x

/-- The exact sum of an element's own contributions, on top of one received. -/
def CttDesc.exactSum (d : CttDesc) (x : Xa) (own : List (List Byte)) : Xa :=
  own.foldl (fun a b => if d.xin then xaMerge a (xaOfImage (leNat b)) else xaAdd a (fmtF64.decode (leNat b))) x

/-- What a received part contributes: its value, its exact sum, its members; none where it is not of the operator's form. -/
inductive CttGot where
  | ok (p : CttPart)
  | malformed
  | wrong

/-- A part held to the operator's form. -/
def CttDesc.accept (d : CttDesc) (gather : Bool) (p : CttPart) : CttGot :=
  match p with
  | .value x =>
    let plain := if gather then d.op != 2 || !d.xout else d.op == 0 || d.op == 1 || d.op == 3 || d.op == 4
    if plain && (d.outWidth == 8 || (gather && d.op == 5) || decide (x.toNat < 2 ^ 32)) then .ok p else .wrong
  | .exact bs => if d.op == 2 && (!gather || d.xout) then (if (cxfRead bs).isNone then .malformed else .ok p) else .wrong
  | .members _ => if !gather && 5 ≤ d.op then .ok p else .wrong

/-- An element's own contributions alone. -/
def CttDesc.ownPart (d : CttDesc) (own : List (List Byte)) : CttPart :=
  let xs := own.map leNat
  if d.op < 2 then .value (BitVec.ofNat 64 (xs.headD 0))
  else if d.op == 2 then .exact (cxfBytes (d.exactSum Xa.zero own))
  else if d.op < 5 then .value (BitVec.ofNat 64 (xs.tail.foldl d.extreme (d.canon (xs.headD 0))))
  else .members (xs.map (BitVec.ofNat 32))

/-- A received partial result combined with an element's own contributions: fadd(a, own), the minimum or maximum, the
merged sum, the longer member list. -/
def CttDesc.combine (d : CttDesc) (p : CttPart) (own : List (List Byte)) : CttPart :=
  match p with
  | .value a =>
    if d.op < 2 then .value (BitVec.ofNat 64 (fAdd d.fmt a.toNat (leNat (own.headD []))).1)
    else .value (BitVec.ofNat 64 ((own.map leNat).foldl d.extreme a.toNat))
  | .exact bs => .exact (cxfBytes (d.exactSum ((cxfRead bs).getD Xa.zero) own))
  | .members ms => .members (ms ++ own.map (fun b => BitVec.ofNat 32 (leNat b)))

/-- The result of an element from everything that was combined. For RANKH the bin's number plus 1, 0 for a NaN observation;
for MEANVAR the mean below the variance. -/
def CttDesc.result (d : CttDesc) (p : CttPart) (obs : Nat) : CttPart :=
  match p with
  | .value a => .value (BitVec.ofNat 64 (d.canon a.toNat))
  | .exact bs =>
    let x := (cxfRead bs).getD Xa.zero
    if d.xout then .exact bs else .value (BitVec.ofNat 64 (xaRound fmtF64 0 x).1)
  | .members ms =>
    let cs := ms.map (·.toNat)
    if d.op == 5 then .value (BitVec.ofNat 64 ((statMean fmtF32 cs).1 + (statVar fmtF32 cs).1 * 2 ^ 32))
    else if d.op == 6 then .value (BitVec.ofNat 64 (statQuant fmtF32 d.k cs))
    else
      let r := statRank fmtF32 obs cs
      .value (BitVec.ofNat 64 (if r == 0xFFFFFFFF then 0 else r % 65536 + r / 65536 / 2 + 1))

/-- The ranges that the result of an element reads besides its contributions: the observation of RANKH. -/
def CttDesc.observation (d : CttDesc) (e : Nat) : List (Nat × Nat) := if d.op == 7 then [(d.obs + 4 * e, 4)] else []

/-! ## Firing and data (R403, R405) -/

/-- An element's result kept and sent on around the ring. -/
def CttEntry.keep (e : CttEntry) (elem : Nat) (p : CttPart) : CttEntry :=
  { e with results := e.results ++ [(elem, p)], sent := if e.alone then e.sent else e.sent ++ [.data elem true p] }

/-- What has been combined for an element leaves the rank: as the result where this rank completes the chunk, else to the
successor. -/
def CttEntry.pass (e : CttEntry) (elem : Nat) (p : CttPart) (obs : Nat) : CttEntry :=
  if e.desc.chunkOf elem == e.desc.myrank then e.keep elem (e.desc.result p obs)
  else { e with sent := e.sent ++ [.data elem false p] }

/-- Whether this rank completes an element. -/
def CttEntry.completes (e : CttEntry) (elem : Nat) : Bool := e.desc.chunkOf elem == e.desc.myrank

/-- Everything read for an element: its own contributions, and the observation where the result is due here. -/
def CttEntry.needs (e : CttEntry) (elem : Nat) : List (Nat × Nat) :=
  e.desc.contributions elem ++ (if e.completes elem then e.desc.observation elem else [])

/-- The ranges of the chunk that this rank starts. -/
def CttEntry.firstNeeds (e : CttEntry) : List (Nat × Nat) := (e.desc.elemsOf e.desc.myChunk).flatMap e.needs

/-- Whether a fired entry may read and send now. -/
def State.cttRuns (s : State) (e : CttEntry) : Bool :=
  e.st == .fired && e.pausedOn.isNone && !e.failed && (e.alone || (e.readySucc && s.neighbourOpen e.succ))

/-- The first data of an entry: the chunk that it starts. -/
def CttEntry.begin (e : CttEntry) (parts : List (List Byte)) : CttEntry :=
  (e.desc.elemsOf e.desc.myChunk).zipIdx.foldl (fun e x =>
    let per := (e.needs x.1).length
    let mine := (parts.drop (x.2 * per)).take per
    e.pass x.1 (e.desc.ownPart (mine.take e.desc.mpr)) (leNat ((mine.drop e.desc.mpr).headD [])))
    { e with started := true }

/-- An entry sends its first data where it can; none where it cannot yet. -/
def State.startCtt (s : State) (e : CttEntry) : Option State :=
  if e.started || !s.cttRuns e then none
  else match s.cttReads e e.firstNeeds with
    | .ok parts => some (s.putCtt (e.begin parts))
    | .error r => match r with
      | .fatal pa => some (s.fatalRegion e.ctx e.region 5 pa)
      | .wait s' => if s' == s then none else some s'
      | .bad _ _ _ => none
      | .ok _ => none

/-- Whether the flag of an armed entry equals its fire value at the serving copy. -/
def State.flagUp (s : State) (e : CttEntry) : Bool :=
  match (s.translate none (dieOfCluster e.cluster) e.ctx e.desc.flag).access .read e.desc.flag with
  | .fail _ _ _ _ => false
  | .ok ea l => match l.place ea with
    | .dev a => (s.placeGate (.dev a) 8).isNone && !s.anyPoison a 8 && s.devLE a 8 == e.fireVal
    | .peer _ _ => false
    | .host _ _ => false

/-- CTT_FIRE: the flag reaches FIREVAL; READY goes to the predecessor, and the first data to a successor that is ready. Of an
entry that has fired: its first data, once it can be read and sent. -/
def execCttFire (entry : Nat) (s : State) : Host.Outcome State Fault Refusal :=
  eventOf s "CTT_FIRE"
    (match s.ctt? entry with
     | none => none
     | some e =>
       if e.st == .armed then
         (if s.flagUp e then
           let f := { e with st := CttState.fired, delivBytes := 0, sent := if e.alone then [] else [CttMsg.ready] }
           let s1 := s.putCtt f
           some ((s1.startCtt f).getD s1)
         else none)
       else s.startCtt e)
    (fun s' => s')

/-- CTT_READY_RECEIVE: READY of the successor; parameters that differ fail the entry with ERR 6. -/
def execCttReadyReceive (entry : Nat) (ready : CttReady) (s : State) : Host.Outcome State Fault Refusal :=
  eventOf s "CTT_READY_RECEIVE"
    (match s.ctt? entry with
     | none => none
     | some e =>
       if e.alone || e.readySucc || ready.gid != e.desc.gid || !(e.st == .armed || e.st == .fired) || !s.neighbourOpen e.succ then none
       else if ready != e.ready then some (s.failCtt e 6)
       else
         let f := { e with readySucc := true }
         let s1 := s.putCtt f
         some ((s1.startCtt f).getD s1))
    (fun s' => s')

/-- Whether a data message for an element is due at this rank. -/
def CttEntry.due (e : CttEntry) (elem : Nat) (gather : Bool) : Bool :=
  let c := e.desc.chunkOf elem
  decide (elem < e.desc.count) && !e.results.any (fun r => r.1 == elem) &&
  (if gather then c != e.desc.myrank
   else e.desc.startOf c != e.desc.myrank && !e.sent.any (fun m => match m with
     | .data x g _ => x == elem && !g
     | .ready => false
     | .abort => false))

/-- A gathered result kept, and sent on unless the successor is the rank that completed it. -/
def CttEntry.gathered (e : CttEntry) (elem : Nat) (p : CttPart) : CttEntry :=
  { e with results := e.results ++ [(elem, p)],
           sent := if (e.desc.myrank + 1) % e.desc.nrank == e.desc.chunkOf elem then e.sent else e.sent ++ [.data elem true p] }

/-- A partial result received for an element, its own contributions read. -/
def State.reduceCtt (s : State) (e : CttEntry) (elem : Nat) (p : CttPart) : Option State :=
  match s.cttReads e (e.needs elem) with
  | .ok parts =>
    some (s.putCtt (e.pass elem (e.desc.combine p (parts.take e.desc.mpr)) (leNat ((parts.drop e.desc.mpr).headD []))))
  | .error r => match r with
    | .fatal pa => some (s.fatalRegion e.ctx e.region 5 pa)
    | .wait s' => if s' == s then none else some s'
    | .bad _ _ _ => none
    | .ok _ => none

/-- CTT_DATA_RECEIVE: a partial result is combined and passed on, a final one is kept and passed on; a malformed CXF fails
the entry with ERR 3. -/
def execCttDataReceive (entry element : Nat) (gather : Bool) (part : CttPart) (s : State) : Host.Outcome State Fault Refusal :=
  eventOf s "CTT_DATA_RECEIVE"
    (match s.ctt? entry with
     | none => none
     | some e =>
       if e.alone || !s.cttRuns e || !e.started || !s.neighbourOpen e.pred || !e.due element gather then none
       else match e.desc.accept gather part with
         | .wrong => none
         | .malformed => some (s.failCtt e 3)
         | .ok p => if gather then some (s.putCtt (e.gathered element p)) else s.reduceCtt e element p)
    (fun s' => s')

/-- CTT_ABORT_RECEIVE: ABORT of a ring neighbour. -/
def execCttAbortReceive (entry : Nat) (s : State) : Host.Outcome State Fault Refusal :=
  eventOf s "CTT_ABORT_RECEIVE" ((s.ctt? entry).filter (fun e => e.st == .fired && !e.alone)) (fun e => s.failCtt e 2)

/-! ## Results (R404, R405, R412) -/

/-- The bytes of an element's result in plane 0 or 1. -/
def CttDesc.resultImage (d : CttDesc) (plane : Nat) (p : CttPart) : List Byte :=
  match p with
  | .value x => if d.op == 5 then leBytes 4 (x.toNat / 2 ^ (32 * plane)) else leBytes d.outWidth x.toNat
  | .exact bs => leBytes 288 (xaImage ((cxfRead bs).getD Xa.zero))
  | .members _ => []

/-- The result of an element. -/
def CttEntry.result? (e : CttEntry) (elem : Nat) : Option CttPart := (e.results.find? (fun r => r.1 == elem)).map (·.2)

/-- The count of a bin of RANKH. -/
def CttEntry.binCount (e : CttEntry) (bin : Nat) : Nat := (e.results.filter (fun r => r.2 == .value (BitVec.ofNat 64 (bin + 1)))).length

/-- One result byte, once it is known (R406). -/
def CttEntry.resultByte (e : CttEntry) (i : Nat) : Option Byte :=
  let d := e.desc
  if d.op == 7 then (if e.results.length == d.count then (leBytes 4 (e.binCount (i / 4)))[i % 4]? else none)
  else
    let w := d.outWidth
    let elem := i / w % d.count
    (e.result? elem).bind (fun p => (d.resultImage (i / w / d.count) p)[i % w]?)

/-- A result unit of R218: 16 bytes, the last one perhaps fewer. -/
def CttEntry.unitLen (e : CttEntry) (part : Nat) : Nat := min 16 (e.desc.resultBytes - 16 * part)

/-- The bytes of a result unit, once all are known. -/
def CttEntry.unitBytes (e : CttEntry) (part : Nat) : Option (List Byte) :=
  let bs := (List.range (e.unitLen part)).filterMap (fun j => e.resultByte (16 * part + j))
  if bs.length == e.unitLen part && bs != [] then some bs else none

/-- How many result units there are. -/
def CttDesc.units (d : CttDesc) : Nat := (d.resultBytes + 15) / 16

/-- Whether a run that the entry delivers into is saved, so that its deliveries are held (R282). -/
def State.cttHeld (s : State) (e : CttEntry) : Bool :=
  (match e.dstGen with
   | some n => s.runSaved n
   | none => false) ||
  (match e.barGen with
   | some n => s.runSaved n
   | none => false)

/-- Whether the links to both neighbours carry traffic, without which transfers pause (R411). -/
def State.ringOpen (s : State) (e : CttEntry) : Bool := e.alone || (s.neighbourOpen e.pred && s.neighbourOpen e.succ)

/-- A result unit that the entry may deliver now. -/
def State.cttUnit (s : State) (entry part : Nat) : Option (CttEntry × List Byte) :=
  match s.ctt? entry with
  | none => none
  | some e =>
    if e.st != .fired || e.pausedOn.isSome || e.failed || e.delivered.contains part || s.cttHeld e || !s.ringOpen e then none
    else (e.unitBytes part).map (fun bs => (e, bs))

/-- The places of a result unit in memory, or how its translation fails. -/
def State.cttSide (s : State) (e : CttEntry) (part n : Nat) : Except (XFail × Nat × Nat) Side :=
  s.side [] e.cluster e.ctx .write (e.dstEnd.plus (16 * part)) n

/-- A unit written and counted. -/
def State.countUnit (s : State) (e : CttEntry) (part n : Nat) : State :=
  (s.putCtt { e with delivered := e.delivered ++ [part], delivBytes := e.delivBytes + n }).sendCount e.gen none e.barRef n

/-- A unit that is dropped: neither written nor counted. -/
def State.dropUnit (s : State) (e : CttEntry) (part : Nat) : State := s.putCtt { e with delivered := e.delivered ++ [part] }

/-- The delivery of one unit. -/
def State.deliverResult (s : State) (e : CttEntry) (part : Nat) (bs : List Byte) : Option State :=
  match s.cttSide e part bs.length with
  | .error x => if x.1 == .held then s.entryStep x.2.2 else none
  | .ok (.sram c o) =>
    some (if e.dstGen.any (fun n => s.runLive c o n) then (s.engineSram c o bs).countUnit e part bs.length else s.dropUnit e part)
  | .ok (.mem ps) => match s.way [] ps 4 with
    | .go => some ((s.writePlaces e.core ps bs).countUnit e part bs.length)
    | .wait => none
    | .back s' => some s'
    | .lost p => some ((s.dropUnit e part).countDiscard (s.downLink p).1)
    | .refused _ => some (s.dropUnit e part)
    | .poison _ => none

/-- Whether an entry has delivered every unit and no count of it is under way. -/
def State.cttFinished (s : State) (e : CttEntry) : Bool :=
  e.st == .fired && e.delivered.length == e.desc.units && !s.eng.counts.any (fun m => m.src == e.gen)

/-- DONE, and ARMED again with the next fire value under REARM (R403). -/
def CttEntry.finish (e : CttEntry) : CttEntry :=
  { e with st := if e.desc.rearm then .armed else .done,
           fireVal := if e.desc.rearm then (e.fireVal + 1) % 2 ^ 64 else e.fireVal,
           readySucc := false, started := false, results := [], sent := [], delivered := [] }

/-- CTT_RESULT_DELIVER: a result unit written and counted; the last one whose counts have all arrived makes the entry DONE. With
every unit delivered, the step in which the last count has arrived. -/
def execCttResultDeliver (entry part : Nat) (s : State) : Host.Outcome State Fault Refusal :=
  let close := fun (t : State) => match t.ctt? entry with
    | some e => if t.cttFinished e then t.putCtt e.finish else t
    | none => t
  eventOf s "CTT_RESULT_DELIVER"
    (match s.cttUnit entry part with
     | some (e, bs) => (s.deliverResult e part bs).map close
     | none => match s.ctt? entry with
       | some e => if s.cttFinished e then some (s.putCtt e.finish) else none
       | none => none)
    (fun s' => s')

/-! ## Failures (R411) -/

/-- The addresses that an entry wants to read now: those of its first data, or those of some element due here. -/
def CttEntry.wants (e : CttEntry) : List (Nat × Nat) :=
  if !e.started then e.firstNeeds
  else ((List.range e.desc.count).filter (fun x => e.due x false)).flatMap e.needs

/-- How a fired entry's translation of an address fails, if it does: a read that it wants, a unit that it may write. -/
def State.cttMiss (s : State) (e : CttEntry) (va : Nat) : Option (XFail × Nat × Nat × Access) :=
  match e.wants.find? (fun r => decide (r.1 ≤ va) && decide (va < r.1 + r.2)) with
  | some r => match s.cttRead e r.1 r.2 with
    | .bad f ea level => some (f, ea, level, .read)
    | .ok _ => none
    | .fatal _ => none
    | .wait _ => none
  | none =>
    if e.desc.dspace || va < e.desc.dst then none
    else
      let part := (va - e.desc.dst) / 16
      match s.cttUnit e.index part with
      | none => none
      | some (f, bs) => match s.cttSide f part bs.length with
        | .error x => if x.1 == .held then none else some (x.1, x.2.1, x.2.2, .write)
        | .ok _ => none

/-- A failed translation of a fired entry: V = 0 pauses it on a fault entry, anything else fails it with ERR 5. -/
def State.cttTranslation (s : State) (e : CttEntry) (va : Nat) : Option State :=
  match s.cttMiss e va with
  | none => none
  | some (f, ea, level, a) =>
    if f != .absent then some (s.failCtt e 5)
    else
      let base := baseOfDie (dieOfCluster e.cluster)
      let r := s.attach base e.ctx ea (a.code + level * 4 + 32 + 64 + e.cluster * 2 ^ 8 + e.region * 2 ^ 38) e.record
      r.2.map (fun i => r.1.putCtt { e with pausedOn := some (r.1.pfe base i).token })

/-- CTT_FAILURE: a fired entry meets a lost route, a translation that fails, or the resolution FAIL of one (ERR 4). -/
def execCttFailure (entry : Nat) (why : CttFail) (s : State) : Host.Outcome State Fault Refusal :=
  eventOf s "CTT_FAILURE"
    (match (s.ctt? entry).filter (fun e => e.st == .fired) with
     | none => none
     | some e => match why with
       | .routeLost => if s.ringCut e then some (s.failCtt e 1) else none
       | .translation va =>
         if e.failed then some (s.failCtt e 4)
         else if e.pausedOn.isSome || !(e.alone || e.readySucc) then none
         else s.cttTranslation e va)
    (fun s' => s')

end Sys2Proof.Machine
end

