-- ==== Sys2Proof/Machine/Manage.lean ====
section
/-! DEFINITION. The management controller (spec file 19, R26): resets and the boot sequence, firmware, attestation, the
registers of BAR0, policy requests, the governor, errors of the device's own state. -/

namespace Sys2Proof.Machine

/-! ## Firmware images (R450) -/

/-- The bytes of an image: the window of 16 MiB but for the COMMIT word. -/
def imageBytes (i : Image) : List Byte := i.readN 0 (2 ^ 24 - 8)

/-- Whether an image is accepted. -/
def imageOk (i : Image) : Bool :=
  Config.verifyImage (imageBytes i) && decide (Config.minSvn ≤ Config.imageSvn (imageBytes i)) && Config.imageClassOk (imageBytes i)

/-- The image of a flash slot. -/
def Mgmt.flash (m : Mgmt) (slot : Bool) : Image := if slot then m.flash1 else m.flash0

/-! ## Resets (R446 to R448) -/

/-- A port after a device reset: its configuration for PCIe or CXL is the host driver's and stays. -/
def Port.cleared (p : Port) : Port := { Port.reset p.id with mode := p.mode }

/-- The device right after a device reset: what stays is the flash, the boot count, the memories of hosts and peers, and the
model's own fields. -/
def State.afterReset (s : State) : State :=
  { State.reset with
    agenda := s.agenda, rr := s.rr, freeCtr := s.freeCtr,
    ms := { MemSys.reset with hostMem := s.ms.hostMem, peerMem := s.ms.peerMem },
    fab := { Fabric.reset with peerDeny := s.fab.peerDeny },
    mgmt := { Mgmt.reset with
      ports := s.mgmt.ports.map Port.cleared, flash0 := s.mgmt.flash0, flash1 := s.mgmt.flash1, fwNext := s.mgmt.fwNext,
      bootCount := s.mgmt.bootCount + 1 } }

/-- Steps 1 to 4 of the boot sequence: the boot ROM takes the slot named, else the other one, else the device stays in FATAL
with FWERR. -/
def State.bootRom (s : State) : State :=
  let run := fun (slot : Bool) =>
    ({ s with mgmt := { s.mgmt with fwSlot := slot, fwImage := s.mgmt.flash slot } } : State)
  if imageOk (s.mgmt.flash s.mgmt.fwNext) then run s.mgmt.fwNext
  else if imageOk (s.mgmt.flash !s.mgmt.fwNext) then run !s.mgmt.fwNext
  else { s with mgmt := { s.mgmt with devState := .fatal, fwErr := true } }

/-- POWER_ON_RESET. -/
def execPowerOnReset (s : State) : Host.Outcome State Fault Refusal := .next s.afterReset.bootRom

/-- A port's registers changed. -/
def State.setPort (s : State) (port : Nat) (f : Port → Port) : State :=
  { s with mgmt := { s.mgmt with ports := s.mgmt.ports.map (fun p => if p.id == port then f p else p) } }

/-- A port by number. -/
def State.port? (s : State) (port : Nat) : Option Port := s.mgmt.ports.find? (fun p => p.id == port)

/-- Whether a device reset by a port is accepted: the other port allows it, or owns no context in LIVE or FENCED (R447). -/
def State.resetAllowed (s : State) (port : Nat) : Bool :=
  (s.port? (1 - port)).any (fun p => p.rstAllow) || !s.sched.ctxs.any (fun x => x.port == 1 - port && x.st != .draining)

/-- DEVRST: it acts on a FATAL device too. A word without GO has no effect. -/
def execDevrst (port : Nat) (word : BitVec 64) (s : State) : Host.Outcome State Fault Refusal :=
  if (s.port? port).isNone then .refused (.eventNotEnabled "DEVRST")
  else if !word.getLsbD 0 then .next s
  else if s.resetAllowed port then .next s.afterReset.bootRom
  else .next (s.setPort port (fun p => { p with rstRef := true }))

/-- PORT_RESET: the port's contexts drain, its registers are reset (R446). -/
def execPortReset (port : Nat) (s : State) : Host.Outcome State Fault Refusal :=
  event s "PORT_RESET" (s.port? port).isSome ((s.drainPort port).setPort port Port.cleared)

/-- The settings that firmware makes at step 5. -/
def State.configure (s : State) (c : BootConfig) : State :=
  let s1 := { s with fab := { s.fab with
    devId := c.devId % 256, routes := c.routes.map (fun r => (r.1 % 256, r.2 % 65536)),
    exports := c.exports.zipIdx.map (fun e => (e.2, e.1)), pwgt := c.pwgt.map (fun w => (w.1, w.2.1 % 256, w.2.2 % 256)) } }
  c.vbts.foldl (fun t v => if v.1 < 256 then t.writeVbt { bus := v.1, rate := v.2.1 % 4, trim := v.2.2 % 256 } else t) s1

/-- Whether the vertical buses and the base-to-base link have trained, or failed to. -/
def State.trainingDone (s : State) : Bool :=
  !s.fab.links.any (fun l => (decide (l.id < 256) || l.id == 0x180) && l.st == .training)

/-- BOOT_READY: steps 5 to 7. A part with a die that no bus serves, or with the base-to-base link DOWN, ends in FATAL. -/
def execBootReady (config : BootConfig) (s : State) : Host.Outcome State Fault Refusal :=
  event s "BOOT_READY"
    (s.mgmt.devState == .boot && s.trainingDone && decide (config.exports.length ≤ 64))
    (let s1 := s.configure config
     if s1.mgmt.devState == .fatal then s1
     else if s1.linkDead 0x180 || (List.range 8).any s1.dieCut then s1.enterFatal
     else { s1 with mgmt := { s1.mgmt with devState := .ready } })

/-- WATCHDOG_EXPIRY: 2^30 cycles of the management controller have passed since step 4 (R451). -/
def execWatchdogExpiry (s : State) : Host.Outcome State Fault Refusal :=
  event s "WATCHDOG_EXPIRY" (decide (2 ^ 30 ≤ s.clock .mc - s.mgmt.watchdog)) s.enterFatal

/-- The firmware's answer to COMMIT: a staged image that is accepted goes into the inactive slot and takes effect at the next
reset. -/
def State.commitImage (s : State) : State :=
  if imageOk s.mgmt.fwStage then
    { s with mgmt := { s.mgmt with
      flash0 := if s.mgmt.fwSlot then s.mgmt.fwStage else s.mgmt.flash0,
      flash1 := if s.mgmt.fwSlot then s.mgmt.flash1 else s.mgmt.fwStage,
      fwNext := !s.mgmt.fwSlot } }
  else s

/-- A write of the COMMIT word: the word reads back (R4, R459), and its bit 0 asks the firmware, which runs while the device is READY. -/
def State.writeCommit (s : State) (word : Word64) : State :=
  let s1 := { s with mgmt := { s.mgmt with fwCommit := word } }
  if word.getLsbD 0 && s.mgmt.devState == .ready then s1.commitImage else s1

/-- FIRMWARE_COMMIT: a host sets FWSTAGE.COMMIT and the firmware takes the staged image. -/
def execFirmwareCommit (s : State) : Host.Outcome State Fault Refusal :=
  event s "FIRMWARE_COMMIT" (s.mgmt.devState == .ready) (s.writeCommit (s.mgmt.fwCommit ||| 1))

/-! ## Attestation (R452, R453) -/

/-- The request that a write of ATTREQ word 0 makes. -/
def Port.request (p : Port) (word : BitVec 64) : AttReq :=
  { port := p.id, tag := bitsAt p.attW1.toNat 32 16, addr := word.toNat / 64 * 64, nonce := p.attNonce.readN 0 64,
    bad := bitsAt p.attW1.toNat 0 32 != 0 || bitsAt p.attW1.toNat 48 16 != 0 }

/-- ATTESTATION_SUBMIT: queued, or dropped with CMDOVF where 8 requests of the port wait. -/
def execAttestationSubmit (port : Nat) (word : BitVec 64) (s : State) : Host.Outcome State Fault Refusal :=
  eventOf s "ATTESTATION_SUBMIT" (if s.mgmt.devState == .ready then s.port? port else none) fun p =>
    if 8 ≤ (s.mgmt.attQueue.filter (fun r => r.port == port)).length then s.setPort port (fun q => { q with cmdOvf := true })
    else { s with mgmt := { s.mgmt with attQueue := s.mgmt.attQueue ++ [p.request word] } }

/-- The registers of DEVID, Route, Export and PWGT in the order of their addresses, as the bytes that CFGDIGEST covers
(log 23). -/
def Fabric.config (f : Fabric) : List Byte :=
  leBytes 8 f.devId ++
  (List.range 16).flatMap (fun i => leBytes 8 (let w := lookupD (1, 1) f.pwgt i; w.1 + 256 * w.2)) ++
  (List.range 256).flatMap (fun i => leBytes 8 (lookupD 0 f.routes i)) ++
  (List.range 64).flatMap (fun i => let e := lookupD (0, 0) f.exports i; leBytes 8 e.1.toNat ++ leBytes 8 e.2.toNat)

/-- Bytes cut or filled with zeros to a length. -/
def fitBytes (n : Nat) (bs : List Byte) : List Byte := bs.take n ++ List.replicate (n - bs.length) 0

/-- Bytes 0 to 235 of a report. -/
def State.reportHead (s : State) : List Byte :=
  leBytes 8 1 ++ leBytes 16 Config.serial ++ leBytes 4 Config.romVersion ++
  leBytes 4 (Config.imageSvn (imageBytes s.mgmt.fwImage)) ++ leBytes 8 s.mgmt.bootCount ++
  fitBytes 64 (Config.sha512 (imageBytes s.mgmt.fwImage)) ++ fitBytes 132 (Config.akPub s.mgmt.bootCount)

/-- Bytes 0 to 495: the endorsement, the digest of the configuration, the nonce. -/
def State.reportBody (s : State) (nonce : List Byte) : List Byte :=
  s.reportHead ++ fitBytes 132 (Config.dikSign s.reportHead) ++ fitBytes 64 (Config.sha512 s.fab.config) ++ fitBytes 64 nonce

/-- The 640 bytes of a report. -/
def State.report (s : State) (nonce : List Byte) : List Byte :=
  s.reportBody nonce ++ fitBytes 132 (Config.ecdsaSign s.mgmt.bootCount (s.reportBody nonce)) ++ List.replicate 12 0

/-- ATTESTATION_REPORT: the oldest request served: its report, then its status word; outcome 6 and no report for a bad one. -/
def execAttestationReport (s : State) : Host.Outcome State Fault Refusal :=
  eventOf s "ATTESTATION_REPORT"
    (s.mgmt.attQueue.head?.filter (fun r => s.linkCarries (0x300 + r.port) || s.linkDead (0x300 + r.port))) fun r =>
    let s1 := { s with mgmt := { s.mgmt with attQueue := s.mgmt.attQueue.tail } }
    if r.bad then s1.reply (r.port, r.tag) 6
    else if s.linkDead (0x300 + r.port) then s1
    else (s1.serveAt (.host r.port r.addr) (s1.report r.nonce)).reply (r.port, r.tag) 0

/-! ## Policy and power (R26, R413, R414, R449) -/

/-- A setting changed by firmware. -/
def State.applyPolicy (s : State) (c : PolicyChange) : State :=
  match c with
  | .refuse => s
  | .devId n => { s with fab := { s.fab with devId := n % 256 } }
  | .route peer mask => ({ s with fab := { s.fab with routes := assign s.fab.routes (peer % 256) (mask % 65536) } } : State).reroute
  | .exportEntry n w0 w1 => { s with fab := { s.fab with exports := assign s.fab.exports (n % 64) (w0, w1) } }
  | .pwgt port few lsw => { s with fab := { s.fab with pwgt := assign s.fab.pwgt (port % 16) (few % 256, lsw % 256) } }
  | .govCap w => { s with mgmt := { s.mgmt with govCap := w % 65536 } }

/-- POLICY_REQUEST: applied or refused, and logged with the request's number and the outcome, 0 applied and 1 refused
(log 24). -/
def execPolicyRequest (request : Nat) (change : PolicyChange) (s : State) : Host.Outcome State Fault Refusal :=
  event s "POLICY_REQUEST" (s.mgmt.devState == .ready)
    ((s.applyPolicy change).logUnit 4 13 0 0 (request % 2 ^ 32 + (if change == .refuse then 2 ^ 32 else 0)))

/-- A link's cap in thousandths of its full rate: at least an eighth (R414). -/
def capOf (x : Nat) : Nat := max 125 (min x 1000)

/-- The rate at which a link runs, in thousandths: the lower of the governor's cap and the limiter's (R26). -/
def Fabric.linkRate (f : Fabric) (l : Nat) : Nat := min (lookupD 1000 f.linkCaps l) (lookupD 1000 f.linkLimits l)

/-- GOVERNOR_TICK: the shares of the budget's tokens in thousandths, and the links' caps; what the limiter allows stays. -/
def execGovernorTick (me link : Nat) (caps : List (Nat × Nat)) (s : State) : Host.Outcome State Fault Refusal :=
  event s "GOVERNOR_TICK"
    (s.mgmt.devState == .ready && decide (me + link ≤ 1000) && caps.all (fun c => linkIds.contains c.1))
    { s with
      mgmt := { s.mgmt with govMe := me, govLink := link },
      fab := { s.fab with linkCaps := caps.foldl (fun l c => assign l c.1 (capOf c.2)) s.fab.linkCaps } }

/-- SAFETY_LIMIT: the limiter lowers the core's matrix issue first, then the links; both are logged and counted. -/
def execSafetyLimit (core : Nat) (s : State) : Host.Outcome State Fault Refusal :=
  let s1 := { s with mgmt := { s.mgmt with govActions := (s.mgmt.govActions + 1) % 2 ^ 32 } }
  event s "SAFETY_LIMIT" (decide (core < 256))
    ((if s.mgmt.meThrottle.contains core then
      { s1 with fab := { s1.fab with linkLimits := linkIds.map (fun l => (l, 125)) } }
     else { s1 with mgmt := { s1.mgmt with meThrottle := s1.mgmt.meThrottle ++ [core] } }).logUnit 4 12 core 0 0)

/-! ## BAR0 (R459 to R461) -/

/-- A write of a register with no behaviour of its own; a register that the host may not write ignores it. -/
def State.writeRegister (s : State) (port off : Nat) (word : BitVec 64) : State :=
  let w := word.toNat
  if off == 0 then s.setPort port (fun p => { p with rstRef := p.rstRef && !w.testBit 4, cmdOvf := p.cmdOvf && !w.testBit 5 })
  else if off == 0x18 then s.setPort port (fun p => { p with rstAllow := w.testBit 0 })
  else if off == 0x108 then s.setPort port (fun p => { p with cmdW1 := word })
  else if off == 0x110 then s.setPort port (fun p => { p with statBase := w / 8 * 8 })
  else if 0x200 ≤ off && off < 0x240 then s.setPort port (fun p => { p with attNonce := p.attNonce.writeLE (off - 0x200) 8 w })
  else if off == 0x248 then s.setPort port (fun p => { p with attW1 := word })
  else if off == 0x1008 then { s with mgmt := { s.mgmt with errCons := w } }
  else if 0x2000 ≤ off && off < 0x3000 then { s with mgmt := { s.mgmt with polReq := s.mgmt.polReq.writeLE (off - 0x2000) 8 w } }
  else if 0x102000 ≤ off && off < 0x104000 then
    s.setLink ((off - 0x102000) / 8) (fun l => { l with retwin := if w % 2 ^ 24 == 0 then 4000 else w % 2 ^ 24 })
  else if 0x1000000 ≤ off && off < 0x1FFFFF8 then
    { s with mgmt := { s.mgmt with fwStage := s.mgmt.fwStage.writeLE (off - 0x1000000) 8 w } }
  else s

/-- A step taken where it can be, and nothing where it cannot. -/
def State.orStay (s : State) (o : Host.Outcome State Fault Refusal) : State :=
  match o with
  | .next t => t
  | .fault _ => s
  | .refused _ => s

/-- A host's write of eight bytes at an offset of BAR0. The registers whose writes the table has as steps of their own do what
those steps do; where no register stands, and before step 7, the write has no effect (R448; log 48). -/
def State.bar0Write (s : State) (port off : Nat) (word : BitVec 64) : State :=
  if off == 0x10 then s.orStay (execDevrst port word s)
  else if s.mgmt.devState == .boot || off % 8 != 0 then s
  else if off == 0x100 then s.orStay (execCtxcmdSubmit port word s)
  else if off == 0x118 then s.orStay (execQdoorbell port (word.toNat % 1024) s)
  else if off == 0x240 then s.orStay (execAttestationSubmit port word s)
  else if off == 0x1FFFFF8 then s.writeCommit word
  else s.writeRegister port off word

/-- REGISTER_WRITE: a host's write of eight bytes in BAR0. -/
def execRegisterWrite (port offset : Nat) (word : BitVec 64) (s : State) : Host.Outcome State Fault Refusal :=
  if (s.port? port).isSome then .next (s.bar0Write port offset word)
  else .refused (.eventNotEnabled "REGISTER_WRITE")

/-- DEVSTAT.STATE (R461). -/
def DevState.code : DevState → Nat
  | .boot => 0
  | .ready => 1
  | .fatal => 2

/-- DEVSTAT in a port's view. -/
def State.devstat (s : State) (port : Nat) : Nat :=
  let p := s.port? port
  s.mgmt.devState.code + 4 * s.mgmt.fwSlot.toNat + 8 * s.mgmt.fwErr.toNat + 16 * (p.any (fun q => q.rstRef)).toNat +
    32 * (p.any (fun q => q.cmdOvf)).toNat

/-- A word of the error log's ring. -/
def State.errLogWord (s : State) (i : Nat) : Nat :=
  let r := lookupD (0, 0, 0, 0) s.mgmt.errLog (i / 4)
  match i % 4 with
  | 0 => r.1.toNat
  | 1 => r.2.1.toNat
  | 2 => r.2.2.1.toNat
  | _ => r.2.2.2.toNat

/-- The registers that are only written: a read returns zero (R4). -/
def writeOnly (off : Nat) : Bool :=
  [0x10, 0x100, 0x108, 0x118, 0x240, 0x248].contains off || (decide (0x200 ≤ off) && decide (off < 0x240))

/-- What a host reads at an offset of BAR0; none where no register stands, and before step 7 for all but DEVSTAT (R448, R459). -/
def State.bar0Read (s : State) (port off : Nat) : Option Nat :=
  if off == 0 then some (s.devstat port)
  else if s.mgmt.devState == .boot then none
  else if writeOnly off then some 0
  else if off == 0x8 then some s.fab.devId
  else if off == 0x18 then some ((s.port? port).any (fun p => p.rstAllow)).toNat
  else if off == 0x110 then some (s.statBase port)
  else if off == 0x1000 then some s.mgmt.errProd
  else if off == 0x1008 then some s.mgmt.errCons
  else if off == 0x1010 then some s.mgmt.errLost
  else if 0x2000 ≤ off && off < 0x3000 then some (s.mgmt.polReq.readLE (off - 0x2000) 8)
  else if 0x10000 ≤ off && off < 0x18000 then some (s.errLogWord ((off - 0x10000) / 8))
  else if 0x100000 ≤ off && off < 0x102000 then (s.link? ((off - 0x100000) / 8)).map Link.lstat
  else if 0x102000 ≤ off && off < 0x104000 then (s.link? ((off - 0x102000) / 8)).map (fun l => l.retwin)
  else if 0x104000 ≤ off && off < 0x104800 then
    some (let v := s.vbtOf ((off - 0x104000) / 8); v.rate + 256 * v.trim)
  else if 0x105000 ≤ off && off < 0x105080 then some (let w := lookupD (1, 1) s.fab.pwgt ((off - 0x105000) / 8); w.1 + 256 * w.2)
  else if 0x110000 ≤ off && off < 0x110800 then some (lookupD 0 s.fab.routes ((off - 0x110000) / 8))
  else if 0x111000 ≤ off && off < 0x111400 then
    some (let e := lookupD (0, 0) s.fab.exports ((off - 0x111000) / 16); if (off / 8) % 2 == 0 then e.1.toNat else e.2.toNat)
  else if 0x200000 ≤ off && off < 0x202000 && off % 64 < 48 then
    some ((lookupD [] s.ms.llcCounters ((off - 0x200000) / 64)).getD (off % 64 / 8) 0)
  else if off == 0x300000 then some (s.mgmt.govMe + s.mgmt.govLink * 2 ^ 16 + s.mgmt.govActions * 2 ^ 32)
  else if off == 0x300008 then some s.mgmt.govCap
  else if off == 0x1FFFFF8 then some s.mgmt.fwCommit.toNat
  else if 0x1000000 ≤ off && off < 0x1FFFFF8 then some (s.mgmt.fwStage.readLE (off - 0x1000000) 8)
  else if 0x2000000 ≤ off && off < 0x2001000 then some (leNat ((Config.dikCert.drop (off - 0x2000000)).take 8))
  else none

/-! ## Errors of the device's state (R91, R454) -/

/-- SINGLE_BIT_ECC: corrected and logged. -/
def execSingleBitEcc (unit addr : Nat) (s : State) : Host.Outcome State Fault Refusal :=
  event s "SINGLE_BIT_ECC" (decide (unit < 1024)) (s.logUnit 0 1 unit addr 0)

/-- UNCORRECTABLE_STATE_ERROR: in registers, tile slots, accumulator banks or scratch of a group's unit; fatal to the group's
region whatever FPOL holds (R91). -/
def execUncorrectableStateError (core slot : Nat) (s : State) : Host.Outcome State Fault Refusal :=
  eventOf s "UNCORRECTABLE_STATE_ERROR" ((s.group? core slot).bind s.launchOf) (fun l => s.fatalRegion l.ctx l.region 1 0)

/-- UNCORRECTABLE_CONTROL_STATE_ERROR: in walker, scheduler or barrier-unit state; fatal to the device (R454). -/
def execUncorrectableControlStateError (unit : Nat) (s : State) : Host.Outcome State Fault Refusal :=
  event s "UNCORRECTABLE_CONTROL_STATE_ERROR" (decide (unit < 1024)) (s.logUnit 3 1 unit 0 0).enterFatal

end Sys2Proof.Machine
end

