-- ==== Sys2Proof/Machine/Dispatch.lean ====
section
/-! DEFINITION. One arm per constructor of Instr: the meaning of each instruction and event. -/

namespace Sys2Proof.Machine

/-- What an instruction or event does to the machine. -/
def exec (i : Instr) (s : State) : Host.Outcome State Fault Refusal :=
  match i with
  | .vaddI32 d a b => Sys2Proof.Machine.execVaddI32 d a b s
  | .vsubI32 d a b => Sys2Proof.Machine.execVsubI32 d a b s
  | .vmulI32 d a b => Sys2Proof.Machine.execVmulI32 d a b s
  | .vmulhI32 d a b => Sys2Proof.Machine.execVmulhI32 d a b s
  | .vmulhN32 d a b => Sys2Proof.Machine.execVmulhN32 d a b s
  | .vminI32 d a b => Sys2Proof.Machine.execVminI32 d a b s
  | .vmaxI32 d a b => Sys2Proof.Machine.execVmaxI32 d a b s
  | .vaddI64 d a b => Sys2Proof.Machine.execVaddI64 d a b s
  | .vshl d a b => Sys2Proof.Machine.execVshl d a b s
  | .vshr d a b => Sys2Proof.Machine.execVshr d a b s
  | .vsar d a b => Sys2Proof.Machine.execVsar d a b s
  | .vand d a b => Sys2Proof.Machine.execVand d a b s
  | .vor d a b => Sys2Proof.Machine.execVor d a b s
  | .vxor d a b => Sys2Proof.Machine.execVxor d a b s
  | .vbfx d a b => Sys2Proof.Machine.execVbfx d a b s
  | .vsubI64 d a b => Sys2Proof.Machine.execVsubI64 d a b s
  | .vcmpEqI32 p a b => Sys2Proof.Machine.execVcmpEqI32 p a b s
  | .vcmpNeI32 p a b => Sys2Proof.Machine.execVcmpNeI32 p a b s
  | .vcmpLtI32 p a b => Sys2Proof.Machine.execVcmpLtI32 p a b s
  | .vcmpLeI32 p a b => Sys2Proof.Machine.execVcmpLeI32 p a b s
  | .vcmpLtN32 p a b => Sys2Proof.Machine.execVcmpLtN32 p a b s
  | .vcmpLeN32 p a b => Sys2Proof.Machine.execVcmpLeN32 p a b s
  | .vcmpEqI64 p a b => Sys2Proof.Machine.execVcmpEqI64 p a b s
  | .vcmpLtI64 p a b => Sys2Proof.Machine.execVcmpLtI64 p a b s
  | .vaddi d a y => Sys2Proof.Machine.execVaddi d a y s
  | .vandi d a y => Sys2Proof.Machine.execVandi d a y s
  | .vori d a y => Sys2Proof.Machine.execVori d a y s
  | .vxori d a y => Sys2Proof.Machine.execVxori d a y s
  | .vshli d a n => Sys2Proof.Machine.execVshli d a n s
  | .vshri d a n => Sys2Proof.Machine.execVshri d a n s
  | .vsari d a n => Sys2Proof.Machine.execVsari d a n s
  | .vroli d a n => Sys2Proof.Machine.execVroli d a n s
  | .vpopc d a => Sys2Proof.Machine.execVpopc d a s
  | .vclz d a => Sys2Proof.Machine.execVclz d a s
  | .vbrev d a => Sys2Proof.Machine.execVbrev d a s
  | .vcmpiEq p a y => Sys2Proof.Machine.execVcmpiEq p a y s
  | .vcmpiNe p a y => Sys2Proof.Machine.execVcmpiNe p a y s
  | .vcmpiLtI32 p a y => Sys2Proof.Machine.execVcmpiLtI32 p a y s
  | .vcmpiLeI32 p a y => Sys2Proof.Machine.execVcmpiLeI32 p a y s
  | .vcmpiGtI32 p a y => Sys2Proof.Machine.execVcmpiGtI32 p a y s
  | .vcmpiGeI32 p a y => Sys2Proof.Machine.execVcmpiGeI32 p a y s
  | .vcmpiLtN32 p a y => Sys2Proof.Machine.execVcmpiLtN32 p a y s
  | .vcmpiGeN32 p a y => Sys2Proof.Machine.execVcmpiGeN32 p a y s
  | .faddF32 d a b => Sys2Proof.Machine.execFaddF32 d a b s
  | .fsubF32 d a b => Sys2Proof.Machine.execFsubF32 d a b s
  | .fmulF32 d a b => Sys2Proof.Machine.execFmulF32 d a b s
  | .fminF32 d a b => Sys2Proof.Machine.execFminF32 d a b s
  | .fmaxF32 d a b => Sys2Proof.Machine.execFmaxF32 d a b s
  | .fminNanF32 d a b => Sys2Proof.Machine.execFminNanF32 d a b s
  | .fmaxNanF32 d a b => Sys2Proof.Machine.execFmaxNanF32 d a b s
  | .fcpsgnF32 d a b => Sys2Proof.Machine.execFcpsgnF32 d a b s
  | .faddF64 d a b => Sys2Proof.Machine.execFaddF64 d a b s
  | .fsubF64 d a b => Sys2Proof.Machine.execFsubF64 d a b s
  | .fmulF64 d a b => Sys2Proof.Machine.execFmulF64 d a b s
  | .fminF64 d a b => Sys2Proof.Machine.execFminF64 d a b s
  | .fmaxF64 d a b => Sys2Proof.Machine.execFmaxF64 d a b s
  | .fminNanF64 d a b => Sys2Proof.Machine.execFminNanF64 d a b s
  | .fmaxNanF64 d a b => Sys2Proof.Machine.execFmaxNanF64 d a b s
  | .fcpsgnF64 d a b => Sys2Proof.Machine.execFcpsgnF64 d a b s
  | .faddH2 t d a b => Sys2Proof.Machine.execFaddH2 t d a b s
  | .fsubH2 t d a b => Sys2Proof.Machine.execFsubH2 t d a b s
  | .fmulH2 t d a b => Sys2Proof.Machine.execFmulH2 t d a b s
  | .fmaH2 t d a b => Sys2Proof.Machine.execFmaH2 t d a b s
  | .fcmpEqF32 p a b => Sys2Proof.Machine.execFcmpEqF32 p a b s
  | .fcmpLtF32 p a b => Sys2Proof.Machine.execFcmpLtF32 p a b s
  | .fcmpLeF32 p a b => Sys2Proof.Machine.execFcmpLeF32 p a b s
  | .fcmpUnF32 p a b => Sys2Proof.Machine.execFcmpUnF32 p a b s
  | .fcmpEqF64 p a b => Sys2Proof.Machine.execFcmpEqF64 p a b s
  | .fcmpLtF64 p a b => Sys2Proof.Machine.execFcmpLtF64 p a b s
  | .fcmpLeF64 p a b => Sys2Proof.Machine.execFcmpLeF64 p a b s
  | .fcmpUnF64 p a b => Sys2Proof.Machine.execFcmpUnF64 p a b s
  | .fmaF32 r d a b => Sys2Proof.Machine.execFmaF32 r d a b s
  | .fnmaF32 r d a b => Sys2Proof.Machine.execFnmaF32 r d a b s
  | .fmaF64 r d a b => Sys2Proof.Machine.execFmaF64 r d a b s
  | .fnmaF64 r d a b => Sys2Proof.Machine.execFnmaF64 r d a b s
  | .cvt r d a z t => Sys2Proof.Machine.execCvt r d a z t s
  | .frcpF32 d a => Sys2Proof.Machine.execFrcpF32 d a s
  | .frsqrtF32 d a => Sys2Proof.Machine.execFrsqrtF32 d a s
  | .fsqrtF32 d a => Sys2Proof.Machine.execFsqrtF32 d a s
  | .fdivF32 d a b => Sys2Proof.Machine.execFdivF32 d a b s
  | .fexp2F32 d a => Sys2Proof.Machine.execFexp2F32 d a s
  | .flog2F32 d a => Sys2Proof.Machine.execFlog2F32 d a s
  | .fsinF32 d a => Sys2Proof.Machine.execFsinF32 d a s
  | .fcosF32 d a => Sys2Proof.Machine.execFcosF32 d a s
  | .fsqrtF64 d a => Sys2Proof.Machine.execFsqrtF64 d a s
  | .fdivF64 d a b => Sys2Proof.Machine.execFdivF64 d a b s
  | .frcpF64 d a => Sys2Proof.Machine.execFrcpF64 d a s
  | .ftanhF32 d a => Sys2Proof.Machine.execFtanhF32 d a s
  | .fclassF32 d a => Sys2Proof.Machine.execFclassF32 d a s
  | .fclassF64 d a => Sys2Proof.Machine.execFclassF64 d a s
  | .froundF32 d a r => Sys2Proof.Machine.execFroundF32 d a r s
  | .froundF64 d a r => Sys2Proof.Machine.execFroundF64 d a r s
  | .shflIdx d a b => Sys2Proof.Machine.execShflIdx d a b s
  | .shflUp d a b => Sys2Proof.Machine.execShflUp d a b s
  | .shflDown d a b => Sys2Proof.Machine.execShflDown d a b s
  | .shflXor d a b => Sys2Proof.Machine.execShflXor d a b s
  | .mshfl d a b => Sys2Proof.Machine.execMshfl d a b s
  | .vmovs d a b => Sys2Proof.Machine.execVmovs d a b s
  | .vlane d a b => Sys2Proof.Machine.execVlane d a b s
  | .mstatMeanF32 d a => Sys2Proof.Machine.execMstatMeanF32 d a s
  | .mstatVarF32 d a => Sys2Proof.Machine.execMstatVarF32 d a s
  | .mstatMeanF64 d a => Sys2Proof.Machine.execMstatMeanF64 d a s
  | .mstatVarF64 d a => Sys2Proof.Machine.execMstatVarF64 d a s
  | .mstatQuantF32 d a b => Sys2Proof.Machine.execMstatQuantF32 d a b s
  | .mstatRankF32 d a b => Sys2Proof.Machine.execMstatRankF32 d a b s
  | .mstatMinF32 d a => Sys2Proof.Machine.execMstatMinF32 d a s
  | .mstatMaxF32 d a => Sys2Proof.Machine.execMstatMaxF32 d a s
  | .sadd d a b => Sys2Proof.Machine.execSadd d a b s
  | .ssub d a b => Sys2Proof.Machine.execSsub d a b s
  | .smul d a b => Sys2Proof.Machine.execSmul d a b s
  | .smulhI64 d a b => Sys2Proof.Machine.execSmulhI64 d a b s
  | .smulhN64 d a b => Sys2Proof.Machine.execSmulhN64 d a b s
  | .sand d a b => Sys2Proof.Machine.execSand d a b s
  | .sor d a b => Sys2Proof.Machine.execSor d a b s
  | .sxor d a b => Sys2Proof.Machine.execSxor d a b s
  | .sshl d a b => Sys2Proof.Machine.execSshl d a b s
  | .sshr d a b => Sys2Proof.Machine.execSshr d a b s
  | .ssar d a b => Sys2Proof.Machine.execSsar d a b s
  | .sminI64 d a b => Sys2Proof.Machine.execSminI64 d a b s
  | .smaxI64 d a b => Sys2Proof.Machine.execSmaxI64 d a b s
  | .sminN64 d a b => Sys2Proof.Machine.execSminN64 d a b s
  | .smaxN64 d a b => Sys2Proof.Machine.execSmaxN64 d a b s
  | .smov d a => Sys2Proof.Machine.execSmov d a s
  | .spopc d a => Sys2Proof.Machine.execSpopc d a s
  | .sclz d a => Sys2Proof.Machine.execSclz d a s
  | .sdivI64 d a b => Sys2Proof.Machine.execSdivI64 d a b s
  | .sdivN64 d a b => Sys2Proof.Machine.execSdivN64 d a b s
  | .sremI64 d a b => Sys2Proof.Machine.execSremI64 d a b s
  | .sremN64 d a b => Sys2Proof.Machine.execSremN64 d a b s
  | .sshli d a n => Sys2Proof.Machine.execSshli d a n s
  | .sshri d a n => Sys2Proof.Machine.execSshri d a n s
  | .ssari d a n => Sys2Proof.Machine.execSsari d a n s
  | .saddi d a y => Sys2Proof.Machine.execSaddi d a y s
  | .sandi d a y => Sys2Proof.Machine.execSandi d a y s
  | .sori d a y => Sys2Proof.Machine.execSori d a y s
  | .sxori d a y => Sys2Proof.Machine.execSxori d a y s
  | .sli d y => Sys2Proof.Machine.execSli d y s
  | .slih d y => Sys2Proof.Machine.execSlih d y s
  | .scmp a b => Sys2Proof.Machine.execScmp a b s
  | .scmpi a y => Sys2Proof.Machine.execScmpi a y s
  | .stest a b => Sys2Proof.Machine.execStest a b s
  | .pand d a b => Sys2Proof.Machine.execPand d a b s
  | .por d a b => Sys2Proof.Machine.execPor d a b s
  | .pxor d a b => Sys2Proof.Machine.execPxor d a b s
  | .pandn d a b => Sys2Proof.Machine.execPandn d a b s
  | .pnot d a => Sys2Proof.Machine.execPnot d a s
  | .pset d => Sys2Proof.Machine.execPset d s
  | .pclr d => Sys2Proof.Machine.execPclr d s
  | .ppopc d a => Sys2Proof.Machine.execPpopc d a s
  | .vsel n d a b => Sys2Proof.Machine.execVsel n d a b s
  | .vmov d a => Sys2Proof.Machine.execVmov d a s
  | .vbcast d a => Sys2Proof.Machine.execVbcast d a s
  | .pmov d a => Sys2Proof.Machine.execPmov d a s
  | .pext d a q => Sys2Proof.Machine.execPext d a q s
  | .pins d a q => Sys2Proof.Machine.execPins d a q s
  | .vmovp d a => Sys2Proof.Machine.execVmovp d a s
  | .pmovv d a => Sys2Proof.Machine.execPmovv d a s
  | .faddF32Compact d z => Sys2Proof.Machine.execFaddF32Compact d z s
  | .fsubF32Compact d z => Sys2Proof.Machine.execFsubF32Compact d z s
  | .fmulF32Compact d z => Sys2Proof.Machine.execFmulF32Compact d z s
  | .fmaxF32Compact d z => Sys2Proof.Machine.execFmaxF32Compact d z s
  | .fminF32Compact d z => Sys2Proof.Machine.execFminF32Compact d z s
  | .vaddI32Compact d z => Sys2Proof.Machine.execVaddI32Compact d z s
  | .vsubI32Compact d z => Sys2Proof.Machine.execVsubI32Compact d z s
  | .vmulI32Compact d z => Sys2Proof.Machine.execVmulI32Compact d z s
  | .vandCompact d z => Sys2Proof.Machine.execVandCompact d z s
  | .vorCompact d z => Sys2Proof.Machine.execVorCompact d z s
  | .vxorCompact d z => Sys2Proof.Machine.execVxorCompact d z s
  | .vshlCompact d z => Sys2Proof.Machine.execVshlCompact d z s
  | .vshrCompact d z => Sys2Proof.Machine.execVshrCompact d z s
  | .vsarCompact d z => Sys2Proof.Machine.execVsarCompact d z s
  | .vmovCompact d z => Sys2Proof.Machine.execVmovCompact d z s
  | .vnotCompact d z => Sys2Proof.Machine.execVnotCompact d z s
  | .bra o => Sys2Proof.Machine.execBra o s
  | .brc c o => Sys2Proof.Machine.execBrc c o s
  | .brd n j o => Sys2Proof.Machine.execBrd n j o s
  | .call o => Sys2Proof.Machine.execCall o s
  | .jmpi a => Sys2Proof.Machine.execJmpi a s
  | .loop n o => Sys2Proof.Machine.execLoop n o s
  | .trap k => Sys2Proof.Machine.execTrap k s
  | .tret k => Sys2Proof.Machine.execTret k s
  | .yield a b => Sys2Proof.Machine.execYield a b s
  | .ginsp d a b => Sys2Proof.Machine.execGinsp d a b s
  | .gresume a b => Sys2Proof.Machine.execGresume a b s
  | .enq d a b => Sys2Proof.Machine.execEnq d a b s
  | .mfcr d c => Sys2Proof.Machine.execMfcr d c s
  | .mtcr c a => Sys2Proof.Machine.execMtcr c a s
  | .clock d => Sys2Proof.Machine.execClock d s
  | .mode d k => Sys2Proof.Machine.execMode d k s
  | .mkey a => Sys2Proof.Machine.execMkey a s
  | .mregroup a b => Sys2Proof.Machine.execMregroup a b s
  | .mrestore a => Sys2Proof.Machine.execMrestore a s
  | .ld t d b y => Sys2Proof.Machine.execLd t d b y s
  | .st t d b y => Sys2Proof.Machine.execSt t d b y s
  | .lds t d b y => Sys2Proof.Machine.execLds t d b y s
  | .sts t d b y => Sys2Proof.Machine.execSts t d b y s
  | .ldHn t d b y => Sys2Proof.Machine.execLdHn t d b y s
  | .hnchk a o => Sys2Proof.Machine.execHnchk a o s
  | .atom o d b y z => Sys2Proof.Machine.execAtom o d b y z s
  | .red o d b y z => Sys2Proof.Machine.execRed o d b y z s
  | .fenceAcq z => Sys2Proof.Machine.execFenceAcq z s
  | .fenceRel z => Sys2Proof.Machine.execFenceRel z s
  | .fenceFull z => Sys2Proof.Machine.execFenceFull z s
  | .pfetch l b y => Sys2Proof.Machine.execPfetch l b y s
  | .llcflush l b => Sys2Proof.Machine.execLlcflush l b s
  | .cpy a => Sys2Proof.Machine.execCpy a s
  | .cpy2 a => Sys2Proof.Machine.execCpy2 a s
  | .hcpy a => Sys2Proof.Machine.execHcpy a s
  | .binit a b => Sys2Proof.Machine.execBinit a b s
  | .barr z a b => Sys2Proof.Machine.execBarr z a b s
  | .bexp a b => Sys2Proof.Machine.execBexp a b s
  | .bwait z a b => Sys2Proof.Machine.execBwait z a b s
  | .btest d a b => Sys2Proof.Machine.execBtest d a b s
  | .binval a => Sys2Proof.Machine.execBinval a s
  | .rput a => Sys2Proof.Machine.execRput a s
  | .rget a => Sys2Proof.Machine.execRget a s
  | .ctarm d a b => Sys2Proof.Machine.execCtarm d a b s
  | .ctdisarm d a => Sys2Proof.Machine.execCtdisarm d a s
  | .ctquery d a b => Sys2Proof.Machine.execCtquery d a b s
  | .xlate d a b => Sys2Proof.Machine.execXlate d a b s
  | .tlbinv d a b => Sys2Proof.Machine.execTlbinv d a b s
  | .tclaim n => Sys2Proof.Machine.execTclaim n s
  | .trel n => Sys2Proof.Machine.execTrel n s
  | .tld n a c => Sys2Proof.Machine.execTld n a c s
  | .tzero n => Sys2Proof.Machine.execTzero n s
  | .aballoc n b => Sys2Proof.Machine.execAballoc n b s
  | .abfree n => Sys2Proof.Machine.execAbfree n s
  | .abzero n => Sys2Proof.Machine.execAbzero n s
  | .mma z a b c t => Sys2Proof.Machine.execMma z a b c t s
  | .mmaZ z a b c t => Sys2Proof.Machine.execMmaZ z a b c t s
  | .mmas z a b c t => Sys2Proof.Machine.execMmas z a b c t s
  | .mmasZ z a b c t => Sys2Proof.Machine.execMmasZ z a b c t s
  | .mmaMb z a b c t => Sys2Proof.Machine.execMmaMb z a b c t s
  | .mmaMbZ z a b c t => Sys2Proof.Machine.execMmaMbZ z a b c t s
  | .mfence d => Sys2Proof.Machine.execMfence d s
  | .mwait a => Sys2Proof.Machine.execMwait a s
  | .acld a w c => Sys2Proof.Machine.execAcld a w c s
  | .acst a w c => Sys2Proof.Machine.execAcst a w c s
  | .xinit c k => Sys2Proof.Machine.execXinit c k s
  | .xaddF64 v c k => Sys2Proof.Machine.execXaddF64 v c k s
  | .xaddF32 v c k => Sys2Proof.Machine.execXaddF32 v c k s
  | .xaddpF32 a c k b => Sys2Proof.Machine.execXaddpF32 a c k b s
  | .xmerge c k m j => Sys2Proof.Machine.execXmerge c k m j s
  | .xroundF64 r d c k => Sys2Proof.Machine.execXroundF64 r d c k s
  | .mred z a c t => Sys2Proof.Machine.execMred z a c t s
  | .xroundF32 r d c k => Sys2Proof.Machine.execXroundF32 r d c k s
  | .xpack c k a => Sys2Proof.Machine.execXpack c k a s
  | .xunpack c k a => Sys2Proof.Machine.execXunpack c k a s
  | .xld c k a => Sys2Proof.Machine.execXld c k a s
  | .xst c k a => Sys2Proof.Machine.execXst c k a s
  | .join => Sys2Proof.Machine.execJoin s
  | .ret => Sys2Proof.Machine.execRet s
  | .nop => Sys2Proof.Machine.execNop s
  | .exit => Sys2Proof.Machine.execExit s
  | .exitSucc => Sys2Proof.Machine.execExitSucc s
  | .illegalEncoding raw => Sys2Proof.Machine.execIllegalEncoding raw s
  | .faultQueueConsPoll ctx => Sys2Proof.Machine.execFaultQueueConsPoll ctx s
  | .sfqEntryComplete core => Sys2Proof.Machine.execSfqEntryComplete core s
  | .cvtqEntryComplete core => Sys2Proof.Machine.execCvtqEntryComplete core s
  | .loadReturn core slot k line => Sys2Proof.Machine.execLoadReturn core slot k line s
  | .batchComplete core slot k => Sys2Proof.Machine.execBatchComplete core slot k s
  | .regroupMoveComplete unit index => Sys2Proof.Machine.execRegroupMoveComplete unit index s
  | .ctxcmdSubmit port word => Sys2Proof.Machine.execCtxcmdSubmit port word s
  | .create => Sys2Proof.Machine.execCreate s
  | .destroy => Sys2Proof.Machine.execDestroy s
  | .fence => Sys2Proof.Machine.execFence s
  | .resume => Sys2Proof.Machine.execResume s
  | .rupdate => Sys2Proof.Machine.execRupdate s
  | .qbind => Sys2Proof.Machine.execQbind s
  | .qunbind => Sys2Proof.Machine.execQunbind s
  | .qstart => Sys2Proof.Machine.execQstart s
  | .qcancel => Sys2Proof.Machine.execQcancel s
  | .fresolve => Sys2Proof.Machine.execFresolve s
  | .tlbinvCommand => Sys2Proof.Machine.execTlbinvCommand s
  | .contextDrainComplete ctx => Sys2Proof.Machine.execContextDrainComplete ctx s
  | .qdoorbell port queue => Sys2Proof.Machine.execQdoorbell port queue s
  | .wptrPoll queue => Sys2Proof.Machine.execWptrPoll queue s
  | .walkerParse queue => Sys2Proof.Machine.execWalkerParse queue s
  | .selectionPass => Sys2Proof.Machine.execSelectionPass s
  | .launchReserving launch => Sys2Proof.Machine.execLaunchReserving launch s
  | .preempt core slot => Sys2Proof.Machine.execPreempt core slot s
  | .phandlerLimit core slot => Sys2Proof.Machine.execPhandlerLimit core slot s
  | .unitRetire unit => Sys2Proof.Machine.execUnitRetire unit s
  | .launchComplete launch => Sys2Proof.Machine.execLaunchComplete launch s
  | .fenceOutstandingComplete ctx region => Sys2Proof.Machine.execFenceOutstandingComplete ctx region s
  | .fenceDumpComplete ctx region => Sys2Proof.Machine.execFenceDumpComplete ctx region s
  | .hangDetectorExpiry ctx => Sys2Proof.Machine.execHangDetectorExpiry ctx s
  | .drydownRoundBoundary core => Sys2Proof.Machine.execDrydownRoundBoundary core s
  | .storeAtHomeSlice core slot k line => Sys2Proof.Machine.execStoreAtHomeSlice core slot k line s
  | .l1Eviction core line => Sys2Proof.Machine.execL1Eviction core line s
  | .llcRecall line => Sys2Proof.Machine.execLlcRecall line s
  | .dieL2Eviction die line => Sys2Proof.Machine.execDieL2Eviction die line s
  | .llcRecordEviction line => Sys2Proof.Machine.execLlcRecordEviction line s
  | .shadowKill die line => Sys2Proof.Machine.execShadowKill die line s
  | .shadowExpiry die line => Sys2Proof.Machine.execShadowExpiry die line s
  | .peerCopyExpiry die peer line => Sys2Proof.Machine.execPeerCopyExpiry die peer line s
  | .headnoteCheck core slot entry line => Sys2Proof.Machine.execHeadnoteCheck core slot entry line s
  | .headnoteCheckAnswer core slot entry line => Sys2Proof.Machine.execHeadnoteCheckAnswer core slot entry line s
  | .bankAluAtomic core slot k => Sys2Proof.Machine.execBankAluAtomic core slot k s
  | .stampSweep die => Sys2Proof.Machine.execStampSweep die s
  | .directoryError die line => Sys2Proof.Machine.execDirectoryError die line s
  | .holderRecordError line => Sys2Proof.Machine.execHolderRecordError line s
  | .uncorrectableDataError line => Sys2Proof.Machine.execUncorrectableDataError line s
  | .hostTakesHalf port line high => Sys2Proof.Machine.execHostTakesHalf port line high s
  | .backInvalidateResponse port line high data => Sys2Proof.Machine.execBackInvalidateResponse port line high data s
  | .hostWriteback port line high data => Sys2Proof.Machine.execHostWriteback port line high data s
  | .backInvalidateTimeout port line high => Sys2Proof.Machine.execBackInvalidateTimeout port line high s
  | .hostBar2Access port pa len data => Sys2Proof.Machine.execHostBar2Access port pa len data s
  | .hostAtomicop port pa op => Sys2Proof.Machine.execHostAtomicop port pa op s
  | .ceCommandStart cmd => Sys2Proof.Machine.execCeCommandStart cmd s
  | .ceUnitWrite cmd row part => Sys2Proof.Machine.execCeUnitWrite cmd row part s
  | .cePageFault cmd row part => Sys2Proof.Machine.execCePageFault cmd row part s
  | .ceCommandComplete cmd => Sys2Proof.Machine.execCeCommandComplete cmd s
  | .byteCount k => Sys2Proof.Machine.execByteCount k s
  | .feUnitDeliver cmd part reply => Sys2Proof.Machine.execFeUnitDeliver cmd part reply s
  | .peerAccessInbound peer pa req => Sys2Proof.Machine.execPeerAccessInbound peer pa req s
  | .cttFire entry => Sys2Proof.Machine.execCttFire entry s
  | .cttReadyReceive entry ready => Sys2Proof.Machine.execCttReadyReceive entry ready s
  | .cttDataReceive entry element gather part => Sys2Proof.Machine.execCttDataReceive entry element gather part s
  | .cttResultDeliver entry part => Sys2Proof.Machine.execCttResultDeliver entry part s
  | .cttAbortReceive entry => Sys2Proof.Machine.execCttAbortReceive entry s
  | .cttFailure entry why => Sys2Proof.Machine.execCttFailure entry why s
  | .linkTrained link width rate => Sys2Proof.Machine.execLinkTrained link width rate s
  | .linkTrainingFailed link => Sys2Proof.Machine.execLinkTrainingFailed link s
  | .linkErrorRetrain link => Sys2Proof.Machine.execLinkErrorRetrain link s
  | .retwinExpiry link applied => Sys2Proof.Machine.execRetwinExpiry link applied s
  | .flitReceive port flit => Sys2Proof.Machine.execFlitReceive port flit s
  | .nakReceive port expected => Sys2Proof.Machine.execNakReceive port expected s
  | .packetReceive flow seq => Sys2Proof.Machine.execPacketReceive flow seq s
  | .enable link => Sys2Proof.Machine.execEnable link s
  | .retrain link => Sys2Proof.Machine.execRetrain link s
  | .retire link => Sys2Proof.Machine.execRetire link s
  | .vbtWrite bus word => Sys2Proof.Machine.execVbtWrite bus word s
  | .routerRetire router => Sys2Proof.Machine.execRouterRetire router s
  | .routerDrainEmpty router => Sys2Proof.Machine.execRouterDrainEmpty router s
  | .routerDrainTimeout router => Sys2Proof.Machine.execRouterDrainTimeout router s
  | .governorTick me link caps => Sys2Proof.Machine.execGovernorTick me link caps s
  | .safetyLimit core => Sys2Proof.Machine.execSafetyLimit core s
  | .powerOnReset => Sys2Proof.Machine.execPowerOnReset s
  | .devrst port word => Sys2Proof.Machine.execDevrst port word s
  | .portReset port => Sys2Proof.Machine.execPortReset port s
  | .bootReady config => Sys2Proof.Machine.execBootReady config s
  | .watchdogExpiry => Sys2Proof.Machine.execWatchdogExpiry s
  | .firmwareCommit => Sys2Proof.Machine.execFirmwareCommit s
  | .attestationSubmit port word => Sys2Proof.Machine.execAttestationSubmit port word s
  | .attestationReport => Sys2Proof.Machine.execAttestationReport s
  | .policyRequest request change => Sys2Proof.Machine.execPolicyRequest request change s
  | .registerWrite port offset word => Sys2Proof.Machine.execRegisterWrite port offset word s
  | .singleBitEcc unit addr => Sys2Proof.Machine.execSingleBitEcc unit addr s
  | .uncorrectableStateError core slot => Sys2Proof.Machine.execUncorrectableStateError core slot s
  | .uncorrectableControlStateError unit => Sys2Proof.Machine.execUncorrectableControlStateError unit s
  | .feTransferFault cmd part => Sys2Proof.Machine.execFeTransferFault cmd part s
  | .hostWriteAcknowledged port k => Sys2Proof.Machine.execHostWriteAcknowledged port k s
  | .llcflushWritebackComplete core slot => Sys2Proof.Machine.execLlcflushWritebackComplete core slot s
  | .cxlCacheSnoop port line drop => Sys2Proof.Machine.execCxlCacheSnoop port line drop s

end Sys2Proof.Machine
end

