-- ==== Sys2Proof/Machine/Fetch.lean ====
section
/-! DEFINITION. Instruction fetch (R59, R206) and the issue of one instruction by a core: the choice among groups and PC slots
by wait count, priority and age (R129) or by rotation (R99). -/

namespace Sys2Proof.Machine

/-! ## Fetch (R59) -/

/-- The halfword at an address of the group's code, with the state in which its translation is cached: else the trap or the
wait of the fetch. A route that is lost, a peer that refuses and a poisoned line count as they do for a load (log 25). -/
def Iss.fetchHalf (c : Iss) (pc : Nat) : Except Eff (State × List Byte) :=
  match c.devPlace pc 2 .exec with
  | .error e => .error e
  | .ok p =>
    if c.st.poisonAt p 2 then .error (.waits (c.st.groupFatal c.g 5 (p.lineNo * 128)))
    else .ok (c.st.fillTlb (some c.g.core) (dieOfCore c.g.core) c.ctx pc, c.st.placeRead p 2)

/-- The bytes of the instruction at the issuing slot's PC: two, or four where bit 0 is 1. -/
def Iss.fetch (c : Iss) : Except Eff (State × List Byte) :=
  match c.fetchHalf c.ps.pc with
  | .error e => .error e
  | .ok (s, bs) =>
    if leNat bs % 2 == 0 then .ok (s, bs)
    else match ({ c with st := s } : Iss).fetchHalf (pcPlus c.ps.pc 2) with
      | .error e => .error e
      | .ok (s', more) => .ok (s', bs ++ more)

/-! ## One instruction -/

/-- The rows whose constructors stand late (log 3), by their meanings. -/
def Late.run (l : Late) (s : State) : Host.Outcome State Fault Refusal :=
  match l with
  | .mred sh a d t => execMred sh a d t s
  | .xroundF32 r d n k => execXroundF32 r d n k s
  | .xpack n k a => execXpack n k a s
  | .xunpack n k a => execXunpack n k a s
  | .xld n k a => execXld n k a s
  | .xst n k a => execXst n k a s

/-- What was read, by its meaning; bytes that are no instruction trap (R71). -/
def runRead (r : Except DecodeError (Read × Nat)) (raw : Word32) (s : State) : Host.Outcome State Fault Refusal :=
  match r with
  | .error _ => execIllegalEncoding raw s
  | .ok (.now i, _) => exec i s
  | .ok (.late l, _) => Late.run l s

/-- The raw instruction of a trap report: the bytes as a number (R162). -/
def rawOf (bs : List Byte) : Word32 := BitVec.ofNat 32 (leNat bs)

/-- A group's PC slot made the issuing one. -/
def State.withCur (s : State) (core slot which : Nat) (bs : List Byte) : State :=
  { s with cur := some { core := core, slot := slot, pcSlot := which, raw := rawOf bs, len := bs.length } }

/-- What comes before the fetch of an instruction: a handler's frame, and the trap of a discarded posted write (R176, R263). -/
def Iss.beforeFetch (c : Iss) : Option Eff := c.frameFirst.orElse (fun _ => if c.g.relFence.isSome then none else c.lateFirst)

/-- The instruction at a PC slot fetched, decoded and run. Where it cannot issue now, State.cur still names the slot. -/
def State.issueSlot (s : State) (core slot which : Nat) : Host.Outcome State Fault Refusal :=
  match (s.withCur core slot which []).issuing with
  | none => .refused .noIssuingGroup
  | some c =>
    match c.beforeFetch with
    | some e => c.conclude e
    | none =>
      match c.fetch with
      | .error e => c.conclude e
      | .ok (s', bs) => runRead (readBytes bs) (rawOf bs) (s'.withCur core slot which bs)

/-- The state after an issue, if the instruction did issue. -/
def State.tryIssue (s : State) (core slot which : Nat) : Option State :=
  match s.issueSlot core slot which with
  | .next t => if t.cur.isNone then some t else none
  | .fault _ => none
  | .refused _ => none

/-- The PC slots from which a group may issue, the one that issued less recently first (R129). -/
def Group.slots (g : Group) : List Nat :=
  if g.inWait then [g.waitSlot]
  else if g.hdl.isSome then [2]
  else if g.slot1.live && g.slot1.last < g.slot0.last then [1, 0] else [0, 1]

/-- The issue of a group, if one of its slots is eligible. -/
def State.groupIssue (s : State) (g : Group) : Option State := g.slots.findSome? (fun w => s.tryIssue g.core g.slot w)

/-! ## The choice of a core (R129) -/

/-- The priority of a group's launch. -/
def State.groupPrio (s : State) (g : Group) : Nat :=
  match s.launchOf g with
  | some l => s.prio l
  | none => 0

/-- Whether a group is chosen before another. -/
def State.chosenBefore (s : State) (a b : Group) : Bool :=
  let older := a.age < b.age || (a.age == b.age && a.slot < b.slot)
  if 32 ≤ a.waitCount then b.waitCount < 32 || older
  else if 32 ≤ b.waitCount then false
  else s.groupPrio b < s.groupPrio a || (s.groupPrio a == s.groupPrio b && older)

/-- The groups of a core that are eligible in this cycle, with the states to which their issues lead, in the order of choice. -/
def State.eligible (s : State) (core : Nat) : List (Group × State) :=
  sortBy (fun a b => s.chosenBefore a.1 b.1) ((s.coreGroups core).filterMap (fun g => (s.groupIssue g).map (fun t => (g, t))))

/-- A cycle of a core: the first eligible group issues, the wait counts of the others go up. -/
def State.issueAged (s : State) (core : Nat) : Option State :=
  match s.eligible core with
  | [] => none
  | (_, t) :: rest =>
    some (t.mapGroups (fun g => if rest.any (fun r => r.1.core == g.core && r.1.slot == g.slot) then
      { g with waitCount := g.waitCount + 1 } else g))

/-! ## Rotation (R99) -/

/-- Whether a group's turn is forfeit: it waits, is held, saved or has ended, belongs to a unit between two kernels, is stopped by a
fence or waits for its round boundary. A group that takes PREEMPT at this turn, and one that is stalled or has an access under way,
keeps it. -/
def State.skips (s : State) (g : Group) : Bool :=
  match s.unit? g.unit with
  | none => true
  | some u => match s.launch? u.launch with
    | none => true
    | some l =>
      !s.preemptStops g && (g.saved.isSome || g.hasEnded || g.st == .held || g.inWait || g.inFaultWait || u.st != .running ||
        !s.regionOpen l.ctx l.region || s.wgHeld g.unit g.wg || (g.blocked.isNone && !(g.slots.any g.mayIssue)))

/-- Whether a slot's turn is forfeit (R99): nobody is there, or its group is skipped. A group whose wait is over does not wait. -/
def State.forfeits (s : State) (core slot : Nat) : Bool :=
  match s.group? core slot with
  | none => true
  | some g => s.skips g && (s.groupIssue g).isNone

/-- Cycles in which a core issues nothing: its clock and those of the schedulers' hang detectors go on (R96). -/
def State.emptyCycle (s : State) (core : Nat) : State :=
  (((s.tick (.core core) 1).tickHang 0 1).tickHang 1 1 |>.tick (.base 0) 1) |>.tick (.base 1) 1

/-- The turn of a rotating core: an issue; or the forfeit turns up to the next slot that keeps its turn, in one cycle; or nothing
while the slot's group is stalled or slot 31 has had its turn. -/
def State.issueTurn (s : State) (core : Nat) : Option State :=
  let t := s.turn core
  if 32 ≤ t then none
  else match (match s.group? core t with
    | some g => s.groupIssue g
    | none => none) with
    | some s' => some (s'.setTurn core (t + 1))
    | none =>
      if s.forfeits core t then
        let next := ((List.range 32).find? (fun i => t < i && !s.forfeits core i)).getD 32
        some ((s.emptyCycle core).setTurn core next)
      else none

/-- One cycle of a core's issue engine. -/
def State.issueCore (s : State) (core : Nat) : Option State := if s.rotating core then s.issueTurn core else s.issueAged core

/-- The cores that hold groups, those behind the one that issued last first. -/
def State.busyCores (s : State) : List Nat :=
  let cores := ((s.sched.groups.filter (fun g => g.core < 256 && !g.isGhost)).map (·.core)).eraseDups
  sortBy (fun a b => decide ((a + 255 - s.rr) % 256 < (b + 255 - s.rr) % 256)) cores

/-- The next core that can issue does. -/
def State.issueNext (s : State) : Option State :=
  s.busyCores.findSome? (fun core => (s.issueCore core).map (fun t => { t with rr := core }))

end Sys2Proof.Machine
end

