-- ==== Sys2Proof/Machine/Progress.lean ====
section
/-! DEFINITION. What the part does on its own: the events that it takes without a choice of the outside world, in the one fixed
order in which the model tries them (log 1), the passing of time, and the turns that the outside world takes. -/

namespace Sys2Proof.Machine

/-! ## Events in order -/

/-- The next state of an outcome. -/
def nextOf (o : Host.Outcome State Fault Refusal) : Option State :=
  match o with
  | .next s => some s
  | .fault _ => none
  | .refused _ => none

/-- The first event of a list that is enabled. -/
def firstOf {α : Type} (xs : List α) (f : α → Host.Outcome State Fault Refusal) : Option State := xs.findSome? (fun x => nextOf (f x))

/-- The command at the head of the arbiter, or a shootdown in progress that is done (R84, R85, R212). -/
def State.commandEvents (s : State) : Option State :=
  if s.mgmt.cmds.isEmpty && s.mgmt.invals.isEmpty then none
  else firstOf [execCreate, execDestroy, execFence, execResume, execRupdate, execQbind, execQunbind, execQstart, execQcancel,
    execFresolve, execTlbinvCommand] (fun f => f s)

/-- The lines that an access of a group has still to reach. -/
def linesLeft (ps : List Place) : List Nat := (ps.map Place.lineNo).eraseDups

/-- Releases that later reads have passed complete (R250). -/
def State.fenceEvents (s : State) : Option State := s.sched.groups.findSome? s.settleRelease

/-- A base die whose LLC is full makes room: the oldest record that may go, else a line that a die holds is recalled (R22, R223). -/
def State.roomEvents (s : State) : Option State :=
  if s.ms.lines.length < llcLines then none
  else [0, 1].findSome? (fun base =>
    if s.llcRecords base < llcLines then none
    else
      let xs := (s.ms.lines.filter (fun r => r.recorded && stackOf (128 * r.line) / 4 == base)).map (·.line)
      (firstOf xs (fun n => execLlcRecordEviction n s)).orElse (fun _ => firstOf xs (fun n => execLlcRecall n s)))

/-- Loads return, stores and atomics arrive. -/
def State.accessEvents (s : State) : Option State :=
  s.sched.groups.findSome? (fun g =>
    (g.loads.zipIdx.findSome? (fun x => firstOf (linesLeft (x.1.elems.map (·.place))) (fun n => execLoadReturn g.core g.slot x.2 n s))).orElse
    (fun _ => (g.stores.zipIdx.findSome? (fun x =>
      firstOf (linesLeft (x.1.elems.map (·.place))) (fun n => execStoreAtHomeSlice g.core g.slot x.2 n s))).orElse
    (fun _ => firstOf (List.range g.atoms.length) (fun k => execBankAluAtomic g.core g.slot k s))))

/-- Packets reach their destinations in sequence. -/
def State.packetEvents (s : State) : Option State :=
  s.fab.flows.findSome? (fun f => firstOf (f.unacked.map (·.seq)) (fun n => execPacketReceive f.id n s))

/-- Headnote checks, shadow kills, flushes. -/
def State.lineEvents (s : State) : Option State :=
  (firstOf s.ms.shadowKills (fun k => execShadowKill k.1 k.2 s)).orElse (fun _ =>
    s.sched.groups.findSome? (fun g =>
      (g.watch.zipIdx.findSome? (fun e => e.1.lines.findSome? (fun w =>
        (nextOf (execHeadnoteCheck g.core g.slot e.2 w.line s)).orElse
          (fun _ => nextOf (execHeadnoteCheckAnswer g.core g.slot e.2 w.line s))))).orElse
      (fun _ => if g.flush.isEmpty then none else nextOf (execLlcflushWritebackComplete g.core g.slot s))))

/-- The special-function and conversion queues, the matrix engines, the regrouping units. -/
def State.unitEvents (s : State) : Option State :=
  (firstOf (s.eng.sfq.map (·.core)) (fun k => execSfqEntryComplete k s)).orElse (fun _ =>
  (firstOf (s.eng.cvtq.map (·.core)) (fun k => execCvtqEntryComplete k s)).orElse (fun _ =>
  (s.sched.groups.findSome? (fun g => firstOf (List.range g.meq.length) (fun k => execBatchComplete g.core g.slot k s))).orElse (fun _ =>
  firstOf (s.sched.wgs.filter (fun w => w.moving.isSome)) (fun w => execRegroupMoveComplete w.unit w.index s))))

/-- The first unit of a copy that is not written. -/
def CeCmd.nextUnit (s : State) (k : CeCmd) : Option (Nat × Nat) :=
  (List.range k.geom.count).findSome? (fun i => ((k.parts s i).find? (fun p => !k.done.contains (i, p))).map (fun p => (i, p)))

/-- The copy engines and the byte counts. -/
def State.copyEvents (s : State) : Option State :=
  (if s.eng.counts.isEmpty then none else nextOf (execByteCount 0 s)).orElse (fun _ =>
  s.eng.ceCmds.findSome? (fun k =>
    (nextOf (execCeCommandStart k.id s)).orElse (fun _ =>
    (nextOf (execCeCommandComplete k.id s)).orElse (fun _ =>
    match k.nextUnit s with
    | none => none
    | some (i, p) => (nextOf (execCeUnitWrite k.id i p s)).orElse (fun _ => nextOf (execCePageFault k.id i p s))))))

/-- The fabric engine: remote copies, and the collectives as far as they go without a neighbour's message. -/
def State.fabricEvents (s : State) : Option State :=
  (s.eng.feCmds.findSome? (fun k =>
    let p := (k.parts.find? (fun q => !k.done.contains q)).getD 0
    (firstOf [FeReply.done, FeReply.refused] (fun r => execFeUnitDeliver k.id p r s)).orElse
      (fun _ => nextOf (execFeTransferFault k.id p s)))).orElse (fun _ =>
  s.eng.ctt.findSome? (fun e =>
    (nextOf (execCttFire e.index s)).orElse (fun _ =>
    if e.st != .fired then none
    else
      let part := ((List.range e.desc.units).find? (fun p => !e.delivered.contains p)).getD 0
      (nextOf (execCttFailure e.index .routeLost s)).orElse (fun _ =>
      (nextOf (execCttResultDeliver e.index part s)).orElse (fun _ =>
      firstOf ((e.desc.dst + 16 * part) :: e.wants.map (·.1)) (fun va => execCttFailure e.index (.translation va) s))))))

/-- Pre-emption: requests reach groups, handlers that run too long end (R185, R186). -/
def State.preemptEvents (s : State) : Option State :=
  s.sched.groups.findSome? (fun g =>
    if g.isGhost then none
    else (nextOf (execPreempt g.core g.slot s)).orElse (fun _ => nextOf (execPhandlerLimit g.core g.slot s)))

/-- Launches and units: retirement, completion, reserving, the selection pass. -/
def State.launchEvents (s : State) : Option State :=
  (firstOf s.sched.units (fun u => execUnitRetire u.id s)).orElse (fun _ =>
  (firstOf s.sched.launches (fun l => execLaunchComplete l.id s)).orElse (fun _ =>
  (firstOf s.sched.launches (fun l => execLaunchReserving l.id s)).orElse (fun _ => nextOf (execSelectionPass s))))

/-- Whether a queue's WPTR is due to be read again: after a doorbell, once it has changed, every 2^16 cycles (R115). -/
def State.wptrDue (s : State) (q : Queue) : Bool :=
  q.doorbell || decide (2 ^ 16 ≤ s.schedClock q.ctx - q.polled) || (match s.vread q.ctx q.qbase 8 with
    | some r => leNat r.2 != q.wptr
    | none => true)

/-- The walkers of the queues. -/
def State.queueEvents (s : State) : Option State :=
  s.sched.queues.findSome? (fun q => if q.st != .active then none
    else (nextOf (execWalkerParse q.id s)).orElse (fun _ => if s.wptrDue q then nextOf (execWptrPoll q.id s) else none))

/-- Whether held fault records have something to wait for no longer: room, a new CONS, a half to take back (R95, R228). -/
def State.consDue (s : State) (c : Context) : Bool :=
  !c.fqHeld.isEmpty && (!c.fqFull || s.devLE (c.fqBase + 8) 8 != c.fqCons || (s.devGate (c.fqBase + 8) 8).isSome)

/-- Contexts: fences, draining, held fault records, the hang detector. -/
def State.contextEvents (s : State) : Option State :=
  s.sched.ctxs.findSome? (fun c =>
    (firstOf c.fences (fun f => execFenceOutstandingComplete c.id f.root s)).orElse (fun _ =>
    (firstOf c.fences (fun f => execFenceDumpComplete c.id f.root s)).orElse (fun _ =>
    (nextOf (execContextDrainComplete c.id s)).orElse (fun _ =>
    ((if s.consDue c then nextOf (execFaultQueueConsPoll c.id s) else none).filter (· != s)).orElse (fun _ =>
    nextOf (execHangDetectorExpiry c.id s))))))

/-- Round boundaries, routers that drain, snoops without an answer, reports. -/
def State.otherEvents (s : State) : Option State :=
  (firstOf (s.sched.turns.map (·.1)) (fun core => execDrydownRoundBoundary core s)).orElse (fun _ =>
  (s.fab.drains.findSome? (fun d => (nextOf (execRouterDrainEmpty d.router s)).orElse
    (fun _ => nextOf (execRouterDrainTimeout d.router s)))).orElse (fun _ =>
  (firstOf s.ms.backInv (fun b => execBackInvalidateTimeout b.1 b.2.1 b.2.2.1 s)).orElse (fun _ =>
  if s.mgmt.attQueue.isEmpty then none else nextOf (execAttestationReport s))))

/-- The event that the part takes now, if one is enabled. -/
def State.internalEvent (s : State) : Option State :=
  [State.commandEvents, State.fenceEvents, State.roomEvents, State.packetEvents, State.accessEvents, State.lineEvents, State.unitEvents, State.copyEvents,
    State.fabricEvents, State.contextEvents, State.preemptEvents, State.launchEvents, State.queueEvents,
    State.otherEvents].findSome? (fun f => f s)

/-! ## Time -/

/-- Time that passes in one unit: a base die's cycles also run the hang detectors of its contexts (R96). -/
def State.pass (s : State) (c : Clock) (n : Nat) : State :=
  match c with
  | .base b => (s.tickHang b n).tick (.base b) n
  | .core k => s.tick (.core k) n
  | .die d => s.tick (.die d) n
  | .mc => s.tick .mc n
  | .link i => s.tick (.link i) n

/-- A cycle in which nothing happens: both schedulers' clocks and those of the cores with groups go on. -/
def State.idle (s : State) : State :=
  s.busyCores.foldl (fun t k => t.pass (.core k) 1) ((s.pass (.base 0) 1).pass (.base 1) 1)

/-! ## Turns of the outside world (log 1) -/

/-- A TLB entry dropped to make room (R205): of a core, of a die. -/
def State.evictTlb (s : State) (core die : Option Nat) (base : Nat) : State :=
  { s with ms := { s.ms with
      tlbCore := s.ms.tlbCore.filter (fun e => !(core == some e.1 && e.2.base == base)),
      tlbDie := s.ms.tlbDie.filter (fun e => !(die == some e.1 && e.2.base == base)) } }

/-- A host writes its own memory: a line that the part holds over CXL.cache goes back first (R230). -/
def State.hostOwnWrite (s : State) (port addr : Nat) (bs : List Byte) : State :=
  (s.returnHosts port addr bs.length).hostWrite port addr bs

/-- The group's next fence.rel lets later reads go first (R250). -/
def State.relaxGroup (s : State) (core slot : Nat) : State :=
  match s.group? core slot with
  | some g => s.putGroup { g with relax := true }
  | none => s

/-- A turn taken. -/
def State.takeTurn (s : State) (t : Turn) : Host.Outcome State Fault Refusal :=
  match t with
  | .event i => exec i s
  | .issue core => .next ((s.issueCore core).getD s)
  | .tick c n => .next (s.pass c n)
  | .hostStore port addr bs => .next (s.hostOwnWrite port addr bs)
  | .peerStore peer addr bs => .next (s.peerWrite peer addr bs)
  | .tlbEvict core die base => .next (s.evictTlb core die base)
  | .portMode port mode => .next (s.setPort port (fun p => { p with mode := mode }))
  | .peerDeny ranges => .next { s with fab := { s.fab with peerDeny := ranges } }
  | .passFence core slot => .next (s.relaxGroup core slot)

/-- A machine that nobody outside acts on: the part's own event, else an issue, else a cycle without either. -/
def State.ownStep (s : State) : State := (s.internalEvent.orElse (fun _ => s.issueNext)).getD s.idle

/-- What a FATAL device does on its own: the dump that it attempts for a context, else a cycle without anything (R454; log 11). -/
def State.fatalStep (s : State) : State :=
  (s.sched.ctxs.findSome? (fun c => nextOf (execFenceDumpComplete c.id 0 s))).getD s.idle

end Sys2Proof.Machine
end

