-- ==== Sys2Proof/Machine/Stage.lean ====
section
/-! DEFINITION. A part that is about to run one instruction: everything between State.reset and a group that issues, set at once
(log 2). -/

namespace Sys2Proof.Machine

/-- The kernel of the staged group: one group of one member, every register, slot and bank. -/
def stageKernel : KDesc :=
  { entry := 0x10000, preemptH := 0, trapH := 0x20000, succDesc := 0, imask := 0, m := 1, wgm1 := 0, vgran := 16, sgran := 8,
    pgran := 2, tiles := 16, cohort := 1, banks := 256, succScope := 6, scratch := 4096, paramOff := 0 }

/-- Its launch record. -/
def stageRecord : LaunchRec :=
  { kdesc := 0x8000, gx := 1, gy := 1, gz := 1, param := 0, succn := 0, region := 0, succList := 0, compl := 0, kind := 0,
    waitPrev := false, mbase := 0 }

/-- Its launch, of queue 0 and context 0. -/
def stageLaunch : Launch :=
  { id := 0, queue := 0, ctx := 0, region := 0, index := 0, addr := 0x9000, record := stageRecord, kd := stageKernel, succs := [],
    ready := true, predZero := true, nextWg := 1, retiredWgs := 0, preempted := false, waitSince := 0, bypassed := false, reserving := false, cores := [0],
    status := none, cause := 0, done := false }

/-- Region 0 with the budgets of the whole part. -/
def stageRegion : Region :=
  { id := 0, fdroot := true, prio := 0, level := 0, parent := 0, ovr := 0, cores := 256, vregKib := 131072, banks := 65536,
    tiles := 4096, lshare := 0, st := .opened, fenceRoot := 0 }

/-- Context 0 of port 0, privileged, its hang detector off. -/
def stageContext : Context :=
  { id := 0, port := 0, st := .live, ptroot := 0x100000, cmode := 0x3F0, rtab := 0x110000, saveBase := 0x200000, saveSize := 0x100000,
    fqBase := 0x120000, fqLog := 4, handler := 0, hangRpt := 0x130000, ddLog := 0, ddLogSize := 0, regions := [stageRegion],
    fences := [], saveUsed := [(0x200000, 4096)], fqProd := 0, fqCons := 0, fqHeld := [], hang := 0, ddCount := 0,
    ddUsed := [], ddDiv := 0, ddLost := false, events := [], drainReply := none }

/-- The unit of the staged group, in cluster 0 with 4 KiB of scratch. -/
def stageUnit : HUnit :=
  { id := 0, launch := 0, kdAddr := 0x8000, kd := stageKernel, cluster := 0, scratch := some (0, 4096), scratchGen := 0, st := .running,
    saved := false, wanted := false, wgs := [0], succRead := false, acqScope := 8, placed := 0, saveAt := [], scrImage := [],
    scrBars := [] }

/-- Its workgroup on core 0. -/
def stageWg : Workgroup :=
  { unit := 0, index := 0, core := 0, tileRes := List.range 16, bankRes := List.range 256, tiles := [], handles := [], regroup := none,
    moving := none, round := 0, started := false, hold := false }

/-- The group in slot 0 of core 0, as it starts (R137). -/
def stageGroup : Group := Group.start stageLaunch stageKernel 0 0 0 0 0 0 0x200000 0

/-- Every queue and table of the scheduler but the staged launch is empty. -/
def stageSched : Sched :=
  { Sched.reset with ctxs := [stageContext], launches := [stageLaunch], units := [stageUnit], wgs := [stageWg], groups := [stageGroup],
                     parseSeq := 1, placeSeq := 1, unitSeq := 1, genSeq := 1 }

/-- The translation that core 0 and die 0 hold: addresses 0 to 2 MiB onto themselves, readable, writable, executable, in
device memory with CACHE = 1. -/
def stageLeaf : Leaf := { ctx := 0, base := 0, w0 := 0x000000000000511F, w1 := 0 }

/-- The part with the staged group at an instruction's bytes. -/
def State.staged (s : State) (code : List Byte) : State :=
  { s with
    cur := none, agenda := [], sched := stageSched, eng := Engines.reset,
    ms := { s.ms with mem := s.ms.mem.writeN 0x10000 code, tlbCore := [(0, stageLeaf)], tlbDie := [(0, stageLeaf)], lines := [],
                      shadowKills := [], backInv := [] },
    fab := { s.fab with flows := [], drains := [] },
    mgmt := { s.mgmt with devState := .ready, cmds := [], attQueue := [] } }

end Sys2Proof.Machine
end

