-- ==== Sys2Proof/Machine/Step.lean ====
section
/-! DEFINITION. One step of the part: the next turn that the outside world takes, else what the part does on its own. -/

namespace Sys2Proof.Machine

/-- One step: a turn of the agenda, else what the part does on its own. A FATAL device that nobody resets does nothing more than the
dumps that it attempts (R454; log 11). -/
def step (s : State) : Host.Outcome State Fault Refusal :=
  match s.agenda with
  | t :: rest => ({ s with agenda := rest } : State).takeTurn t
  | [] => .next (if s.mgmt.devState == .fatal then s.fatalStep else s.ownStep)

/-- A state whose next step fetches and runs the instruction whose bits are w (log 2): its bytes as R2 stores them, those above
nbits zero, at the PC of a group that runs alone. -/
def State.withFetchWord (s : State) (nbits w : Nat) : State := s.staged (leBytes 4 (w % 2 ^ nbits))

end Sys2Proof.Machine
end

