-- ==== Sys2Proof/Safety.lean ====
section
/-! DEFINITION. What counts as a safe run, and the invariants in whose terms claims are made: memories in canonical form (log 4),
and link caps that the hardware keeps (R414). -/

namespace Sys2Proof.Machine

/-- A run of n steps that no fault has ended. -/
def State.safeFor (s : State) (n : Nat) : Prop :=
  match core.run n s with
  | .next _ => True
  | .refused _ => True
  | .fault _ => False

/-- Every memory of the part, and those of the hosts and peers, is in canonical form. -/
def State.memOk (s : State) : Prop :=
  s.ms.mem.wf ∧ (∀ x ∈ s.ms.sram, x.2.wf) ∧ (∀ x ∈ s.ms.hostMem, x.2.wf) ∧ (∀ x ∈ s.ms.peerMem, x.2.wf)

/-- The hardware keeps every link's cap at one eighth of full rate or more, the governor's and the limiter's (R414). -/
def State.capsOk (s : State) : Prop := ∀ c ∈ s.fab.linkCaps ++ s.fab.linkLimits, 125 ≤ c.2 ∧ c.2 ≤ 1000

end Sys2Proof.Machine
end

