-- ==== Sys2Proof/Certificates/Slice0/Obligations.lean ====
section
/-! DEFINITION. The statements for the provers, with the words they are made in. The words (namespace Sys2Proof.Claims) say
when an instruction may execute and what a completed one leaves alone; the tables name, per instruction, its operands and
its result as the spec's chapters give them. -/

namespace Sys2Proof.Claims

open Sys2Proof.Machine

/-! ## Words -/

/-- The operand fields of an encoded instruction in ascending order, by the layouts of R60 to R64 and the encoding tables of
the chapters. An instruction without register operands and scope codes, and an event, has none. -/
def operands : Instr → List Opnd
  | .vaddI32 d a b | .vsubI32 d a b | .vmulI32 d a b | .vmulhI32 d a b | .vmulhN32 d a b | .vminI32 d a b | .vmaxI32 d a b
  | .vshl d a b | .vshr d a b | .vsar d a b | .vand d a b | .vor d a b | .vxor d a b | .vbfx d a b
  | .faddF32 d a b | .fsubF32 d a b | .fmulF32 d a b | .fminF32 d a b | .fmaxF32 d a b | .fminNanF32 d a b | .fmaxNanF32 d a b
  | .fcpsgnF32 d a b | .faddH2 _ d a b | .fsubH2 _ d a b | .fmulH2 _ d a b | .fmaH2 _ d a b => [opVd 11 d, opV 18 a, opSrc b false]
  | .vaddI64 d a b | .vsubI64 d a b | .faddF64 d a b | .fsubF64 d a b | .fmulF64 d a b | .fminF64 d a b | .fmaxF64 d a b
  | .fminNanF64 d a b | .fmaxNanF64 d a b | .fcpsgnF64 d a b => [opWd 11 d, opW 18 a, opSrc b true]
  | .vcmpEqI32 p a b | .vcmpNeI32 p a b | .vcmpLtI32 p a b | .vcmpLeI32 p a b | .vcmpLtN32 p a b | .vcmpLeN32 p a b
  | .fcmpEqF32 p a b | .fcmpLtF32 p a b | .fcmpLeF32 p a b | .fcmpUnF32 p a b => [opPd 11 p, opV 18 a, opSrc b false]
  | .vcmpEqI64 p a b | .vcmpLtI64 p a b | .fcmpEqF64 p a b | .fcmpLtF64 p a b | .fcmpLeF64 p a b | .fcmpUnF64 p a b =>
    [opPd 11 p, opW 18 a, opSrc b true]
  | .vaddi d a _ | .vandi d a _ | .vori d a _ | .vxori d a _ | .vshli d a _ | .vshri d a _ | .vsari d a _ | .vroli d a _
  | .vpopc d a | .vclz d a | .vbrev d a => [opVd 7 d, opV 14 a]
  | .vcmpiEq p a _ | .vcmpiNe p a _ | .vcmpiLtI32 p a _ | .vcmpiLeI32 p a _ | .vcmpiGtI32 p a _ | .vcmpiGeI32 p a _
  | .vcmpiLtN32 p a _ | .vcmpiGeN32 p a _ => [opPd 7 p, opV 14 a]
  | .fmaF32 _ d a b | .fnmaF32 _ d a b | .fdivF32 d a b | .shflIdx d a b | .mshfl d a b | .mstatRankF32 d a b =>
    [opVd 11 d, opV 18 a, opV 25 b]
  | .fmaF64 _ d a b | .fnmaF64 _ d a b | .fdivF64 d a b => [opWd 11 d, opW 18 a, opW 25 b]
  | .cvt _ d a s t => [opTyped 11 d t true, opTyped 18 a s false]
  | .frcpF32 d a | .frsqrtF32 d a | .fsqrtF32 d a | .fexp2F32 d a | .flog2F32 d a | .fsinF32 d a | .fcosF32 d a | .ftanhF32 d a
  | .fclassF32 d a | .froundF32 d a _ | .mstatMeanF32 d a | .mstatVarF32 d a | .mstatMinF32 d a | .mstatMaxF32 d a
  | .vmov d a => [opVd 11 d, opV 18 a]
  | .fsqrtF64 d a | .frcpF64 d a | .froundF64 d a _ | .mstatMeanF64 d a | .mstatVarF64 d a => [opWd 11 d, opW 18 a]
  | .fclassF64 d a => [opVd 11 d, opW 18 a]
  | .shflUp d a b | .shflDown d a b | .shflXor d a b | .vlane d a b | .mstatQuantF32 d a b => [opVd 11 d, opV 18 a, opS 25 b]
  | .vmovs d a b => [opS 11 d, opV 18 a, opS 25 b]
  | .sadd d a b | .ssub d a b | .smul d a b | .smulhI64 d a b | .smulhN64 d a b | .sand d a b | .sor d a b | .sxor d a b
  | .sshl d a b | .sshr d a b | .ssar d a b | .sminI64 d a b | .smaxI64 d a b | .sminN64 d a b | .smaxN64 d a b | .sdivI64 d a b
  | .sdivN64 d a b | .sremI64 d a b | .sremN64 d a b | .ginsp d a b | .enq d a b | .btest d a b | .ctarm d a b | .ctquery d a b
  | .xlate d a b | .tlbinv d a b => [opS 12 d, opS 18 a, opS 24 b]
  | .smov d a | .spopc d a | .sclz d a | .sshli d a _ | .sshri d a _ | .ssari d a _ | .ctdisarm d a => [opS 12 d, opS 18 a]
  | .saddi d a _ | .sandi d a _ | .sori d a _ | .sxori d a _ => [opS 7 d, opS 14 a]
  | .sli d _ | .slih d _ => [opS 7 d]
  | .scmp a b | .stest a b | .yield a b | .gresume a b | .mregroup a b | .binit a b | .bexp a b => [opS 18 a, opS 24 b]
  | .scmpi a _ | .mtcr _ a | .mkey a | .mrestore a | .binval a | .mwait a | .aballoc _ a => [opS 18 a]
  | .pand d a b | .por d a b | .pxor d a b | .pandn d a b => [opPd 11 d, opP 18 a, opP 25 b]
  | .pnot d a | .pmov d a => [opPd 11 d, opP 18 a]
  | .pset d | .pclr d => [opPd 11 d]
  | .ppopc d a | .pext d a _ => [opS 11 d, opP 18 a]
  | .vsel n d a b => [opP 7 n, opVd 11 d, opV 18 a, opV 25 b]
  | .vbcast d a => [opVd 11 d, opS 18 a]
  | .pins d a _ => [opPd 11 d, opS 18 a]
  | .vmovp d a => [opVd 11 d, opP 18 a]
  | .pmovv d a => [opPd 11 d, opV 18 a]
  | .faddF32Compact d x | .fsubF32Compact d x | .fmulF32Compact d x | .fmaxF32Compact d x | .fminF32Compact d x
  | .vaddI32Compact d x | .vsubI32Compact d x | .vmulI32Compact d x | .vandCompact d x | .vorCompact d x | .vxorCompact d x
  | .vshlCompact d x | .vshrCompact d x | .vsarCompact d x | .vmovCompact d x | .vnotCompact d x => [opVd 5 d, opV 11 x]
  | .brc k _ => if 9 ≤ k.val then [opP 7 0] else []
  | .brd n _ _ => [opP 7 n]
  | .jmpi a | .hnchk a _ => [opS 11 a]
  | .loop n _ => [opS 7 (16 + n.val)]
  | .mfcr d _ | .clock d | .mode d _ | .mfence d => [opS 12 d]
  | .ld t d b i | .ldHn t d b i =>
    [if typeWidth t == 8 then opWd 11 d else opVd 11 d, opS 18 b] ++ (i.map (fun r => opV 24 r.val)).toList
  | .st t d b i => [if typeWidth t == 8 then opW 11 d else opV 11 d, opS 18 b] ++ (i.map (fun r => opV 24 r.val)).toList
  | .lds t d b i => [if t.val == 5 then opWd 11 d else opVd 11 d, opS 18 b] ++ (i.map (fun r => opV 24 r.val)).toList
  | .sts t d b i => [if t.val == 5 then opW 11 d else opV 11 d, opS 18 b] ++ (i.map (fun r => opV 24 r.val)).toList
  | .pfetch _ b i => [opS 18 b] ++ (i.map (fun r => opV 24 r.val)).toList
  | .atom o d b i k => [if atomPair o then opWd 11 d else opVd 11 d, opS 18 b, opV 24 i, opScope 28 k]
  | .red o d b i k => [if atomPair o then opW 11 d else opV 11 d, opS 18 b, opV 24 i, opScope 28 k]
  | .fenceAcq k | .fenceRel k | .fenceFull k => [opScope 28 k]
  | .llcflush l b => [opS 11 l, opS 18 b]
  | .cpy a => [opS 18 (a.val + 3)]
  | .cpy2 a => [opS 18 (a.val + 5)]
  | .hcpy a => [opS 18 (a.val + 7)]
  | .barr k a b | .bwait k a b => [opScope 12 k, opS 18 a, opS 24 b]
  | .rput a | .rget a => [opS 18 (a.val + 3)]
  | .tld _ a k => [opS 18 a, opS 24 k]
  | .acld a w _ | .acst a w _ => [opS 11 a, opS 18 w]
  | .xaddF64 v _ _ => [opW 11 v]
  | .xaddF32 v _ _ => [opV 11 v]
  | .xaddpF32 a _ _ b => [opV 11 a, opV 25 b]
  | .xroundF64 _ d _ _ => [opWd 11 d]
  | .xroundF32 _ d _ _ => [opVd 11 d]
  | .xpack _ _ a | .xunpack _ _ a | .xld _ _ a | .xst _ _ a => [opS 18 a]
  | _ => []

/-- A group may execute its next instruction: State.cur names it with its PC slot; in a handler its trap frame is written, its
queue entries were complete at the first instruction, and a .handler preempt that has retired 4,096 instructions issues yield
(R176, R177, R186); no release of an earlier fence.rel, no late trap and no acquire of its first instruction comes first (R126,
R250, R263). -/
structure Issuable (s : State) (c : Iss) : Prop where
  issuing : s.issuing = some c
  inHandler : ∀ f, c.g.hdl = some f → f.framed = true ∧ (f.retired = 0 → s.queued c.g = false) ∧
    (f.pre = true → f.restored = false → 4096 ≤ f.retired → isYield c.raw.toNat = true)
  noFence : c.g.relFence = none
  noLate : c.g.lateTrap = none
  noAcquire : c.g.acquire = none

/-- A group may issue the instruction now: its operands pass R67 and R68, and none of its registers is still to be written (R159,
R312). -/
structure Ready (s : State) (c : Iss) (i : Instr) : Prop extends Issuable s c where
  checked : checkOperands c (operands i) = none
  clear : c.clears (operands i) = true

/-- What an instruction leaves that changes nothing but its own group: every memory, every engine, link and management
register, every other group, every workgroup's register resources, every queue, launch and unit is as before. -/
structure OwnGroupOnly (s t : State) (c : Iss) : Prop where
  memory : t.ms = s.ms
  engines : t.eng = s.eng
  fabric : t.fab = s.fab
  management : t.mgmt = s.mgmt
  groups : ∀ k j, ¬(k = c.g.core ∧ j = c.g.slot) → t.group? k j = s.group? k j
  queues : t.sched.queues = s.sched.queues
  launches : t.sched.launches = s.sched.launches
  units : t.sched.units = s.sched.units
  idle : t.cur = none

/-- The issuing group as an instruction leaves it: `g` with the PC of the issuing slot past the instruction, and the instruction
counted (R106, R129). -/
def movedOn (c : Iss) (g : Group) : Group := (g.advance c.which c.len).stamp c.which

/-- The same with the PC of the issuing slot at an address. -/
def jumped (c : Iss) (g : Group) (pc : Nat) : Group := (g.jump c.which pc).stamp c.which

/-- An instruction of one step: it completes, its group is then as `P` says, and everything outside its group is as in `s'`. -/
def CompletesIn (i : Instr) (s : State) (c : Iss) (s' : State) (P : Group → Prop) : Prop :=
  ∃ t g, exec i s = .next t ∧ t.group? c.g.core c.g.slot = some g ∧ OwnGroupOnly s' t c ∧ P g

/-- An instruction that completes and changes nothing outside its group. -/
def Completes (i : Instr) (s : State) (c : Iss) (P : Group → Prop) : Prop := CompletesIn i s c s P

end Sys2Proof.Claims

namespace Sys2Proof.Claims

open Sys2Proof.Machine

/-! ## What a register write leaves -/

/-- The group holds register r of element e (its kernel declared the register, its member exists: R67, R136). -/
abbrev Holds (g : Group) (r e : Nat) : Prop := r < g.vregs.length ∧ e < (g.vregs.getD r []).length

/-- Register d takes x(e) in the active elements; every other element and register, and every other part of the group but
the issuing slot's PC and the counts, is as before. -/
def VectorWritten (c : Iss) (d : Nat) (x : Nat → Word32) (g : Group) : Prop :=
  g = { movedOn c c.g with vregs := g.vregs } ∧
    ∀ r e, g.v r e = if r = d ∧ c.mask.getLsbD e = true ∧ Holds c.g r e then x e else c.g.v r e

/-- The pair d, d + 1 takes x(e) in the active elements: the low half in register d. -/
def PairWritten (c : Iss) (d : Nat) (x : Nat → Word64) (g : Group) : Prop :=
  g = { movedOn c c.g with vregs := g.vregs } ∧
    ∀ r e, g.v r e = if r = d ∧ c.mask.getLsbD e = true ∧ Holds c.g r e then (x e).setWidth 32
      else if r = d + 1 ∧ c.mask.getLsbD e = true ∧ Holds c.g r e then (x e >>> 32).setWidth 32 else c.g.v r e

/-- Predicate d takes x(e) in the active elements; every other bit and predicate is as before. -/
def PredicateWritten (c : Iss) (d : Nat) (x : Nat → Bool) (g : Group) : Prop :=
  g = { movedOn c c.g with pregs := g.pregs } ∧
    ∀ r e, (g.p r).getLsbD e = if r = d ∧ c.mask.getLsbD e = true ∧ r < c.g.pregs.length then x e else (c.g.p r).getLsbD e

/-- Uniform register d takes x; every other one is as before. -/
def UniformWritten (c : Iss) (d : Nat) (x : Word64) (g : Group) : Prop :=
  g = { movedOn c c.g with sregs := g.sregs } ∧ ∀ r, g.s r = if r = d ∧ r < c.g.sregs.length then x else c.g.s r

/-! ## Results of the integer instructions -/

/-- The signed value of the low w bits of a number. -/
def signedOf (w x : Nat) : Int := if (x % 2 ^ w).testBit (w - 1) then (x % 2 ^ w : Nat) - (2 ^ w : Nat) else (x % 2 ^ w : Nat)

/-- The table of R294 with R295: destination, first source, second source, result. -/
def wordTable : Instr → Option (Nat × Nat × VSrc × (Word32 → Word32 → Word32))
  | .vaddI32 d a b => some (d, a, b, fun x y => BitVec.ofNat 32 (x.toNat + y.toNat))
  | .vsubI32 d a b => some (d, a, b, fun x y => BitVec.ofInt 32 (x.toInt - y.toInt))
  | .vmulI32 d a b => some (d, a, b, fun x y => BitVec.ofNat 32 (x.toNat * y.toNat))
  | .vmulhI32 d a b => some (d, a, b, fun x y => BitVec.ofInt 32 (x.toInt * y.toInt / 2 ^ 32))
  | .vmulhN32 d a b => some (d, a, b, fun x y => BitVec.ofNat 32 (x.toNat * y.toNat / 2 ^ 32))
  | .vminI32 d a b => some (d, a, b, fun x y => BitVec.ofInt 32 (min x.toInt y.toInt))
  | .vmaxI32 d a b => some (d, a, b, fun x y => BitVec.ofInt 32 (max x.toInt y.toInt))
  | .vshl d a b => some (d, a, b, fun x y => BitVec.ofNat 32 (x.toNat * 2 ^ (y.toNat % 32)))
  | .vshr d a b => some (d, a, b, fun x y => BitVec.ofNat 32 (x.toNat / 2 ^ (y.toNat % 32)))
  | .vsar d a b => some (d, a, b, fun x y => BitVec.ofInt 32 (x.toInt / 2 ^ (y.toNat % 32)))
  | .vand d a b => some (d, a, b, fun x y => x &&& y)
  | .vor d a b => some (d, a, b, fun x y => x ||| y)
  | .vxor d a b => some (d, a, b, fun x y => x ^^^ y)
  | .vbfx d a b => some (d, a, b, fun x y =>
      let w := y.toNat / 2 ^ 8 % 32 + 1
      let f := x.toNat / 2 ^ (y.toNat % 32) % 2 ^ w
      if y.getLsbD 16 then BitVec.ofInt 32 (signedOf w f) else BitVec.ofNat 32 f)
  | _ => none

/-- R296: the pair operations. -/
def pairTable : Instr → Option (Nat × Nat × VSrc × (Word64 → Word64 → Word64))
  | .vaddI64 d a b => some (d, a, b, fun x y => BitVec.ofNat 64 (x.toNat + y.toNat))
  | .vsubI64 d a b => some (d, a, b, fun x y => BitVec.ofInt 64 (x.toInt - y.toInt))
  | _ => none

/-- The table of R298. -/
def immediateTable : Instr → Option (Nat × Nat × (Word32 → Word32))
  | .vaddi d a i => some (d, a, fun x => BitVec.ofInt 32 (x.toInt + i.toInt))
  | .vandi d a i => some (d, a, fun x => x &&& BitVec.ofInt 32 i.toInt)
  | .vori d a i => some (d, a, fun x => x ||| BitVec.ofInt 32 i.toInt)
  | .vxori d a i => some (d, a, fun x => x ^^^ BitVec.ofInt 32 i.toInt)
  | .vshli d a n => some (d, a, fun x => BitVec.ofNat 32 (x.toNat * 2 ^ n.val))
  | .vshri d a n => some (d, a, fun x => BitVec.ofNat 32 (x.toNat / 2 ^ n.val))
  | .vsari d a n => some (d, a, fun x => BitVec.ofInt 32 (x.toInt / 2 ^ n.val))
  | .vroli d a n => some (d, a, fun x => BitVec.ofNat 32 (x.toNat * 2 ^ n.val + x.toNat / 2 ^ (32 - n.val)))
  | .vpopc d a => some (d, a, fun x => BitVec.ofNat 32 (popCount x))
  | .vclz d a => some (d, a, fun x => BitVec.ofNat 32 (leadingZeros x))
  | .vbrev d a => some (d, a, fun x => x.reverse)
  | _ => none

/-- The relations of R299 on 32-bit operands, and on pairs. -/
def compareTable : Instr → Option (Nat × Nat × VSrc × (Word32 → Word32 → Prop))
  | .vcmpEqI32 p a b => some (p, a, b, fun x y => x = y)
  | .vcmpNeI32 p a b => some (p, a, b, fun x y => x ≠ y)
  | .vcmpLtI32 p a b => some (p, a, b, fun x y => x.toInt < y.toInt)
  | .vcmpLeI32 p a b => some (p, a, b, fun x y => x.toInt ≤ y.toInt)
  | .vcmpLtN32 p a b => some (p, a, b, fun x y => x.toNat < y.toNat)
  | .vcmpLeN32 p a b => some (p, a, b, fun x y => x.toNat ≤ y.toNat)
  | _ => none

/-- The two relations of R299 on pairs. -/
def comparePairTable : Instr → Option (Nat × Nat × VSrc × (Word64 → Word64 → Prop))
  | .vcmpEqI64 p a b => some (p, a, b, fun x y => x = y)
  | .vcmpLtI64 p a b => some (p, a, b, fun x y => x.toInt < y.toInt)
  | _ => none

/-- The relations of R300. -/
def compareImmediateTable : Instr → Option (Nat × Nat × (Word32 → Prop))
  | .vcmpiEq p a i => some (p, a, fun x => x = BitVec.ofInt 32 i.toInt)
  | .vcmpiNe p a i => some (p, a, fun x => x ≠ BitVec.ofInt 32 i.toInt)
  | .vcmpiLtI32 p a i => some (p, a, fun x => x.toInt < i.toInt)
  | .vcmpiLeI32 p a i => some (p, a, fun x => x.toInt ≤ i.toInt)
  | .vcmpiGtI32 p a i => some (p, a, fun x => i.toInt < x.toInt)
  | .vcmpiGeI32 p a i => some (p, a, fun x => i.toInt ≤ x.toInt)
  | .vcmpiLtN32 p a i => some (p, a, fun x => x.toNat < (BitVec.ofInt 32 i.toInt).toNat)
  | .vcmpiGeN32 p a i => some (p, a, fun x => (BitVec.ofInt 32 i.toInt).toNat ≤ x.toNat)
  | _ => none

/-- The quotient and remainder of R302. -/
def divS (a b : Word64) : Int × Int :=
  if b.toInt = 0 then (-1, a.toInt)
  else if a.toInt = -2 ^ 63 ∧ b.toInt = -1 then (-2 ^ 63, 0)
  else (a.toInt.tdiv b.toInt, a.toInt - a.toInt.tdiv b.toInt * b.toInt)

/-- The unsigned quotient and remainder of R302. -/
def divU (a b : Word64) : Nat × Nat :=
  if b.toNat = 0 then (2 ^ 64 - 1, a.toNat) else (a.toNat / b.toNat, a.toNat % b.toNat)

/-- The tables of R301 to R304, ppopc of R306 and pext of R308: destination and value, from the issuing group. -/
def uniformTable (c : Iss) : Instr → Option (Nat × Word64)
  | .sadd d a b => some (d, BitVec.ofNat 64 ((c.g.s a).toNat + (c.g.s b).toNat))
  | .ssub d a b => some (d, BitVec.ofInt 64 ((c.g.s a).toInt - (c.g.s b).toInt))
  | .smul d a b => some (d, BitVec.ofNat 64 ((c.g.s a).toNat * (c.g.s b).toNat))
  | .smulhI64 d a b => some (d, BitVec.ofInt 64 ((c.g.s a).toInt * (c.g.s b).toInt / 2 ^ 64))
  | .smulhN64 d a b => some (d, BitVec.ofNat 64 ((c.g.s a).toNat * (c.g.s b).toNat / 2 ^ 64))
  | .sand d a b => some (d, c.g.s a &&& c.g.s b)
  | .sor d a b => some (d, c.g.s a ||| c.g.s b)
  | .sxor d a b => some (d, c.g.s a ^^^ c.g.s b)
  | .sshl d a b => some (d, BitVec.ofNat 64 ((c.g.s a).toNat * 2 ^ ((c.g.s b).toNat % 64)))
  | .sshr d a b => some (d, BitVec.ofNat 64 ((c.g.s a).toNat / 2 ^ ((c.g.s b).toNat % 64)))
  | .ssar d a b => some (d, BitVec.ofInt 64 ((c.g.s a).toInt / 2 ^ ((c.g.s b).toNat % 64)))
  | .sminI64 d a b => some (d, BitVec.ofInt 64 (min (c.g.s a).toInt (c.g.s b).toInt))
  | .smaxI64 d a b => some (d, BitVec.ofInt 64 (max (c.g.s a).toInt (c.g.s b).toInt))
  | .sminN64 d a b => some (d, BitVec.ofNat 64 (min (c.g.s a).toNat (c.g.s b).toNat))
  | .smaxN64 d a b => some (d, BitVec.ofNat 64 (max (c.g.s a).toNat (c.g.s b).toNat))
  | .smov d a => some (d, c.g.s a)
  | .spopc d a => some (d, BitVec.ofNat 64 (popCount (c.g.s a)))
  | .sclz d a => some (d, BitVec.ofNat 64 (leadingZeros (c.g.s a)))
  | .sdivI64 d a b => some (d, BitVec.ofInt 64 (divS (c.g.s a) (c.g.s b)).1)
  | .sdivN64 d a b => some (d, BitVec.ofNat 64 (divU (c.g.s a) (c.g.s b)).1)
  | .sremI64 d a b => some (d, BitVec.ofInt 64 (divS (c.g.s a) (c.g.s b)).2)
  | .sremN64 d a b => some (d, BitVec.ofNat 64 (divU (c.g.s a) (c.g.s b)).2)
  | .sshli d a n => some (d, BitVec.ofNat 64 ((c.g.s a).toNat * 2 ^ n.val))
  | .sshri d a n => some (d, BitVec.ofNat 64 ((c.g.s a).toNat / 2 ^ n.val))
  | .ssari d a n => some (d, BitVec.ofInt 64 ((c.g.s a).toInt / 2 ^ n.val))
  | .saddi d a i => some (d, BitVec.ofInt 64 ((c.g.s a).toInt + i.toInt))
  | .sandi d a i => some (d, c.g.s a &&& BitVec.ofInt 64 i.toInt)
  | .sori d a i => some (d, c.g.s a ||| BitVec.ofInt 64 i.toInt)
  | .sxori d a i => some (d, c.g.s a ^^^ BitVec.ofInt 64 i.toInt)
  | .sli d i => some (d, BitVec.ofInt 64 i.toInt)
  | .slih d i => some (d, BitVec.ofNat 64 ((c.g.s d).toNat * 2 ^ 18 + i.toNat))
  | .ppopc d a => some (d, BitVec.ofNat 64 (popCount (c.g.p a &&& c.mask)))
  | .pext d a q => some (d, BitVec.ofNat 64 ((c.g.p a).toNat / 2 ^ (64 * q.val)))
  | _ => none

/-- R305 with R66: EQ, LT and LO of a comparison, or EQ of a test. -/
def conditionTable (c : Iss) : Instr → Option (Bool × Bool × Bool)
  | .scmp a b => some (decide (c.g.s a = c.g.s b), decide ((c.g.s a).toInt < (c.g.s b).toInt), decide ((c.g.s a).toNat < (c.g.s b).toNat))
  | .scmpi a i => some (decide ((c.g.s a).toInt = i.toInt), decide ((c.g.s a).toInt < i.toInt),
      decide ((c.g.s a).toNat < (BitVec.ofInt 64 i.toInt).toNat))
  | .stest a b => some (decide (c.g.s a &&& c.g.s b = 0), false, false)
  | _ => none

/-- R306 and the predicate moves of R308: destination, the elements that the instruction writes, their bits. -/
def predicateTable (c : Iss) : Instr → Option (Nat × (Nat → Bool) × (Nat → Bool))
  | .pand d a b => some (d, fun _ => true, fun e => (c.g.p a).getLsbD e && (c.g.p b).getLsbD e)
  | .por d a b => some (d, fun _ => true, fun e => (c.g.p a).getLsbD e || (c.g.p b).getLsbD e)
  | .pxor d a b => some (d, fun _ => true, fun e => (c.g.p a).getLsbD e != (c.g.p b).getLsbD e)
  | .pandn d a b => some (d, fun _ => true, fun e => (c.g.p a).getLsbD e && !(c.g.p b).getLsbD e)
  | .pnot d a => some (d, fun _ => true, fun e => !(c.g.p a).getLsbD e)
  | .pset d => some (d, fun _ => true, fun _ => true)
  | .pclr d => some (d, fun _ => true, fun _ => false)
  | .pmov d a => some (d, fun _ => true, fun e => (c.g.p a).getLsbD e)
  | .pins d a q => some (d, fun e => decide (64 * q.val ≤ e ∧ e < 64 * q.val + 64), fun e => (c.g.s a).getLsbD (e - 64 * q.val))
  | .pmovv d a => some (d, fun _ => true, fun e => decide (e < c.g.width ∧ c.g.v a e ≠ 0))
  | _ => none

/-- The selects and vector moves of R308. -/
def moveTable (c : Iss) : Instr → Option (Nat × (Nat → Word32))
  | .vsel n d a b => some (d, fun e => if (c.g.p n).getLsbD e then c.g.v a e else c.g.v b e)
  | .vmov d a => some (d, fun e => c.g.v a e)
  | .vbcast d a => some (d, fun _ => (c.g.s a).setWidth 32)
  | .vmovp d a => some (d, fun e => if (c.g.p a).getLsbD e then 1 else 0)
  | _ => none

/-- R309: a compact form and the full form whose effect it has, vd being the first source. -/
def compactTable : Instr → Option (Nat × Nat × (Word32 → Word32 → Word32))
  | .vaddI32Compact d x => some (d, x, fun a b => BitVec.ofNat 32 (a.toNat + b.toNat))
  | .vsubI32Compact d x => some (d, x, fun a b => BitVec.ofInt 32 (a.toInt - b.toInt))
  | .vmulI32Compact d x => some (d, x, fun a b => BitVec.ofNat 32 (a.toNat * b.toNat))
  | .vandCompact d x => some (d, x, fun a b => a &&& b)
  | .vorCompact d x => some (d, x, fun a b => a ||| b)
  | .vxorCompact d x => some (d, x, fun a b => a ^^^ b)
  | .vshlCompact d x => some (d, x, fun a b => BitVec.ofNat 32 (a.toNat * 2 ^ (b.toNat % 32)))
  | .vshrCompact d x => some (d, x, fun a b => BitVec.ofNat 32 (a.toNat / 2 ^ (b.toNat % 32)))
  | .vsarCompact d x => some (d, x, fun a b => BitVec.ofInt 32 (a.toInt / 2 ^ (b.toNat % 32)))
  | .vmovCompact d x => some (d, x, fun _ b => b)
  | .vnotCompact d x => some (d, x, fun _ b => b ^^^ 0xFFFFFFFF)
  | _ => none

end Sys2Proof.Claims

open Sys2Proof Sys2Proof.Machine Sys2Proof.Claims

/-! ## Integer, uniform and predicate instructions (spec file 12) -/

/-- R294, R295: vadd.i32, vsub.i32, vmul.i32, vmulh.i32, vmulh.n32, vmin.i32, vmax.i32, vshl, vshr, vsar, vand, vor, vxor and
vbfx complete and write v[vd] in the active elements as the table gives it, with either second source. -/
def Sys2Proof.Claims.IntegerVector : Prop :=
  ∀ i d a b f s c, wordTable i = some (d, a, b, f) → Ready s c i →
    Completes i s c (VectorWritten c d (fun e => f (c.g.v a e) (c.g.src32 b e)))

/-- R296: vadd.i64 and vsub.i64 complete and write both halves of the pair. -/
def Sys2Proof.Claims.IntegerPair : Prop :=
  ∀ i d a b f s c, pairTable i = some (d, a, b, f) → Ready s c i →
    Completes i s c (PairWritten c d (fun e => f (c.g.v64 a e) (c.g.src64 b e)))

/-- R298: the vector instructions with an immediate complete and write v[vd] as the table gives it. -/
def Sys2Proof.Claims.IntegerImmediate : Prop :=
  ∀ i d a f s c, immediateTable i = some (d, a, f) → Ready s c i →
    Completes i s c (VectorWritten c d (fun e => f (c.g.v a e)))

/-- R299, R300: the integer compares complete and write the relation's value into p[pd] in the active elements. -/
def Obligations.IntegerCompare : Prop :=
  (∀ i p a b f s c, compareTable i = some (p, a, b, f) → Ready s c i →
    Completes i s c (fun g => ∃ x : Nat → Bool, (∀ e, x e = true ↔ e < c.g.width ∧ f (c.g.v a e) (c.g.src32 b e)) ∧
      PredicateWritten c p x g)) ∧
  (∀ i p a b f s c, comparePairTable i = some (p, a, b, f) → Ready s c i →
    Completes i s c (fun g => ∃ x : Nat → Bool, (∀ e, x e = true ↔ e < c.g.width ∧ f (c.g.v64 a e) (c.g.src64 b e)) ∧
      PredicateWritten c p x g)) ∧
  (∀ i p a f s c, compareImmediateTable i = some (p, a, f) → Ready s c i →
    Completes i s c (fun g => ∃ x : Nat → Bool, (∀ e, x e = true ↔ e < c.g.width ∧ f (c.g.v a e)) ∧ PredicateWritten c p x g))

/-- R301 to R304, ppopc of R306, pext of R308: the uniform instructions complete and write one uniform register. -/
def Sys2Proof.Claims.UniformArithmetic : Prop :=
  ∀ i d x s c, uniformTable c i = some (d, x) → Ready s c i → Completes i s c (UniformWritten c d x)

/-- R305: scmp, scmpi and stest complete and write UCOND alone. -/
def Sys2Proof.Claims.UniformCondition : Prop :=
  ∀ i eq lt lo s c, conditionTable c i = some (eq, lt, lo) → Ready s c i →
    Completes i s c (fun g => g = { movedOn c c.g with ucond := g.ucond } ∧ g.ucond.getLsbD 0 = eq ∧ g.ucond.getLsbD 1 = lt ∧
      g.ucond.getLsbD 2 = lo)

/-- R306, R308: the predicate operations, pmov, pins and pmovv complete and write the active elements of p[pd]. -/
def Obligations.PredicateOperations : Prop :=
  ∀ i d w x s c, predicateTable c i = some (d, w, x) → Ready s c i →
    Completes i s c (PredicateWritten c d (fun e => if w e then x e else (c.g.p d).getLsbD e))

/-- R308, R309: vsel, the vector moves and the compact integer forms complete and write v[vd] in the active elements. -/
def Obligations.MovesAndCompact : Prop :=
  (∀ i d x s c, moveTable c i = some (d, x) → Ready s c i → Completes i s c (VectorWritten c d x)) ∧
  (∀ i d x f s c, compactTable i = some (d, x, f) → Ready s c i →
    Completes i s c (VectorWritten c d (fun e => f (c.g.v d e) (c.g.v x e))))

namespace Sys2Proof.Claims

open Sys2Proof.Machine

/-! ## Results of the floating-point and lane instructions -/

/-- The exception bits of the active elements, ORed into FLAGS (R37). -/
def FlagsRaised (c : Iss) (x : Nat → Nat × Flags) (f : Flags) : Prop :=
  ∀ k, f.getLsbD k = true ↔ c.g.flags.getLsbD k = true ∨
    ∃ e, e < c.g.width ∧ c.mask.getLsbD e = true ∧ (x e).2.getLsbD k = true

/-- Register d takes the codes of x in the active elements, FLAGS their exception bits. -/
def FloatWritten (c : Iss) (d : Nat) (x : Nat → Nat × Flags) (g : Group) : Prop :=
  g = { movedOn c c.g with vregs := g.vregs, flags := g.flags } ∧ FlagsRaised c x g.flags ∧
    ∀ r e, g.v r e = if r = d ∧ c.mask.getLsbD e = true ∧ Holds c.g r e then BitVec.ofNat 32 (x e).1 else c.g.v r e

/-- The pair d, d + 1 takes the codes of x in the active elements, FLAGS their exception bits. -/
def FloatPairWritten (c : Iss) (d : Nat) (x : Nat → Nat × Flags) (g : Group) : Prop :=
  g = { movedOn c c.g with vregs := g.vregs, flags := g.flags } ∧ FlagsRaised c x g.flags ∧
    ∀ r e, g.v r e = if r = d ∧ c.mask.getLsbD e = true ∧ Holds c.g r e then (BitVec.ofNat 64 (x e).1).setWidth 32
      else if r = d + 1 ∧ c.mask.getLsbD e = true ∧ Holds c.g r e then (BitVec.ofNat 64 (x e).1 >>> 32).setWidth 32 else c.g.v r e

/-- The codes of an element: a register, a second source, a pair. -/
def code (c : Iss) (r : Nat) (e : Nat) : Nat := (c.g.v r e).toNat
/-- The code of a 32-bit second source. -/
def code2 (c : Iss) (b : VSrc) (e : Nat) : Nat := (c.g.src32 b e).toNat
/-- The code of a pair. -/
def code64 (c : Iss) (r : Nat) (e : Nat) : Nat := (c.g.v64 r e).toNat
/-- The code of a 64-bit second source. -/
def code642 (c : Iss) (b : VSrc) (e : Nat) : Nat := (c.g.src64 b e).toNat

/-- An h2 result: the operation on bits [15:0] and on bits [31:16] (R317). -/
def onHalves (f : Nat → Nat → Nat → Nat × Flags) (x y z : Nat) : Nat × Flags :=
  ((f (x % 2 ^ 16) (y % 2 ^ 16) (z % 2 ^ 16)).1 + 2 ^ 16 * (f (x / 2 ^ 16) (y / 2 ^ 16) (z / 2 ^ 16)).1,
   (f (x % 2 ^ 16) (y % 2 ^ 16) (z % 2 ^ 16)).2 ||| (f (x / 2 ^ 16) (y / 2 ^ 16) (z / 2 ^ 16)).2)

/-- R315, R316, R317, R319, R325, R326 for 32-bit results: destination, and code and exception bits of an element. -/
def floatTable (c : Iss) : Instr → Option (Nat × (Nat → Nat × Flags))
  | .faddF32 d a b => some (d, fun e => fAdd fmtF32 (code c a e) (code2 c b e))
  | .fsubF32 d a b => some (d, fun e => fSub fmtF32 (code c a e) (code2 c b e))
  | .fmulF32 d a b => some (d, fun e => fMul fmtF32 (code c a e) (code2 c b e))
  | .fminF32 d a b => some (d, fun e => (fMinMax fmtF32 false false (code c a e) (code2 c b e), 0))
  | .fmaxF32 d a b => some (d, fun e => (fMinMax fmtF32 true false (code c a e) (code2 c b e), 0))
  | .fminNanF32 d a b => some (d, fun e => (fMinMax fmtF32 false true (code c a e) (code2 c b e), 0))
  | .fmaxNanF32 d a b => some (d, fun e => (fMinMax fmtF32 true true (code c a e) (code2 c b e), 0))
  | .fcpsgnF32 d a b => some (d, fun e => (fCopySign fmtF32 (code c a e) (code2 c b e), 0))
  | .faddH2 t d a b => some (d, fun e => onHalves (fun x y _ => fAdd (h2Fmt t) x y) (code c a e) (code2 c b e) (code c d e))
  | .fsubH2 t d a b => some (d, fun e => onHalves (fun x y _ => fSub (h2Fmt t) x y) (code c a e) (code2 c b e) (code c d e))
  | .fmulH2 t d a b => some (d, fun e => onHalves (fun x y _ => fMul (h2Fmt t) x y) (code c a e) (code2 c b e) (code c d e))
  | .fmaH2 t d a b => some (d, fun e => onHalves (fFma (h2Fmt t) 0 false) (code c a e) (code2 c b e) (code c d e))
  | .fmaF32 r d a b => some (d, fun e => fFma fmtF32 r false (code c a e) (code c b e) (code c d e))
  | .fnmaF32 r d a b => some (d, fun e => fFma fmtF32 r true (code c a e) (code c b e) (code c d e))
  | .fclassF32 d a => some (d, fun e => (fClass fmtF32 (code c a e), 0))
  | .fclassF64 d a => some (d, fun e => (fClass fmtF64 (code64 c a e), 0))
  | .froundF32 d a r => some (d, fun e => (fRound fmtF32 r (code c a e), 0))
  | .faddF32Compact d x => some (d, fun e => fAdd fmtF32 (code c d e) (code c x e))
  | .fsubF32Compact d x => some (d, fun e => fSub fmtF32 (code c d e) (code c x e))
  | .fmulF32Compact d x => some (d, fun e => fMul fmtF32 (code c d e) (code c x e))
  | .fmaxF32Compact d x => some (d, fun e => (fMinMax fmtF32 true false (code c d e) (code c x e), 0))
  | .fminF32Compact d x => some (d, fun e => (fMinMax fmtF32 false false (code c d e) (code c x e), 0))
  | _ => none

/-- R315, R319, R326 for f64 results. -/
def floatPairTable (c : Iss) : Instr → Option (Nat × (Nat → Nat × Flags))
  | .faddF64 d a b => some (d, fun e => fAdd fmtF64 (code64 c a e) (code642 c b e))
  | .fsubF64 d a b => some (d, fun e => fSub fmtF64 (code64 c a e) (code642 c b e))
  | .fmulF64 d a b => some (d, fun e => fMul fmtF64 (code64 c a e) (code642 c b e))
  | .fminF64 d a b => some (d, fun e => (fMinMax fmtF64 false false (code64 c a e) (code642 c b e), 0))
  | .fmaxF64 d a b => some (d, fun e => (fMinMax fmtF64 true false (code64 c a e) (code642 c b e), 0))
  | .fminNanF64 d a b => some (d, fun e => (fMinMax fmtF64 false true (code64 c a e) (code642 c b e), 0))
  | .fmaxNanF64 d a b => some (d, fun e => (fMinMax fmtF64 true true (code64 c a e) (code642 c b e), 0))
  | .fcpsgnF64 d a b => some (d, fun e => (fCopySign fmtF64 (code64 c a e) (code642 c b e), 0))
  | .fmaF64 r d a b => some (d, fun e => fFma fmtF64 r false (code64 c a e) (code64 c b e) (code64 c d e))
  | .fnmaF64 r d a b => some (d, fun e => fFma fmtF64 r true (code64 c a e) (code64 c b e) (code64 c d e))
  | .froundF64 d a r => some (d, fun e => (fRound fmtF64 r (code64 c a e), 0))
  | _ => none

/-- Value order of two codes that are not NaN (R31): the sign and size of the exact difference, −0 equal to +0. -/
def valueLe : Fp → Fp → Prop
  | .inf s, y => s = true ∨ y = .inf false
  | x, .inf t => x = .inf true ∨ t = false
  | .fin s m e, .fin t n d => ((Dy.ofMag s m e).add (Dy.ofMag (!t) n d)).m ≤ 0
  | .nan, _ => False
  | _, .nan => False

/-- The relation of R318 on decoded codes: equal, less, less or equal, unordered. -/
def floatRelation (k : Fin 4) (x y : Fp) : Prop :=
  match k with
  | 0 => x ≠ .nan ∧ y ≠ .nan ∧ valueLe x y ∧ valueLe y x
  | 1 => x ≠ .nan ∧ y ≠ .nan ∧ ¬ valueLe y x
  | 2 => x ≠ .nan ∧ y ≠ .nan ∧ valueLe x y
  | 3 => x = .nan ∨ y = .nan

/-- The compares of R318: predicate, operands' codes, format, relation. -/
def floatCompareTable (c : Iss) : Instr → Option (Nat × (Nat → Nat × Nat) × Fmt × Fin 4)
  | .fcmpEqF32 p a b => some (p, fun e => (code c a e, code2 c b e), fmtF32, 0)
  | .fcmpLtF32 p a b => some (p, fun e => (code c a e, code2 c b e), fmtF32, 1)
  | .fcmpLeF32 p a b => some (p, fun e => (code c a e, code2 c b e), fmtF32, 2)
  | .fcmpUnF32 p a b => some (p, fun e => (code c a e, code2 c b e), fmtF32, 3)
  | .fcmpEqF64 p a b => some (p, fun e => (code64 c a e, code642 c b e), fmtF64, 0)
  | .fcmpLtF64 p a b => some (p, fun e => (code64 c a e, code642 c b e), fmtF64, 1)
  | .fcmpLeF64 p a b => some (p, fun e => (code64 c a e, code642 c b e), fmtF64, 2)
  | .fcmpUnF64 p a b => some (p, fun e => (code64 c a e, code642 c b e), fmtF64, 3)
  | _ => none

/-- The codes of S(l) of R329: the active elements of a lane. -/
def laneCodes (c : Iss) (l : Nat) (x : Nat → Nat) : List Nat :=
  ((List.range c.g.width).filter (fun e => c.mask.getLsbD e && e % 32 == l)).map x

/-- The instructions of the special-function queue (R312, R323, R329 to R331): destination, whether it is a pair, and code and
exception bits of an element. -/
def queueTable (c : Iss) : Instr → Option (Nat × Bool × (Nat → Nat × Flags))
  | .frcpF32 d a => some (d, false, fun e => fRcp fmtF32 (code c a e))
  | .frsqrtF32 d a => some (d, false, fun e => fRsqrt fmtF32 (code c a e))
  | .fsqrtF32 d a => some (d, false, fun e => fSqrt fmtF32 (code c a e))
  | .fdivF32 d a b => some (d, false, fun e => fDiv fmtF32 (code c a e) (code c b e))
  | .fexp2F32 d a => some (d, false, fun e => fExp2 fmtF32 (code c a e))
  | .flog2F32 d a => some (d, false, fun e => fLog2 fmtF32 (code c a e))
  | .fsinF32 d a => some (d, false, fun e => fTrig fmtF32 false (code c a e))
  | .fcosF32 d a => some (d, false, fun e => fTrig fmtF32 true (code c a e))
  | .fsqrtF64 d a => some (d, true, fun e => fSqrt fmtF64 (code64 c a e))
  | .fdivF64 d a b => some (d, true, fun e => fDiv fmtF64 (code64 c a e) (code64 c b e))
  | .frcpF64 d a => some (d, true, fun e => fRcp fmtF64 (code64 c a e))
  | .ftanhF32 d a => some (d, false, fun e => fTanh fmtF32 (code c a e))
  | .mstatMeanF32 d a => some (d, false, fun e => statMean fmtF32 (laneCodes c (e % 32) (code c a)))
  | .mstatVarF32 d a => some (d, false, fun e => statVar fmtF32 (laneCodes c (e % 32) (code c a)))
  | .mstatMeanF64 d a => some (d, true, fun e => statMean fmtF64 (laneCodes c (e % 32) (code64 c a)))
  | .mstatVarF64 d a => some (d, true, fun e => statVar fmtF64 (laneCodes c (e % 32) (code64 c a)))
  | .mstatQuantF32 d a b =>
    some (d, false, fun e => (statQuant fmtF32 ((c.g.s b).toNat % 8) (laneCodes c (e % 32) (code c a)), 0))
  | .mstatRankF32 d a b => some (d, false, fun e => (statRank fmtF32 (code c b e) (laneCodes c (e % 32) (code c a)), 0))
  | .mstatMinF32 d a => some (d, false, fun e => (statMinMax fmtF32 false (laneCodes c (e % 32) (code c a)), 0))
  | .mstatMaxF32 d a => some (d, false, fun e => (statMinMax fmtF32 true (laneCodes c (e % 32) (code c a)), 0))
  | _ => none

/-- The source element of each lane movement of R327, from the element and lane or distance. -/
def shuffleTable (c : Iss) : Instr → Option (Nat × (Nat → Word32))
  | .shflIdx d a b => some (d, fun e => c.g.v a (32 * (e / 32) + (c.g.v b e).toNat % 32))
  | .shflUp d a b => some (d, fun e =>
      let k := (c.g.s b).toNat % 32
      if k ≤ e % 32 then c.g.v a (e - k) else c.g.v a e)
  | .shflDown d a b => some (d, fun e =>
      let k := (c.g.s b).toNat % 32
      if e % 32 + k ≤ 31 then c.g.v a (e + k) else c.g.v a e)
  | .shflXor d a b => some (d, fun e => c.g.v a (32 * (e / 32) + ((e % 32) ^^^ ((c.g.s b).toNat % 32))))
  | .mshfl d a b => some (d, fun e =>
      if (c.g.v b e).toNat % 8 < c.g.members then c.g.v a (32 * ((c.g.v b e).toNat % 8) + e % 32) else 0)
  | .vlane d a b => some (d, fun e => c.g.v a (32 * (e / 32) + (c.g.s b).toNat % 32))
  | _ => none

/-- An entry of a queue as R312 has it: whose it is, its destination, and for every active element its value and flags. -/
def EntryOf (c : Iss) (d : Nat) (pair : Bool) (x : Nat → Nat × Flags) (q : QEntry) : Prop :=
  q.core = c.g.core ∧ q.slot = c.g.slot ∧ q.dst = d ∧ q.pair = pair ∧ q.mask = c.mask ∧
    (∀ e, e < c.g.width → c.mask.getLsbD e = true → q.values.getD e 0 = (x e).1) ∧
    ∀ k, q.flags.getLsbD k = true ↔ ∃ e, e < c.g.width ∧ c.mask.getLsbD e = true ∧ (x e).2.getLsbD k = true

/-- The entries of a core in a queue. -/
def entriesOf (q : List QEntry) (core : Nat) : Nat := (q.filter (fun e => e.core == core)).length

/-- The float formats of R31. -/
def ieeeFormats : List Fmt := [fmtF64, fmtF32, fmtBf16, fmtF16]

/-- The distance of two exact magnitudes, as an exact dyadic number. -/
def distance (m : Nat) (e : Int) (n : Nat) (d : Int) : Dy :=
  let x := (Dy.ofMag false m e).add (Dy.ofMag true n d)
  { m := x.m.natAbs, e := x.e }

/-- The order of two exact dyadic numbers. -/
def dyLe (a b : Dy) : Prop := (a.add { m := -b.m, e := b.e }).m ≤ 0

end Sys2Proof.Claims

/-! ## Numbers, floating-point and lane instructions (spec files 02 and 13) -/

/-- R38: rounding the value of a finite code back into its own format gives that code and no flag, in every mode. -/
def Sys2Proof.Claims.RoundingKeepsCodes : Prop :=
  ∀ f ∈ ieeeFormats, ∀ (mode : Fin 4) (c : Nat) (neg : Bool) (m : Nat) (e : Int), c < 2 ^ f.width →
    f.decode c = .fin neg m e → roundFmt f mode neg { m := m, e := e, more := false } = (c, 0)

/-- R38: a magnitude rounded to nearest without overflow goes to a finite code of its sign than which no finite code lies
nearer; NX is set exactly where that code's value is not the magnitude itself. -/
def Sys2Proof.Claims.RoundingNearest : Prop :=
  ∀ f ∈ ieeeFormats, ∀ (neg : Bool) (m : Nat) (e : Int), m ≠ 0 →
    (roundFmt f 0 neg { m := m, e := e, more := false }).2.getLsbD 2 = false →
    ∃ n d, f.decode (roundFmt f 0 neg { m := m, e := e, more := false }).1 = .fin neg n d ∧
      (∀ c k j, f.decode c = .fin neg k j → dyLe (distance m e n d) (distance m e k j)) ∧
      ((roundFmt f 0 neg { m := m, e := e, more := false }).2.getLsbD 4 = true ↔ (distance m e n d).m ≠ 0)

/-- R35: fmin and fmax return the operand that is not NaN, the canonical NaN for two NaNs, and else the lesser or greater of
the operands by value with −0 below +0; the .nan variants return the canonical NaN for any NaN. -/
def Sys2Proof.Claims.MinimumMaximum : Prop :=
  ∀ f ∈ ieeeFormats, ∀ (isMax prop : Bool) (x y : Nat), x < 2 ^ f.width → y < 2 ^ f.width →
    (f.decode x = .nan → f.decode y = .nan → fMinMax f isMax prop x y = f.nan) ∧
    (f.decode x = .nan → f.decode y ≠ .nan → fMinMax f isMax prop x y = if prop then f.nan else y) ∧
    (f.decode x ≠ .nan → f.decode y = .nan → fMinMax f isMax prop x y = if prop then f.nan else x) ∧
    (f.decode x ≠ .nan → f.decode y ≠ .nan →
      (fMinMax f isMax prop x y = x ∨ fMinMax f isMax prop x y = y) ∧
      (if isMax then valueLe (f.decode x) (f.decode (fMinMax f isMax prop x y)) ∧ valueLe (f.decode y) (f.decode (fMinMax f isMax prop x y))
       else valueLe (f.decode (fMinMax f isMax prop x y)) (f.decode x) ∧ valueLe (f.decode (fMinMax f isMax prop x y)) (f.decode y)) ∧
      ((f.decode x).isZero = true → (f.decode y).isZero = true → (f.decode x).neg ≠ (f.decode y).neg →
        (f.decode (fMinMax f isMax prop x y)).neg = !isMax))

/-- R315 to R317, R319, R325, R326: the vector float instructions complete, write their results in the active elements and OR the
exception bits of those elements into FLAGS. -/
def Obligations.FloatVector : Prop :=
  (∀ i d x s c, floatTable c i = some (d, x) → Ready s c i → Completes i s c (FloatWritten c d x)) ∧
  (∀ i d x s c, floatPairTable c i = some (d, x) → Ready s c i → Completes i s c (FloatPairWritten c d x))

/-- R318: the float compares complete and write the relation's value into p[pd] in the active elements; FLAGS keeps its value. -/
def Sys2Proof.Claims.FloatCompare : Prop :=
  ∀ i p x f k s c, floatCompareTable c i = some (p, x, f, k) → Ready s c i →
    Completes i s c (fun g => ∃ y : Nat → Bool,
      (∀ e, y e = true ↔ e < c.g.width ∧ floatRelation k (f.decode (x e).1) (f.decode (x e).2)) ∧ PredicateWritten c p y g)

/-- R312, R323, R329 to R331: while the core's special-function queue holds fewer than 32 entries, an instruction of it completes,
and its entry goes last into the queue. -/
def Sys2Proof.Claims.SpecialFunctionIssue : Prop :=
  ∀ i d pair x s c, queueTable c i = some (d, pair, x) → Ready s c i → entriesOf s.eng.sfq c.g.core < 32 →
    ∃ q, EntryOf c d pair x q ∧
      CompletesIn i s c { s with eng := { s.eng with sfq := s.eng.sfq ++ [q] } } (fun g => g = movedOn c c.g)

/-- R312, R321: cvt likewise with the conversion queue. -/
def Sys2Proof.Claims.ConversionIssue : Prop :=
  ∀ r d a x t s c, Ready s c (.cvt r d a x t) → entriesOf s.eng.cvtq c.g.core < 32 →
    ∃ q, EntryOf c d (wideType t) (fun e => convert (numTy x) (numTy t) r (if wideType x then code64 c a e else code c a e)) q ∧
      CompletesIn (.cvt r d a x t) s c { s with eng := { s.eng with cvtq := s.eng.cvtq ++ [q] } } (fun g => g = movedOn c c.g)

/-- R312: the oldest entry of a core completes. Its group takes the results in the entry's elements, ORs its flags into FLAGS
and keeps every other register; the entry leaves the queue. Both queues do so. -/
def Sys2Proof.Claims.QueueEntryCompletes : Prop :=
  ∀ (s : State) (q : QEntry) (pre post : List QEntry) (g : Group), s.mgmt.devState ≠ .fatal → (∀ p ∈ pre, p.core ≠ q.core) →
    s.group? q.core q.slot = some g →
    (s.eng.sfq = pre ++ q :: post → ∃ t h, exec (.sfqEntryComplete q.core) s = .next t ∧ t.group? q.core q.slot = some h ∧
      t.eng = { s.eng with sfq := pre ++ post } ∧ t.ms = s.ms ∧ h = { g with vregs := h.vregs, flags := g.flags ||| q.flags } ∧
      ∀ r e, h.v r e = if r = q.dst ∧ q.mask.getLsbD e = true ∧ Holds g r e then BitVec.ofNat 32 (q.values.getD e 0)
        else if q.pair = true ∧ r = q.dst + 1 ∧ q.mask.getLsbD e = true ∧ Holds g r e then BitVec.ofNat 32 (q.values.getD e 0 / 2 ^ 32)
        else g.v r e) ∧
    (s.eng.cvtq = pre ++ q :: post → ∃ t h, exec (.cvtqEntryComplete q.core) s = .next t ∧ t.group? q.core q.slot = some h ∧
      t.eng = { s.eng with cvtq := pre ++ post } ∧ t.ms = s.ms ∧ h = { g with vregs := h.vregs, flags := g.flags ||| q.flags } ∧
      ∀ r e, h.v r e = if r = q.dst ∧ q.mask.getLsbD e = true ∧ Holds g r e then BitVec.ofNat 32 (q.values.getD e 0)
        else if q.pair = true ∧ r = q.dst + 1 ∧ q.mask.getLsbD e = true ∧ Holds g r e then BitVec.ofNat 32 (q.values.getD e 0 / 2 ^ 32)
        else g.v r e)

/-- R327: the lane and member movements complete; every element's source is read before any element is written. vmovs reads one
element into a uniform register where its member exists. -/
def Obligations.LaneMovement : Prop :=
  (∀ i d x s c, shuffleTable c i = some (d, x) → Ready s c i → Completes i s c (VectorWritten c d x)) ∧
  (∀ d a b s c, Ready s c (.vmovs d a b) → (c.g.s b).toNat % 256 < 32 * c.g.members →
    Completes (.vmovs d a b) s c (UniformWritten c d ((c.g.v a ((c.g.s b).toNat % 256)).setWidth 64)))

namespace Sys2Proof.Claims

open Sys2Proof.Machine

/-! ## Traps -/

/-- The handler's address that R175 selects for a cause. -/
def handlerAddress (s : State) (c : Iss) (cause : Nat) (h : Nat) : Prop :=
  h = if cause = 0x1D then c.u.kd.preemptH
    else if c.u.kd.trapH ≠ 0 then c.u.kd.trapH
    else match s.ctx? c.l.ctx with
      | some x => x.handler
      | none => 0

/-- The group can enter a handler for a cause at once: it runs outside a handler, no queue entry of it is unfinished (R176),
a handler exists (R175), no group of its workgroup is in HANDLER (R178), and no host holds bytes of its trap frame (R228). -/
structure HandlerFree (s : State) (c : Iss) (cause h : Nat) : Prop where
  outside : c.g.hdl = none
  drained : s.queued c.g = false
  selected : handlerAddress s c cause h
  exists' : h ≠ 0
  alone : s.wgInHandler c.g = false
  ungated : s.devGate c.g.spill 96 = none

/-- Trap entry as R177 and R178 have it, of the issuing group for the trap `x` with the handler at `h`: `n` is the group and `t`
the state after it. -/
structure Entered (s t : State) (c : Iss) (x : TrapInfo) (h : Nat) (n : Group) : Prop where
  group : t.group? c.g.core c.g.slot = some n
  state : n.st = if x.cause = 0x1D then .phandler else .handler
  cause : n.cause = BitVec.ofNat 64 x.cause
  trappc : n.trappc = BitVec.ofNat 64 c.ps.pc
  tinfo : n.tinfo0 = BitVec.ofNat 64 x.tinfo0 ∧ n.tinfo1 = BitVec.ofNat 64 x.tinfo1 ∧ n.tinfo2 = BitVec.ofNat 64 x.tinfo2 ∧
    n.tinfo3 = BitVec.ofNat 64 (x.tinfo3 (x.slot.getD c.which))
  handler : ∃ f, n.hdl = some f ∧ f.pre = (x.cause == 0x1D) ∧ f.slot.pc = h ∧
    f.slot.mask = fullMask c.g.members &&& ~~~c.g.exited ∧ f.base = c.g.stack.length ∧ f.retired = 0 ∧ f.framed = true
  frozen : n.slot0 = c.g.slot0 ∧ n.slot1 = c.g.slot1 ∧ n.stack = c.g.stack ∧ n.exited = c.g.exited
  registers : n.vregs = c.g.vregs ∧ n.sregs = c.g.sregs ∧ n.pregs = c.g.pregs ∧ n.flags = c.g.flags ∧ n.ucond = c.g.ucond ∧
    n.mmxcnt = c.g.mmxcnt ∧ n.cprog = c.g.cprog ∧ n.batch = c.g.batch ∧ n.keys = c.g.keys
  frame : ∀ k, k < 96 → t.ms.mem.read (c.g.spill + k) = c.g.trapFrame.getD k 0
  memory : ∀ a, a < c.g.spill ∨ c.g.spill + 96 ≤ a → t.ms.mem.read a = s.ms.mem.read a
  siblings : x.cause ≠ 0x1D → ∀ y ∈ t.sched.groups, y.unit = c.g.unit → y.wg = c.g.wg → y.gi ≠ c.g.gi → y.slot < 32 →
    y.st = .held ∨ ∃ b, y.st = .ended b
  others : t.eng = s.eng ∧ t.fab = s.fab ∧ t.mgmt = s.mgmt ∧ t.sched.queues = s.sched.queues ∧ t.sched.launches = s.sched.launches ∧
    t.sched.units = s.sched.units ∧ t.cur = none

/-- The instruction's step is the trap `x`. -/
def Traps (i : Instr) (s : State) (c : Iss) (x : TrapInfo) (h : Nat) : Prop := ∃ t n, exec i s = .next t ∧ Entered s t c x h n

/-- The issuing group as tret leaves it (R181): the slot that SLOT of TINFO3 names at TRAPPC, the trap state at zero, no handler; with
#0 the registers of the trap frame. -/
structure Returned (s : State) (c : Iss) (k : Fin 64) (n : Group) : Prop where
  handler : n.hdl = none
  trapState : n.cause = 0 ∧ n.trappc = 0 ∧ n.tinfo0 = 0 ∧ n.tinfo1 = 0 ∧ n.tinfo2 = 0 ∧ n.tinfo3 = 0
  slots : if c.g.tinfo3.getLsbD 24 = true then n.slot1 = { c.g.slot1 with pc := c.g.trappc.toNat } ∧ n.slot0 = c.g.slot0
    else n.slot0 = { c.g.slot0 with pc := c.g.trappc.toNat } ∧ n.slot1 = c.g.slot1
  stack : n.stack = c.g.stack
  kept : n.vregs = c.g.vregs ∧ n.flags = c.g.flags ∧ n.ucond = c.g.ucond
  uniform : ∀ r, n.s r = if k.val = 0 ∧ r < 8 ∧ r < c.g.sregs.length then BitVec.ofNat 64 (s.devLE (c.g.spill + 8 * r) 8) else c.g.s r
  predicate : ∀ r, n.p r = if k.val = 0 ∧ r = 0 ∧ 0 < c.g.pregs.length then BitVec.ofNat 256 (s.devLE (c.g.spill + 64) 32) else c.g.p r

/-- The state code of R182. -/
def stateCode : GState → Nat
  | .running => 0
  | .wait _ => 1
  | .faultWait _ _ => 2
  | .handler => 3
  | .phandler => 4
  | .held => 5
  | .ended _ => 6

/-- The table of R182 for group y and the element of bits [23:16]: the item of a listed selector within its bounds. The handler's own
s0 to s7 stand in the trap frame. -/
def inspectTable (s : State) (c : Iss) (y : Group) (sel elem : Nat) : Option Word64 :=
  if sel = 0 then some (BitVec.ofNat 64 (stateCode y.st + (if y.pendTrap then 16 else 0) + (if y.slot0.mask ≠ 0 then 32 else 0) +
    (if y.slot1.mask ≠ 0 then 64 else 0) + y.stack.length * 128))
  else if sel = 1 then some y.cause
  else if sel = 2 then some y.trappc
  else if sel = 3 then some y.tinfo0
  else if sel = 4 then some y.tinfo1
  else if sel = 5 then some y.tinfo2
  else if sel = 6 then some y.tinfo3
  else if sel = 7 then some (if y.slot0.mask = 0 then 0 else BitVec.ofNat 64 y.slot0.pc)
  else if sel = 8 then some (if y.slot1.mask = 0 then 0 else BitVec.ofNat 64 y.slot1.pc)
  else if 0x10 ≤ sel ∧ sel ≤ 0x13 then some (BitVec.ofNat 64 (y.slot0.mask.toNat / 2 ^ (64 * (sel - 0x10))))
  else if 0x14 ≤ sel ∧ sel ≤ 0x17 then some (BitVec.ofNat 64 (y.slot1.mask.toNat / 2 ^ (64 * (sel - 0x14))))
  else if sel = 0x18 then some (y.flags.setWidth 64)
  else if sel = 0x19 then some y.keys
  else if 0x40 ≤ sel ∧ sel ≤ 0x7F then
    if 8 * c.u.kd.sgran ≤ sel - 0x40 then none
    else if y.gi = c.g.gi ∧ sel < 0x48 then some (BitVec.ofNat 64 (s.devLE (c.g.spill + 8 * (sel - 0x40)) 8))
    else some (y.s (sel - 0x40))
  else if 0x100 ≤ sel ∧ sel ≤ 0x17F then
    if 32 * c.u.kd.m ≤ elem ∨ 8 * c.u.kd.vgran ≤ sel - 0x100 then none else some ((y.v (sel - 0x100) elem).setWidth 64)
  else if 0x200 ≤ sel ∧ sel ≤ 0x21F then
    if 4 * c.u.kd.pgran ≤ (sel - 0x200) / 4 then none
    else some (BitVec.ofNat 64 ((y.p ((sel - 0x200) / 4)).toNat / 2 ^ (64 * ((sel - 0x200) % 4))))
  else none

/-! ## Branches -/

/-- The branch conditions of R66 that an instruction may name: UCOND's EQ, LT and LO, or p0 over the active elements. -/
def taken (c : Iss) (k : Nat) : Prop :=
  (k = 0) ∨ (k = 1 ∧ c.g.ucond.getLsbD 0 = true) ∨ (k = 2 ∧ c.g.ucond.getLsbD 0 = false) ∨
  (k = 3 ∧ c.g.ucond.getLsbD 1 = true) ∨ (k = 4 ∧ c.g.ucond.getLsbD 1 = false) ∨
  (k = 5 ∧ (c.g.ucond.getLsbD 1 = true ∨ c.g.ucond.getLsbD 0 = true)) ∨
  (k = 6 ∧ c.g.ucond.getLsbD 1 = false ∧ c.g.ucond.getLsbD 0 = false) ∨
  (k = 7 ∧ c.g.ucond.getLsbD 2 = true) ∨ (k = 8 ∧ c.g.ucond.getLsbD 2 = false) ∨
  (k = 9 ∧ ∃ e, c.mask.getLsbD e = true ∧ (c.g.p 0).getLsbD e = true) ∨
  (k = 10 ∧ ∀ e, c.mask.getLsbD e = true → (c.g.p 0).getLsbD e = true) ∨
  (k = 11 ∧ ∀ e, c.mask.getLsbD e = true → (c.g.p 0).getLsbD e = false)

/-- An address some halfwords from the issuing slot's PC, modulo 2^64 (R59). -/
def halfwordsOn (c : Iss) (n : Int) (t : Nat) : Prop := (t : Int) = ((c.ps.pc : Int) + 2 * n) % 2 ^ 64

/-- The entries that a brd with elements on both sides pushes (R166). -/
def splitNeed (c : Iss) : Nat := if (c.g.pcSlot (otherSlot c.which)).mask = 0 then 1 else 2

/-- The stack entries that lie in the spill region (R165): those but the two topmost live ones, each in its 48 bytes. -/
def Spilled (g : Group) (t : State) : Prop :=
  ∀ i e, g.stack[i]? = some e → ¬ i ∈ onChip g.stack → ∀ k, k < 48 → t.ms.mem.read (g.spill + 128 + 48 * i + k) = e.bytes.getD k 0

/-- No host holds bytes of the part of the spill region that the group's stack may take with one instruction (R228). -/
def SpillFree (s : State) (c : Iss) : Prop :=
  ∀ n, 2 < n → n ≤ c.g.stack.length + 2 → s.devGate (c.g.spill + 128) (48 * n) = none

/-- An instruction that completes and changes, outside its group, only the stack's bytes of its group's spill region and the
records of their lines. -/
def CompletesSpilling (i : Instr) (s : State) (c : Iss) (P : Group → Prop) : Prop :=
  ∃ t g m ls, exec i s = .next t ∧ t.group? c.g.core c.g.slot = some g ∧
    OwnGroupOnly { s with ms := { s.ms with mem := m, lines := ls } } t c ∧
    (∀ a, a < c.g.spill + 128 ∨ c.g.spill + 128 + 48 * g.stack.length ≤ a → t.ms.mem.read a = s.ms.mem.read a) ∧
    Spilled g t ∧ P g

/-! ## Control registers -/

/-- R74, R105: the value of a control register that the group itself holds. -/
def controlTable (c : Iss) (r : Nat) : Option Word64 :=
  if r = 0 then some (c.g.flags.setWidth 64)
  else if r = 1 then some c.g.cause
  else if r = 2 then some c.g.trappc
  else if r = 3 then some c.g.tinfo0
  else if r = 4 then some c.g.tinfo1
  else if r = 5 then some c.g.tinfo2
  else if r = 6 then some c.g.tinfo3
  else if 7 ≤ r ∧ r ≤ 10 then some (BitVec.ofNat 64 (c.g.slot0.mask.toNat / 2 ^ (64 * (r - 7))))
  else if 11 ≤ r ∧ r ≤ 14 then some (BitVec.ofNat 64 (c.g.slot1.mask.toNat / 2 ^ (64 * (r - 11))))
  else if r = 15 then some c.clockValue
  else if r = 16 then some (BitVec.ofNat 64 c.g.wtstat)
  else if r = 17 then some c.g.batch
  else if r = 18 then some c.g.mmxcnt
  else if r = 19 then some (BitVec.ofNat 64 c.detrank)
  else if r = 20 then some c.g.cprog
  else if r = 21 then some (c.g.ucond.setWidth 64)
  else none

/-- R105: the registers that mtcr writes, in a program and in a handler. -/
def writable (c : Iss) (r : Nat) : Prop :=
  r = 0 ∨ r = 21 ∨ ((c.g.st = .handler ∨ c.g.st = .phandler) ∧ (r = 1 ∨ r = 2 ∨ r = 3 ∨ r = 4 ∨ r = 5 ∨ r = 6 ∨ r = 18 ∨ r = 20))

/-- The group with control register r at x, reserved bits at zero (R36, R66, R161, R358). -/
def controlSet (c : Iss) (r : Nat) (x : Word64) (g : Group) : Prop :=
  g = { movedOn c c.g with flags := g.flags, cause := g.cause, trappc := g.trappc, tinfo0 := g.tinfo0, tinfo1 := g.tinfo1,
                           tinfo2 := g.tinfo2, tinfo3 := g.tinfo3, mmxcnt := g.mmxcnt, cprog := g.cprog, ucond := g.ucond } ∧
  g.flags = (if r = 0 then BitVec.ofNat 5 x.toNat else c.g.flags) ∧ g.cause = (if r = 1 then x else c.g.cause) ∧
  g.trappc = (if r = 2 then x else c.g.trappc) ∧ g.tinfo0 = (if r = 3 then x else c.g.tinfo0) ∧
  g.tinfo1 = (if r = 4 then x else c.g.tinfo1) ∧ g.tinfo2 = (if r = 5 then x else c.g.tinfo2) ∧
  g.tinfo3 = (if r = 6 then BitVec.ofNat 64 (x.toNat % 2 ^ 26) else c.g.tinfo3) ∧
  g.mmxcnt = (if r = 18 then x else c.g.mmxcnt) ∧
  g.cprog = (if r = 20 then BitVec.ofNat 64 (x.toNat % 2 ^ 32) else c.g.cprog) ∧
  g.ucond = (if r = 21 then BitVec.ofNat 3 x.toNat else c.g.ucond)

end Sys2Proof.Claims

/-! ## Operand checks, traps and handlers (spec files 03 and 07) -/

/-- R67, R68: the lowest field with a reserved scope code or an odd 64-bit name raises ILLEGAL_OPERAND; without one, the lowest
field whose register is at or above its class's declared count raises REG_BOUND with that count. Each trap names the field. -/
def Sys2Proof.Claims.OperandChecks : Prop :=
  ∀ i s c h, Issuable s c →
    (∀ o, (operands i).find? Opnd.illegal = some o → HandlerFree s c 0x02 h →
      Traps i s c { cause := 0x02, tinfo0 := c.raw.toNat, field := some o.field } h) ∧
    (∀ o, (operands i).find? Opnd.illegal = none → (operands i).find? (fun p => p.outside c.u.kd) = some o → HandlerFree s c 0x03 h →
      Traps i s c { cause := 0x03, tinfo0 := c.raw.toNat, tinfo1 := c.u.kd.count o.cls, field := some o.field } h)

/-- R71, R181, R162: an unassigned encoding raises ILLEGAL_INSN and trap #k SOFTWARE_TRAP with the code, each with the raw
instruction in TINFO0. -/
def Sys2Proof.Claims.RaisedTraps : Prop :=
  (∀ raw s c h, Ready s c (.illegalEncoding raw) → HandlerFree s c 0x01 h →
    Traps (.illegalEncoding raw) s c { cause := 0x01, tinfo0 := raw.toNat } h) ∧
  (∀ k s c h, Ready s c (.trap k) → HandlerFree s c 0x1E h →
    Traps (.trap k) s c { cause := 0x1E, tinfo0 := c.raw.toNat, tinfo1 := k } h)

/-- R161: the fields of TINFO3. -/
def Sys2Proof.Claims.TrapInfoLayout : Prop :=
  ∀ (x : TrapInfo) (slot : Nat), slot < 2 → x.nelem ≤ 256 → (∀ e, x.first = some e → e < 256) → (∀ f, x.field = some f → f < 64) →
    x.tinfo3 slot < 2 ^ 26 ∧
    (∀ e, x.first = some e → x.tinfo3 slot % 32 = e % 32 ∧ x.tinfo3 slot / 32 % 8 = e / 32 ∧ x.tinfo3 slot / 256 % 2 = 1) ∧
    (x.first = none → x.tinfo3 slot % 512 = 0) ∧ x.tinfo3 slot / 512 % 512 = x.nelem ∧
    (∀ f, x.field = some f → x.tinfo3 slot / 2 ^ 18 % 64 = f ∧ x.tinfo3 slot / 2 ^ 25 = 1) ∧
    (x.field = none → x.tinfo3 slot / 2 ^ 18 % 64 = 0 ∧ x.tinfo3 slot / 2 ^ 25 = 0) ∧ x.tinfo3 slot / 2 ^ 24 % 2 = slot

/-- R178, R179, R91: a trap in HANDLER or PHANDLER is a fatal error of the group's region, which begins a fence of its fault
domain where no present fence holds it; the group enters no handler and keeps its state. Operands that fail a check, unassigned
encodings, trap, and brd and join, which R168 allows in no handler, do so. -/
def Obligations.TrapInHandlerIsFatal : Prop :=
  ∀ i s c, Issuable s c → c.g.hdl ≠ none → (c.g.st = .handler ∨ c.g.st = .phandler) → s.queued c.g = false →
    (checkOperands c (operands i) ≠ none ∨ (∃ raw, i = .illegalEncoding raw) ∨ (∃ k, i = .trap k) ∨ (∃ n j o, i = .brd n j o) ∨ i = .join) →
    ∃ t x y g, exec i s = .next t ∧ s.ctx? c.l.ctx = some x ∧ t.ctx? c.l.ctx = some y ∧ s.group? c.g.core c.g.slot = some g ∧
      t.group? c.g.core c.g.slot = some { g with waitCount := 0 } ∧ t.ms = s.ms ∧
      (x.fenceContains (x.faultRoot c.l.region) = false →
        y.fences = x.fences ++ [{ root := x.faultRoot c.l.region, st := .fencing, replies := [], fatal := true }])

/-- R170, R172 to R174: bra, brc, jmpi, loop and nop complete and move the issuing slot alone; loop counts its register down. -/
def Sys2Proof.Claims.Branches : Prop :=
  (∀ o s c, Ready s c (.bra o) → Completes (.bra o) s c (fun g => ∃ t, halfwordsOn c o.toInt t ∧ g = jumped c c.g t)) ∧
  (∀ k o s c, (Instr.brc k o).WellFormed → Ready s c (.brc k o) →
    (taken c k → Completes (.brc k o) s c (fun g => ∃ t, halfwordsOn c o.toInt t ∧ g = jumped c c.g t)) ∧
    (¬ taken c k → Completes (.brc k o) s c (fun g => g = movedOn c c.g))) ∧
  (∀ a s c, Ready s c (.jmpi a) →
    ((c.g.s a).toNat % 2 = 0 → Completes (.jmpi a) s c (fun g => g = jumped c c.g (c.g.s a).toNat)) ∧
    (∀ h, (c.g.s a).toNat % 2 = 1 → HandlerFree s c 0x0B h → Traps (.jmpi a) s c { cause := 0x0B, tinfo0 := (c.g.s a).toNat } h)) ∧
  (∀ n o s c, Ready s c (.loop n o) →
    Completes (.loop n o) s c (fun g => ∃ t, halfwordsOn c o.toInt t ∧
      g = (if c.g.s (16 + n.val) = 1 then movedOn c (c.g.setS (16 + n.val) 0)
           else jumped c (c.g.setS (16 + n.val) (BitVec.ofInt 64 ((c.g.s (16 + n.val)).toInt - 1))) t))) ∧
  (∀ s c, Ready s c .nop → Completes .nop s c (fun g => g = movedOn c c.g))

/-- R171, R166 (diverge): brd with all elements on one side moves the slot; with both sides it pushes a JOIN entry that holds
the slot's mask, keeps the fall-through elements in the slot, and gives the taken ones the other slot, or a PATH entry where that
is live. 65 entries raise DIVERGENCE_SPILL_FAULT. -/
def Sys2Proof.Claims.DivergentBranch : Prop :=
  ∀ n j o s c, Ready s c (.brd n j o) → c.g.st ≠ .handler → c.g.st ≠ .phandler →
    ∃ t k, halfwordsOn c o.toInt t ∧ halfwordsOn c j.val k ∧
    (c.mask &&& c.g.p n = 0 → Completes (.brd n j o) s c (fun g => g = movedOn c c.g)) ∧
    (c.mask &&& c.g.p n ≠ 0 → c.mask &&& ~~~(c.g.p n) = 0 → Completes (.brd n j o) s c (fun g => g = jumped c c.g t)) ∧
    (c.mask &&& c.g.p n ≠ 0 → c.mask &&& ~~~(c.g.p n) ≠ 0 →
      (∀ h, 64 < c.g.stack.length + splitNeed c → HandlerFree s c 0x05 h → Traps (.brd n j o) s c
        { cause := 0x05, tinfo0 := c.raw.toNat, tinfo1 := c.g.stack.length, tinfo2 := splitNeed c } h) ∧
      (c.g.stack.length + splitNeed c ≤ 64 → SpillFree s c →
        CompletesSpilling (.brd n j o) s c (fun g =>
          g.stack = c.g.stack ++ [{ kind := .join, addr := k, mask := c.mask, link := c.ps.frame, cptr := c.ps.cptr }] ++
            (if (c.g.pcSlot (otherSlot c.which)).mask ≠ 0 then
              [{ kind := .path, addr := t, mask := c.mask &&& c.g.p n, link := c.g.stack.length + 1, cptr := c.ps.cptr }] else []) ∧
          (g.pcSlot c.which).mask = c.mask &&& ~~~(c.g.p n) ∧ (g.pcSlot c.which).pc = (c.ps.pc + 4) % 2 ^ 64 ∧
          (g.pcSlot c.which).frame = c.g.stack.length + 1 ∧ (g.pcSlot c.which).cptr = c.ps.cptr ∧
          (if (c.g.pcSlot (otherSlot c.which)).mask ≠ 0 then g.pcSlot (otherSlot c.which) = c.g.pcSlot (otherSlot c.which)
           else (g.pcSlot (otherSlot c.which)).mask = c.mask &&& c.g.p n ∧ (g.pcSlot (otherSlot c.which)).pc = t ∧
             (g.pcSlot (otherSlot c.which)).frame = c.g.stack.length + 1 ∧ (g.pcSlot (otherSlot c.which)).cptr = c.ps.cptr) ∧
          g.vregs = c.g.vregs ∧ g.sregs = c.g.sregs ∧ g.pregs = c.g.pregs ∧ g.flags = c.g.flags ∧ g.exited = c.g.exited)))

/-- R166 (arrive, settle): join in a slot whose frame's J is its address, with no call entry pushed in that frame, completes and
keeps the registers. Where the other slot is empty, no live entry has that frame and the frame's entry has elements, that entry is
dead and the lowest slot goes on past J with the entry's mask, frame and call pointer. Where the other slot has that frame and no
PATH entry waits, the slot is empty and the stack and the other slot are as before. -/
def Sys2Proof.Claims.Reconvergence : Prop :=
  ∀ s c e, Ready s c .join → c.which < 2 → c.g.st = .running → c.ps.frame ≠ 0 → c.g.stack[c.ps.frame - 1]? = some e →
    e.addr = c.ps.pc → (∀ k, c.ps.cptr ≠ 0 → c.g.stack[c.ps.cptr - 1]? = some k → k.link ≠ c.ps.frame) → SpillFree s c →
    CompletesSpilling .join s c (fun g =>
      g.vregs = c.g.vregs ∧ g.sregs = c.g.sregs ∧ g.pregs = c.g.pregs ∧ g.flags = c.g.flags ∧ g.exited = c.g.exited ∧
      ((c.g.pcSlot (otherSlot c.which)).mask = 0 → e.mask ≠ 0 →
        (∀ y ∈ c.g.stack, (y.kind = .path ∨ y.kind = .join) → y.link ≠ c.ps.frame) →
        (∀ y, g.stack[c.ps.frame - 1]? = some y → y.kind = .dead) ∧
        g.slot0.mask = e.mask ∧ g.slot0.pc = (e.addr + 4) % 2 ^ 64 ∧ g.slot0.frame = e.link ∧ g.slot0.cptr = e.cptr) ∧
      ((c.g.pcSlot (otherSlot c.which)).mask ≠ 0 → (c.g.pcSlot (otherSlot c.which)).frame = c.ps.frame →
        (∀ y ∈ c.g.stack, y.kind ≠ .path) → (g.pcSlot c.which).mask = 0 ∧ g.stack = c.g.stack ∧
          g.pcSlot (otherSlot c.which) = c.g.pcSlot (otherSlot c.which)))

/-- R172: call pushes a CALL entry and branches; ret returns through the slot's innermost call entry and marks it dead; each
raises its trap where R172 and R168 say. -/
def Sys2Proof.Claims.CallAndReturn : Prop :=
  (∀ o s c, Ready s c (.call o) →
    (c.g.stack.length < 64 → SpillFree s c → CompletesSpilling (.call o) s c (fun g => ∃ t, halfwordsOn c o.toInt t ∧
      g.stack = c.g.stack ++ [{ kind := .call, addr := (c.ps.pc + 4) % 2 ^ 64, mask := 0, link := c.ps.frame, cptr := c.ps.cptr }] ∧
      g.vregs = c.g.vregs ∧ g.sregs = c.g.sregs ∧ g.pregs = c.g.pregs ∧ g.flags = c.g.flags ∧
      (g.pcSlot c.which).pc = t ∧ (g.pcSlot c.which).cptr = c.g.stack.length + 1 ∧
      (g.pcSlot c.which).mask = c.mask ∧ (g.pcSlot c.which).frame = c.ps.frame)) ∧
    (∀ h, 64 ≤ c.g.stack.length → HandlerFree s c 0x05 h →
      Traps (.call o) s c { cause := 0x05, tinfo0 := c.raw.toNat, tinfo1 := c.g.stack.length, tinfo2 := 1 } h)) ∧
  (∀ s c, Ready s c .ret →
    (∀ h, c.ps.cptr = 0 → HandlerFree s c 0x04 h → Traps .ret s c { cause := 0x04, tinfo0 := c.raw.toNat, tinfo1 := 3 } h) ∧
    (∀ e, c.ps.cptr ≠ 0 → c.g.stack[c.ps.cptr - 1]? = some e →
      (∀ h, e.link ≠ c.ps.frame → HandlerFree s c 0x04 h →
        Traps .ret s c { cause := 0x04, tinfo0 := c.raw.toNat, tinfo1 := 4 } h) ∧
      (e.link = c.ps.frame → SpillFree s c → CompletesSpilling .ret s c (fun g =>
        g.stack = dropDead (c.g.stack.set (c.ps.cptr - 1) { e with kind := .dead }) ∧
        g.vregs = c.g.vregs ∧ g.sregs = c.g.sregs ∧ g.pregs = c.g.pregs ∧ g.flags = c.g.flags ∧
        (g.pcSlot c.which).pc = e.addr ∧ (g.pcSlot c.which).cptr = e.cptr ∧
        (g.pcSlot c.which).mask = c.mask ∧ (g.pcSlot c.which).frame = c.ps.frame))))

/-- R181, R187, R178: tret in HANDLER, or in PHANDLER after a restore, with an even TRAPPC completes: the slot that SLOT of TINFO3
names continues at TRAPPC, CAUSE, TRAPPC and TINFO0 to TINFO3 read zero; tret #0 takes s0 to s7 and p0 from the trap frame, tret #1
keeps them. With no trap pending in the workgroup the group is RUNNING, and after HANDLER no group of the workgroup stays HELD; with
one pending, the pending group of the lowest index is in HANDLER, its trap frame written, and the group itself is HELD. -/
def Sys2Proof.Claims.TrapReturn : Prop :=
  ∀ k s c f, Ready s c (.tret k) → k.val < 2 → c.g.trappc.toNat % 2 = 0 → c.g.hdl = some f →
    (c.g.st = .handler ∧ f.pre = false ∨ c.g.st = .phandler ∧ f.pre = true ∧ f.restored = true) →
    (k.val = 0 → s.devGate c.g.spill 96 = none) →
    (f.pre = true ∨ s.nextPending c.g.unit c.g.wg = none →
      ∃ t n, exec (.tret k) s = .next t ∧ t.group? c.g.core c.g.slot = some n ∧ Returned s c k n ∧ n.st = .running ∧
        t.ms = s.ms ∧ t.eng = s.eng ∧ t.fab = s.fab ∧ t.mgmt = s.mgmt ∧ t.cur = none ∧
        (f.pre = false → ∀ y ∈ t.sched.groups, y.unit = c.g.unit → y.wg = c.g.wg → y.slot < 32 → y.pendTrap = false →
          y.st ≠ .held ∨ y.prevSt = .held)) ∧
    (∀ y h, f.pre = false → s.nextPending c.g.unit c.g.wg = some y → y.gi ≠ c.g.gi → ¬(y.core = c.g.core ∧ y.slot = c.g.slot) →
      c.g.slot < 32 → handlerAddress s c y.cause.toNat h → s.devGate y.spill 96 = none →
      ∃ t n, exec (.tret k) s = .next t ∧ t.group? c.g.core c.g.slot = some n ∧ Returned s c k n ∧ n.st = .held ∧ n.prevSt = .running ∧
        t.group? y.core y.slot = some (y.enterHandler h false true) ∧
        (∀ a, a < 96 → t.ms.mem.read (y.spill + a) = y.trapFrame.getD a 0) ∧
        (∀ a, a < y.spill ∨ y.spill + 96 ≤ a → t.ms.mem.read a = s.ms.mem.read a) ∧
        t.eng = s.eng ∧ t.fab = s.fab ∧ t.mgmt = s.mgmt ∧ t.cur = none)

/-- R180 to R183: outside a handler tret, yield, ginsp and gresume raise ILLEGAL_OPERAND with FIELD 7. -/
def Sys2Proof.Claims.HandlerInstructionsOutside : Prop :=
  ∀ i s c h, (∃ k, i = .tret k) ∨ (∃ a b, i = .yield a b) ∨ (∃ d a b, i = .ginsp d a b) ∨ (∃ a b, i = .gresume a b) →
    Ready s c i → c.g.st = .running → HandlerFree s c 0x02 h →
    Traps i s c { cause := 0x02, tinfo0 := c.raw.toNat, field := some 7 } h

/-- R182: in a handler ginsp of a group with an index of the workgroup completes and writes the item that the table gives for the
selector, once no earlier operation of that group still owes it a register or FLAGS (R37, R159); of a group that has ended, every
listed item reads 0 but the status, 6. -/
def Sys2Proof.Claims.GroupInspection : Prop :=
  ∀ d a b s c y, Ready s c (.ginsp d a b) → (c.g.st = .handler ∨ c.g.st = .phandler) → (c.g.s a).toNat ≤ c.u.kd.wgm1 →
    (s.wgGroups c.g.unit c.g.wg).find? (fun x => x.gi == (c.g.s a).toNat) = some y →
    ∀ x, inspectTable s c y ((c.g.s b).toNat % 2 ^ 16) ((c.g.s b).toNat / 2 ^ 16 % 256) = some x →
      ((∀ b, y.st ≠ .ended b) → (∀ r, (c.g.s b).toNat % 2 ^ 16 = 0x100 + r → r < 128 → ¬ r ∈ s.pendingRegs y) →
        ((c.g.s b).toNat % 2 ^ 16 = 0x18 → s.flagsOwed y = false) →
        (y.gi = c.g.gi → 0x40 ≤ (c.g.s b).toNat % 2 ^ 16 → (c.g.s b).toNat % 2 ^ 16 < 0x48 → s.devGate c.g.spill 96 = none) →
        Completes (.ginsp d a b) s c (UniformWritten c d x)) ∧
      (∀ b', y.st = .ended b' → Completes (.ginsp d a b) s c
        (UniformWritten c d (if (c.g.s b).toNat % 2 ^ 16 = 0 then 6 else 0)))

/-- R183: in a handler gresume releases a HELD group of the workgroup other than the handler's own. With a zero PC a group without a
pending trap returns to its previous state, and one that was in bwait issues it again (R288); one with a pending trap stays HELD. With
a nonzero even PC a group with at most one live slot and no pending trap leaves any wait and continues there (log 12: in its live
slot), RUNNING. -/
def Sys2Proof.Claims.GroupRelease : Prop :=
  ∀ a b s c y, Ready s c (.gresume a b) → (c.g.st = .handler ∨ c.g.st = .phandler) →
    (s.wgGroups c.g.unit c.g.wg).find? (fun x => x.gi == (c.g.s a).toNat) = some y → y.st = .held → y.gi ≠ c.g.gi →
    ¬(y.core = c.g.core ∧ y.slot = c.g.slot) →
    (c.g.s b = 0 ∨ ((c.g.s b).toNat % 2 = 0 ∧ (y.slot0.mask = 0 ∨ y.slot1.mask = 0) ∧ y.pendTrap = false)) →
    ∃ t n, exec (.gresume a b) s = .next t ∧ t.group? y.core y.slot = some n ∧
      t.group? c.g.core c.g.slot = some (movedOn c c.g) ∧
      (∀ k j, ¬(k = c.g.core ∧ j = c.g.slot) → ¬(k = y.core ∧ j = y.slot) → t.group? k j = s.group? k j) ∧
      t.ms = s.ms ∧ t.eng = s.eng ∧ t.fab = s.fab ∧ t.mgmt = s.mgmt ∧ t.cur = none ∧
      (c.g.s b = 0 → y.pendTrap = true → n = y) ∧
      (c.g.s b = 0 → y.pendTrap = false → (∀ o q, y.prevSt ≠ .wait (.bar o q)) → n = { y with st := y.prevSt }) ∧
      (∀ o q, c.g.s b = 0 → y.pendTrap = false → y.prevSt = .wait (.bar o q) → n = { y with st := y.resumeSt }) ∧
      (c.g.s b ≠ 0 → n.st = .running ∧ n.regroup = none ∧ n.blocked = none ∧ n.vregs = y.vregs ∧ n.sregs = y.sregs ∧ n.pregs = y.pregs ∧
        n.flags = y.flags ∧ n.stack = y.stack ∧
        (if y.slot0.mask = 0 then n.slot0 = y.slot0 ∧ n.slot1 = { y.slot1 with pc := (c.g.s b).toNat }
         else n.slot1 = y.slot1 ∧ n.slot0 = { y.slot0 with pc := (c.g.s b).toNat }))

/-! ## Control registers (spec file 04) -/

/-- R74, R105, R109 to R111, R191: mfcr reads and mtcr writes the control registers as their table allows, a refused write raises
ILLEGAL_OPERAND with FIELD 12; clock and mode read theirs; mkey sets the member keys. -/
def Obligations.ControlRegisters : Prop :=
  (∀ d r s c x, Ready s c (.mfcr d r) → controlTable c r = some x → (r.val = 0 → s.flagsOwed c.g = false) →
    Completes (.mfcr d r) s c (UniformWritten c d x)) ∧
  (∀ r a s c, Ready s c (.mtcr r a) → writable c r → (r.val = 0 → s.flagsOwed c.g = false) →
    Completes (.mtcr r a) s c (controlSet c r (c.g.s a))) ∧
  (∀ r a s c h, Ready s c (.mtcr r a) → ¬ writable c r → HandlerFree s c 0x02 h →
    Traps (.mtcr r a) s c { cause := 0x02, tinfo0 := c.raw.toNat, field := some 12 } h) ∧
  (∀ d s c, Ready s c (.clock d) → s.queued c.g = false → c.g.loads = [] → (∀ x ∈ c.g.atoms, x.red = true) →
    Completes (.clock d) s c (UniformWritten c d c.clockValue)) ∧
  (∀ d k s c x, Ready s c (.mode d k) → s.ctx? c.l.ctx = some x →
    (k.val = 0 → Completes (.mode d k) s c (UniformWritten c d (BitVec.ofNat 64 (x.cmode.toNat + x.id * 2 ^ 16 + x.port * 2 ^ 23)))) ∧
    (∀ r, k.val = 1 → x.region? c.l.region = some r → Completes (.mode d k) s c (UniformWritten c d (BitVec.ofNat 64
      (c.l.region + x.eff c.l.region 0 (·.prio) * 2 ^ 8 + r.level * 2 ^ 11 + x.faultRoot c.l.region * 2 ^ 13))))) ∧
  (∀ a s c, Ready s c (.mkey a) → Completes (.mkey a) s c (fun g => g = { movedOn c c.g with keys := g.keys } ∧
    g.keys.toNat = (c.g.s a).toNat % 2 ^ (8 * c.g.members) % 2 ^ 64))

namespace Sys2Proof.Claims

open Sys2Proof.Machine

/-! ## Memory accesses -/

/-- `t` is `s` with other TLB and walk cache contents. -/
def TlbOnly (s t : State) : Prop :=
  t = { s with ms := { s.ms with tlbCore := t.ms.tlbCore, tlbDie := t.ms.tlbDie, walkCache := t.ms.walkCache } }

/-- `t` is `s` with other TLB and walk cache contents and packets on their way. -/
def PathsOnly (s t : State) : Prop :=
  t = { s with ms := { s.ms with tlbCore := t.ms.tlbCore, tlbDie := t.ms.tlbDie, walkCache := t.ms.walkCache },
               fab := { s.fab with flows := t.fab.flows } }

/-- `t` is `s` with other TLB and walk cache contents, packets on their way, stamps, holders and shadows. -/
def StampsOnly (s t : State) : Prop :=
  t = { s with ms := { s.ms with tlbCore := t.ms.tlbCore, tlbDie := t.ms.tlbDie, walkCache := t.ms.walkCache,
                                 stamps := t.ms.stamps, lines := t.ms.lines, shadows := t.ms.shadows },
               fab := { s.fab with flows := t.fab.flows } }

/-- The die L2 has room for the lines of CHECKED pages that an access may fetch (R22, R223, R253). -/
def StampRoom (s : State) (c : Iss) (ps : List Placed) : Prop :=
  s.l2Used (dieOfCore c.g.core) + (checkedSectors ps).length ≤ l2Lines

/-- No table entry on the walk of an address of an element lies in bytes that a host holds (R228). -/
def WalkFree (c : Iss) (e va : Nat) : Prop := (c.walkOf e va).held? = none

/-- The elements of an access as R332 and R204 form them. -/
def formed (c : Iss) (a : Access) (t b : Nat) (vi : Option Nat) : List Formed := c.elems.map (c.form b vi t (a == .write))

/-- An access that passes checks 2 to 4 of R333; `ps` are its elements with their places. -/
structure Admitted (c : Iss) (a : Access) (t b : Nat) (vi : Option Nat) (ps : List Placed) : Prop where
  pages : ∀ e ∈ c.elems, WalkFree c e (c.g.s b).toNat
  aligned : ∀ f ∈ formed c a t b vi, f.va % f.width = 0
  translated : c.translateAll a (formed c a t b vi) = .ok ps
  format : formatCheck a t (formed c a t b vi) ps = none

/-- Elements on device pages without CHECKED. -/
def PlainDevice (ps : List Placed) : Prop := ∀ p ∈ ps, p.place.remote = false ∧ p.leaf.checked = false

/-- The load entry that R246 orders: the elements in ascending index, no value returned. -/
def loadOf (c : Iss) (t d : Nat) (ps : List Placed) : LoadEntry :=
  { seq := c.g.seq, dst := d, pair := decide (typeWidth t = 8), slot := c.which, elems := ps.map (·.load t) }

/-- The group with a load more. -/
def withLoad (c : Iss) (t d : Nat) (ps : List Placed) : Group :=
  { c.g with loads := c.g.loads ++ [loadOf c t d ps], seq := c.g.seq + 1 }

/-- The group with a store more, FLAGS taking the encoders' exceptions (R37, R203). -/
def withStore (c : Iss) (t d : Nat) (ps : List Placed) (arrived : StoreElem → Bool) : Group :=
  let w := storeWrites t (fun p => c.storeBits t d p.elem) ps
  { c.g with stores := c.g.stores ++ [{ seq := c.g.seq, elems := w.1.map (fun x => { x with arrived := arrived x }) }],
             seq := c.g.seq + 1, flags := c.g.flags ||| w.2 }

/-- The elements of a conflict check: on a CHECKED device page, with the live stamps of other groups that they meet (R254). -/
def stampHits (c : Iss) (k : StampKind) (ps : List Placed) : List (Placed × Stamp) :=
  (checkedSectors ps).filterMap (fun x => (c.st.conflict c.l.ctx c.g.core c.g.slot x.2 k).map (fun t => (x.1, t)))

/-- R253: every sector of CHECKED pages that an access touches carries a stamp of the group's region. -/
def Stamped (c : Iss) (k : StampKind) (ps : List Placed) (t : State) : Prop :=
  ∀ x ∈ checkedSectors ps, ∃ y ∈ t.ms.stamps, y.sector = x.2 ∧ y.ctx = c.l.ctx ∧ y.core = c.g.core ∧ y.slot = c.g.slot ∧
    y.kind = k ∧ y.region = c.st.regionNum c.g.core c.g.slot

/-- The load entry of an ld on CHECKED pages: an element there has its value at the issue. -/
def withStampedLoad (c : Iss) (t d : Nat) (ps : List Placed) : Group :=
  { c.g with loads := c.g.loads ++ [{ loadOf c t d ps with elems := ps.map (fun p => if p.leaf.checked then
               { p.load t with value := some (c.st.loadValue c.g c.g.seq (p.load t)) } else p.load t) }],
             seq := c.g.seq + 1 }

/-- The elements of a load that its line's return performs. -/
def dueOf (l : LoadEntry) (line : Nat) : List LoadElem := l.elems.filter (fun x => x.value.isNone && x.place.lineNo == line)

/-- A load's elements after the return of a line. -/
def returned (s : State) (g : Group) (l : LoadEntry) (line : Nat) : List LoadElem :=
  l.elems.map (fun x => if x.value.isNone && x.place.lineNo == line then { x with value := some (s.loadValue g l.seq x) } else x)

/-- The value of an element of a load. -/
def valueOf (xs : List LoadElem) (e : Nat) : Nat := ((xs.find? (fun x => x.elem == e)).bind (·.value)).getD 0

/-- The offset of an element of lds or sts (R332, R340). -/
def sramAt (c : Iss) (t b : Nat) (vi : Option Nat) (e : Nat) : Nat := c.formAddr b vi e (sramWidth t)

/-- Every active element of an lds or sts is aligned and lies in the unit's run (R335, R340). -/
def InRun (c : Iss) (t b : Nat) (vi : Option Nat) : Prop :=
  ∃ off len, c.u.scratch = some (off, len) ∧ ∀ e ∈ c.elems, sramAt c t b vi e % sramWidth t = 0 ∧
    off ≤ sramAt c t b vi e ∧ sramAt c t b vi e + sramWidth t ≤ off + len

/-- The SRAM bytes that sts stores, element after element in ascending index (R245). -/
def stsBytes (c : Iss) (t d b : Nat) (vi : Option Nat) (m : Memory) : Memory :=
  c.elems.foldl (fun m e => m.writeLE (sramAt c t b vi e) (sramWidth t)
    (if t = 5 then (c.g.v64 d e).toNat else (c.g.v d e).toNat)) m

end Sys2Proof.Claims

/-! ## Loads and stores (spec files 10 and 14) -/

/-- R203, R332, R336: where the page of s[sbase] has no FORMAT, or one that the declared type accesses raw, an element's address is
s[sbase] plus the index times the type's width modulo 2^64; a raw element is loaded with sign extension for i8 and i16 and zero
extension for the other types, and a store of it takes the low bytes. -/
def Sys2Proof.Claims.RawAccess : Prop :=
  (∀ (c : Iss) (b : Nat) (vi : Option Nat) (t : Nat) (store : Bool) (e : Nat),
    (∀ l, c.baseLeaf b e = some l → l.format = false ∨ fmtRaw l.fmt t store = true) →
    (c.form b vi t store e).mode = .raw ∧ (c.form b vi t store e).width = typeWidth t ∧
    ((c.form b vi t store e).va : Int) = ((c.g.s b).toNat + (match vi with
      | some r => (c.g.v r e).toInt * typeWidth t
      | none => 0)) % 2 ^ 64) ∧
  (∀ (p : Placed) (t : Nat), p.mode = .raw → (p.load t).n = p.width ∧ (p.load t).place = p.place ∧
    (p.load t).conv = if t = 1 ∨ t = 3 then .sext else .zext) ∧
  (∀ (t : Nat) (bits : Placed → Nat) (ps : List Placed), (∀ p ∈ ps, p.mode = .raw) →
    storeWrites t bits ps = (ps.map (fun p => p.store p.place (leBytes p.width (bits p))), 0))

/-- R336, R246, R402: ld with admitted elements issues. On device pages without CHECKED the group moves on with one load more; a
load that reaches peers or hosts by open routes holds the group at the ld. -/
def Sys2Proof.Claims.LoadIssue : Prop :=
  ∀ t d b (i : Option (Fin 128)) s c ps, Ready s c (.ld t d b i) → Admitted c .read t b (i.map (·.val)) ps →
    (PlainDevice ps → ∃ s', TlbOnly s s' ∧ CompletesIn (.ld t d b i) s c s' (fun g => g = movedOn c (withLoad c t d ps))) ∧
    ((∀ p ∈ ps, p.leaf.checked = false) → (∀ p ∈ ps, s.routeOpen p.place = true) → (∃ p ∈ ps, p.place.remote = true) →
      ∃ s' u, TlbOnly s s' ∧ exec (.ld t d b i) s = .next u ∧ OwnGroupOnly s' u c ∧
        u.group? c.g.core c.g.slot = some { withLoad c t d ps with blocked := some c.g.seq, waitCount := 0 })

/-- R336, R337, R246: st with admitted elements on pages without CHECKED that covers its bx blocks issues: the group moves on with
one store more. No memory changes until its bytes are applied. -/
def Sys2Proof.Claims.StoreIssue : Prop :=
  ∀ t d b (i : Option (Fin 128)) s c ps, Ready s c (.st t d b i) → Admitted c .write t b (i.map (·.val)) ps →
    (∀ p ∈ ps, p.leaf.checked = false) → (∀ p ∈ ps, s.routeOpen p.place = true) → partialBlocks .write t ps = none →
    ∃ s' f, PathsOnly s s' ∧ CompletesIn (.st t d b i) s c s' (fun g => g = movedOn c (withStore c t d ps f))

/-- R333 to R335, R206, R207: an element whose address is no multiple of its width makes ld, st and ld.hn trap with ALIGN_FAULT,
REASON 1, naming the first such element, its address and the format of its page, and counting them. Else, where the listed class of failure is an entry with
V = 0 and a pending fault entry of the page or a free one exists, the group enters FAULTWAIT on it, with no other effect on it. -/
def Obligations.AccessFaults : Prop :=
  ∀ i s c (t : Fin 16) d (b : Fin 64) (x : Option (Fin 128)) (a : Access),
    (i = .ld t d b x ∧ a = .read) ∨ (i = .st t d b x ∧ a = .write) ∨ (i = .ldHn t d b x ∧ a = .read) → Ready s c i →
    (∀ e ∈ c.elems, WalkFree c e (c.g.s b).toNat) →
    (∀ h f fs, HandlerFree s c 0x0B h → (formed c a t b (x.map (·.val))).filter (fun f => f.va % f.width != 0) = f :: fs →
      WalkFree c f.elem f.va →
      Traps i s c { cause := 0x0B, tinfo0 := f.va, tinfo1 := accessWord a t (c.pageOf f.elem f.va) 1, first := some f.elem,
                    nelem := fs.length + 1 } h) ∧
    (∀ e ea lv pm n, s.ms.pfes.Pairwise (fun p q => ¬(p.base = q.base ∧ p.index = q.index)) →
      (∀ f ∈ formed c a t b (x.map (·.val)), f.va % f.width = 0) →
      worstFail ((formed c a t b (x.map (·.val))).map (fun f =>
        (f.elem, s.xlElem (some c.g.core) (dieOfCore c.g.core) c.l.ctx (f.elem / 32) f.va a))) = some (.absent, e, ea, lv, pm, n) →
      (∃ k, k < 512 ∧ ((s.pfe (baseOfDie (dieOfCore c.g.core)) k).pending = false ∨
        ((s.pfe (baseOfDie (dieOfCore c.g.core)) k).ctx = c.l.ctx ∧ (s.pfe (baseOfDie (dieOfCore c.g.core)) k).page = ea / 4096))) →
      ∃ u g k, exec i s = .next u ∧ u.group? c.g.core c.g.slot = some g ∧ u.cur = none ∧
        g = { c.g with st := .faultWait (baseOfDie (dieOfCore c.g.core)) (some k), prevSt := c.g.st, lateTrap := g.lateTrap,
                         waitCount := 0 } ∧
        (u.pfe (baseOfDie (dieOfCore c.g.core)) k).pending = true ∧ (u.pfe (baseOfDie (dieOfCore c.g.core)) k).ctx = c.l.ctx ∧
        (u.pfe (baseOfDie (dieOfCore c.g.core)) k).page = ea / 4096)

/-- R253 to R255: an admitted ld or st on CHECKED device pages that meets a live conflicting stamp of another group of its context
traps with MMX: TINFO0 is the 16-byte block of the first element, TINFO1 the conflict word. Without one it issues, an ld taking
the values of its CHECKED elements now, and every sector that it touches is stamped. -/
def Obligations.RaceStamps : Prop :=
  (∀ i s c h (t : Fin 16) d (b : Fin 64) (x : Option (Fin 128)) (a : Access) (k : StampKind) ps,
    (i = .ld t d b x ∧ a = .read ∧ k = .read) ∨ (i = .st t d b x ∧ a = .write ∧ k = .write ∧ partialBlocks .write t ps = none) →
    Ready s c i → HandlerFree s c 0x0C h → Admitted c a t b (x.map (·.val)) ps →
    (a = .read → ∀ p ∈ ps, p.leaf.checked = true → s.elemGate (p.load t) = none) →
    ∀ p y ys, stampHits c k ps = (p, y) :: ys →
      Traps i s c { cause := 0x0C, tinfo0 := p.ea / 16 * 16, tinfo1 := conflictWord k y, first := some p.elem,
                    nelem := (((p, y) :: ys).map (fun z => z.1.elem)).eraseDups.length } h) ∧
  (∀ t d b (i : Option (Fin 128)) s c ps, Ready s c (.ld t d b i) → Admitted c .read t b (i.map (·.val)) ps →
    (∀ p ∈ ps, p.place.remote = false) → stampHits c .read ps = [] → c.stampFull .read ps = false → s.stampGate ps = none →
    StampRoom s c ps →
    (∀ p ∈ ps, p.leaf.checked = true → (p.load t).ready c.g c.g.seq = true ∧ s.elemGate (p.load t) = none ∧
      s.poisonAt p.place p.width = false) →
    ∃ s', StampsOnly s s' ∧ Stamped c .read ps s' ∧
      CompletesIn (.ld t d b i) s c s' (fun g => g = movedOn c (withStampedLoad c t d ps))) ∧
  (∀ t d b (i : Option (Fin 128)) s c ps, Ready s c (.st t d b i) → Admitted c .write t b (i.map (·.val)) ps →
    partialBlocks .write t ps = none → (∀ p ∈ ps, s.routeOpen p.place = true) → stampHits c .write ps = [] →
    c.stampFull .write ps = false → s.stampGate ps = none → StampRoom s c ps →
    ∃ s' f, StampsOnly s s' ∧ Stamped c .write ps s' ∧
      CompletesIn (.st t d b i) s c s' (fun g => g = movedOn c (withStore c t d ps f)))

/-- R243, R337: the value of a raw element from device memory is its bytes in little-endian order, sign- or zero-extended, where
the group has no earlier write under way and no partial of its cluster overlaps. -/
def Sys2Proof.Claims.LoadValue : Prop :=
  ∀ (s : State) (g : Group) (seq a : Nat) (x : LoadElem), x.place = .dev a → g.stores = [] → g.sent = [] →
    (∀ p ∈ s.ms.partials, p.core = g.core → overlaps a x.n p.pa p.n = false) →
    (∀ p ∈ s.ms.pendings, clusterOfCore p.core = clusterOfCore g.core → overlaps a x.n p.pa p.n = false) →
    (x.conv = .zext → s.loadValue g seq x = s.ms.mem.readLE a x.n) ∧
    (x.conv = .sext → 0 < x.n → x.n ≤ 2 → ((BitVec.ofNat 32 (s.loadValue g seq x)).toInt =
      if s.ms.mem.readLE a x.n < 2 ^ (8 * x.n - 1) then (s.ms.mem.readLE a x.n : Int) else s.ms.mem.readLE a x.n - 2 ^ (8 * x.n)))

/-- R337, R246: LOAD_RETURN of a line whose elements may be read gives them their values. With every element's value there the
destination is written in those elements and the load is gone; memory keeps its bytes. -/
def Sys2Proof.Claims.LoadReturns : Prop :=
  ∀ s core slot k line g l, s.mgmt.devState ≠ .fatal → s.group? core slot = some g → g.loads[k]? = some l → g.blocked = none →
    dueOf l line ≠ [] → (∀ x ∈ dueOf l line, x.place.remote = false ∧ x.ready g l.seq = true ∧ s.elemGate x = none ∧
      s.poisonAt x.place x.n = false) →
    ∃ t h, exec (.loadReturn core slot k line) s = .next t ∧ t.group? core slot = some h ∧ t.ms.mem = s.ms.mem ∧
      t.ms.sram = s.ms.sram ∧ t.eng = s.eng ∧ t.fab = s.fab ∧ t.mgmt = s.mgmt ∧ t.cur = s.cur ∧
      (if ∀ x ∈ returned s g l line, x.value ≠ none then
        h = { g with vregs := h.vregs, loads := g.loads.filter (fun m => m.seq != l.seq) } ∧
        ∀ r e, h.v r e =
          if r = l.dst ∧ Holds g r e ∧ e < 256 ∧ (∃ x ∈ l.elems, x.elem = e) then BitVec.ofNat 32 (valueOf (returned s g l line) e)
          else if l.pair = true ∧ r = l.dst + 1 ∧ Holds g r e ∧ e < 256 ∧ (∃ x ∈ l.elems, x.elem = e) then
            BitVec.ofNat 32 (valueOf (returned s g l line) e / 2 ^ 32)
          else g.v r e
       else h = { g with loads := g.loads.map (fun m => if m.seq = l.seq then { m with elems := returned s g l line } else m) })

/-- R221, R223, R245: STORE_AT_HOME_SLICE applies the writes of a store in one device line, in ascending element index: those bytes
of memory change and no others, and the store keeps its writes in other lines. -/
def Sys2Proof.Claims.StoreApplies : Prop :=
  ∀ s core slot k line g e, s.mgmt.devState ≠ .fatal → s.group? core slot = some g → g.stores[k]? = some e →
    e.elems.filter (fun w => w.place.lineNo == line) ≠ [] →
    (∀ w ∈ e.elems, w.place.lineNo = line → w.place.remote = false ∧ w.arrived = true ∧
      s.mayWrite g e.seq (some w.elem) w.place w.bytes.length = true ∧ s.placeGate w.place w.bytes.length = none) →
    ∃ t h, exec (.storeAtHomeSlice core slot k line) s = .next t ∧ t.group? core slot = some h ∧ t.cur = s.cur ∧
      t.ms.mem = (e.elems.filter (fun w => w.place.lineNo == line)).foldl (fun m w => match w.place with
        | .dev a => m.writeN a w.bytes
        | .peer _ _ => m
        | .host _ _ => m) s.ms.mem ∧
      (∀ a, (∀ w ∈ e.elems, ∀ b, w.place = .dev b → w.place.lineNo = line → a < b ∨ b + w.bytes.length ≤ a) →
        t.ms.mem.read a = s.ms.mem.read a) ∧
      t.ms.sram = s.ms.sram ∧ t.eng = s.eng ∧ t.fab = s.fab ∧ t.mgmt = s.mgmt ∧
      h = { g with stores := if ∀ w ∈ e.elems, w.place.lineNo = line then g.stores.filter (fun x => x.seq != e.seq)
        else g.stores.map (fun x => if x.seq = e.seq then { x with elems := e.elems.filter (fun w => w.place.lineNo != line) } else x) }

/-- R339, R340, R274, R335: lds and sts on offsets in the unit's run complete: lds extends the bytes of cluster SRAM into the
register, sts stores the register's low bytes and changes no other byte. A misaligned element, one outside the run, and for sts
one on a barrier object's bytes, traps. -/
def Obligations.ClusterSram : Prop :=
  (∀ t d b (i : Option (Fin 128)) s c, (Instr.lds t d b i).WellFormed → Ready s c (.lds t d b i) → InRun c t b (i.map (·.val)) →
    (t.val < 5 → Completes (.lds t d b i) s c (VectorWritten c d (fun e =>
      let n := (s.sramOf (clusterOfCore c.g.core)).readLE (sramAt c t b (i.map (·.val)) e) (sramWidth t)
      if c.g.width ≤ e then 0 else if t.val = 1 then (BitVec.ofNat 8 n).signExtend 32 else if t.val = 3 then (BitVec.ofNat 16 n).signExtend 32
      else BitVec.ofNat 32 n))) ∧
    (t.val = 5 → Completes (.lds t d b i) s c (PairWritten c d (fun e =>
      if c.g.width ≤ e then 0 else BitVec.ofNat 64 ((s.sramOf (clusterOfCore c.g.core)).readLE (sramAt c t b (i.map (·.val)) e) 8))))) ∧
  (∀ t d b (i : Option (Fin 128)) s c, (Instr.sts t d b i).WellFormed → Ready s c (.sts t d b i) → InRun c t b (i.map (·.val)) →
    (∀ e ∈ c.elems, s.barrierTouched (clusterOfCore c.g.core) (sramAt c t b (i.map (·.val)) e) (sramWidth t) = none) →
    (∀ e ∈ c.elems, c.g.elemBefore c.g.seq (some e) = false ∧ c.g.sentElem (some e) = false) →
    ∃ u g, exec (.sts t d b i) s = .next u ∧ u.group? c.g.core c.g.slot = some g ∧ g = movedOn c c.g ∧
      u.ms = { s.ms with sram := u.ms.sram } ∧ u.eng = s.eng ∧ u.fab = s.fab ∧ u.mgmt = s.mgmt ∧
      (∀ k, k ≠ clusterOfCore c.g.core → u.sramOf k = s.sramOf k) ∧
      (u.sramOf (clusterOfCore c.g.core) = stsBytes c t d b (i.map (·.val)) (s.sramOf (clusterOfCore c.g.core))) ∧
      ∀ a, (∀ e ∈ c.elems, a < sramAt c t b (i.map (·.val)) e ∨ sramAt c t b (i.map (·.val)) e + sramWidth t ≤ a) →
        (u.sramOf (clusterOfCore c.g.core)).read a = (s.sramOf (clusterOfCore c.g.core)).read a) ∧
  (∀ j (t : Fin 8) d (b : Fin 64) (i : Option (Fin 128)) s c h (a : Access), j = .lds t d b i ∧ a = .read ∨ j = .sts t d b i ∧ a = .write →
    j.WellFormed → Ready s c j →
    (∀ e es, c.elems.filter (fun e => sramAt c t b (i.map (·.val)) e % sramWidth t != 0) = e :: es → HandlerFree s c 0x0B h →
      Traps j s c { cause := 0x0B, tinfo0 := sramAt c t b (i.map (·.val)) e, tinfo1 := accessWord a t none 1, first := some e,
                    nelem := es.length + 1 } h) ∧
    (∀ e es, (∀ e ∈ c.elems, sramAt c t b (i.map (·.val)) e % sramWidth t = 0) →
      c.elems.filter (fun e => match c.u.scratch with
        | some r => decide (sramAt c t b (i.map (·.val)) e < r.1 ∨ r.1 + r.2 < sramAt c t b (i.map (·.val)) e + sramWidth t)
        | none => true) = e :: es → HandlerFree s c 0x09 h →
      Traps j s c { cause := 0x09, tinfo0 := sramAt c t b (i.map (·.val)) e, tinfo1 := a.code, first := some e,
                    nelem := es.length + 1 } h)) ∧
  (∀ t d b (i : Option (Fin 128)) s c h, (Instr.sts t d b i).WellFormed → Ready s c (.sts t d b i) → InRun c t b (i.map (·.val)) →
    HandlerFree s c 0x10 h → ∀ e es o, c.elems.filter (fun e => (s.barrierTouched (clusterOfCore c.g.core)
      (sramAt c t b (i.map (·.val)) e) (sramWidth t)).isSome) = e :: es →
    s.barrierTouched (clusterOfCore c.g.core) (sramAt c t b (i.map (·.val)) e) (sramWidth t) = some o →
    Traps (.sts t d b i) s c { cause := 0x10, tinfo0 := o, tinfo1 := 8, first := some e, nelem := es.length + 1 } h)

namespace Sys2Proof.Claims

open Sys2Proof.Machine

/-! ## Atomics, headnote loads, fences, barriers, transfers -/

/-- `t` is `s` but for what caches, directories and TLBs hold. -/
def CachesOnly (s t : State) : Prop :=
  t = { s with ms := { s.ms with lines := t.ms.lines, shadows := t.ms.shadows, peerCopies := t.ms.peerCopies,
                                 hostLines := t.ms.hostLines, llcCounters := t.ms.llcCounters, tlbCore := t.ms.tlbCore,
                                 tlbDie := t.ms.tlbDie, walkCache := t.ms.walkCache } }

/-- The instruction starts or goes on to wait for w: the group, else as in g, is in WAIT, and nothing outside it changes. -/
def Waits (i : Instr) (s : State) (c : Iss) (w : WaitKind) (g : Group) : Prop :=
  ∃ t n, exec i s = .next t ∧ t.group? c.g.core c.g.slot = some n ∧ t.ms = s.ms ∧ t.eng = s.eng ∧ t.fab = s.fab ∧ t.mgmt = s.mgmt ∧
    (∀ k j, ¬(k = c.g.core ∧ j = c.g.slot) → t.group? k j = s.group? k j) ∧ t.sched.queues = s.sched.queues ∧
    t.sched.launches = s.sched.launches ∧ t.sched.units = s.sched.units ∧
    n = { g with st := .wait w, prevSt := c.g.st, released := n.released, slot0 := n.slot0, slot1 := n.slot1, hdl := n.hdl,
                 waitCount := n.waitCount } ∧
    n.slot0.pc = g.slot0.pc ∧ n.slot0.mask = g.slot0.mask ∧ n.slot1.pc = g.slot1.pc ∧ n.slot1.mask = g.slot1.mask

/-- The die L2 of the group has room for n more lines (R22). -/
def L2Room (s : State) (c : Iss) (n : Nat) : Prop := s.l2Used (dieOfCore c.g.core) + n ≤ l2Lines

/-- Whether an element lies on an unchecked page with an open route, its continuation in a second page included. -/
def OpenPlain (s : State) (p : PlacedAtom) : Prop :=
  p.leaf.checked = false ∧ s.routeOpen p.place = true ∧
    ∀ n l q, p.rest = some (n, l, q) → l.checked = false ∧ s.routeOpen q = true

/-- The elements that execute at the issue, one after the other in ascending index: each in its unit with the memory that the ones
before it left (R345). -/
def inOrder (s : State) (c : Iss) (op k d : Nat) (ps : List PlacedAtom) : State × List AtomElem :=
  ps.foldl (fun r p => match p.place with
    | .dev a => if (r.1.atomUnit c.g.core op k p).atIssue = true then
        let x := c.atomElem op d p
        ((r.1.atomNow c.g.core op (r.1.atomUnit c.g.core op k p) a x.x x.y p.leaf.cache).2,
         r.2 ++ [{ x with value := some (r.1.atomNow c.g.core op (r.1.atomUnit c.g.core op k p) a x.x x.y p.leaf.cache).1 }])
      else (r.1, r.2 ++ [c.atomElem op d p])
    | .peer _ _ => (r.1, r.2 ++ [c.atomElem op d p])
    | .host _ _ => (r.1, r.2 ++ [c.atomElem op d p])) (s, [])

/-- The atomic's entry that waits for bank ALUs or far sides, `xs` its elements. -/
def atomicOf (c : Iss) (op d : Nat) (red : Bool) (xs : List AtomElem) : AtomEntry :=
  { seq := c.g.seq, cycle := c.st.clock (.core c.g.core) + 1, op := op, red := red, dst := d, slot := c.which, elems := xs }

/-- The group after an atomic whose elements `xs` have or have not their values. -/
def afterAtomic (c : Iss) (op d : Nat) (red : Bool) (xs : List AtomElem) : Group :=
  if ∀ x ∈ xs, x.value ≠ none then
    (if red then { c.g with seq := c.g.seq + 1 } else ({ c.g with seq := c.g.seq + 1 } : Group).setAtom op d xs)
  else { c.g with seq := c.g.seq + 1, atoms := c.g.atoms ++ [atomicOf c op d red xs] }

/-- Bytes written at one place, or at a place and its continuation. -/
def writtenAt (s : State) (p : Place) (rest : Option (Nat × Place)) (bs : List Byte) : State :=
  match rest with
  | none => s.placeWrite p bs
  | some (k, q) => (s.placeWrite p (bs.take k)).placeWrite q (bs.drop k)

/-- The register bits that ld.hn gives an element at once: its bytes, from the shadow or as ld reads them, converted (R231, R341). -/
def hnValue (s : State) (c : Iss) (t : Nat) (p : Placed) : Nat :=
  (p.load t).conv.apply (leNat (c.hnBytes (p.load t))) (p.load t).n (s.scalePair c.g c.g.seq (p.load t).conv).1
    (s.scalePair c.g c.g.seq (p.load t).conv).2

/-- A line that an entry selected by a mask names and whose check is not answered. -/
def unanswered (m : Nat) (w : List WatchEntry) (line : Nat) : Prop :=
  ∃ i e x, w[i]? = some e ∧ m.testBit i = true ∧ x ∈ e.lines ∧ x.st = .pending ∧ x.line = line

/-- The watch entries that a mask selects are freed (R233). -/
def freedBy (m : Nat) (w : List WatchEntry) : List WatchEntry :=
  w.mapIdx (fun i e => if m.testBit i ∧ (e.st = .confirmed ∨ e.st = .struck) then { st := .free, lines := [] } else e)

/-- CONFIRMED entries freed (R234). -/
def freedConfirmed (w : List WatchEntry) : List WatchEntry :=
  w.map (fun e => if e.st = .confirmed then { st := .free, lines := [] } else e)

/-- The group after a release at a scope: CONFIRMED entries are free, the discarded writes that a fence of the scope reports
are due at the next instruction as FENCE_INCOMPLETE (R263). -/
def Released (c : Iss) (k : Nat) (g : Group) : Prop :=
  g = movedOn c { c.g with watch := freedConfirmed c.g.watch, lost := g.lost, lateTrap := g.lateTrap } ∧
    g.lost = c.g.lost.filter (fun x => !reportable k x) ∧
    (c.g.lost.filter (reportable k) = [] → g.lateTrap = none) ∧
    (∀ x xs, c.g.lost.filter (reportable k) = x :: xs →
      g.lateTrap = some { cause := 0x18, tinfo0 := xs.foldl min x, tinfo1 := xs.length + 1 })

/-- A group that a release at a scope finds with nothing to wait for, no host holding bytes of the words that it applies partials to
(R228, R234, R248). -/
structure MayRelease (c : Iss) (k : Nat) : Prop where
  settled : c.g.watching .pending = false
  unstruck : c.g.watching .struck = false
  performed : c.g.releaseWaits k = false
  ungated : c.st.releaseGate c.g.core k = none

/-- The partials that a release at a scope moves (R237, R248). -/
def PartialsMoved (s t : State) (core k : Nat) : Prop :=
  (k < 4 → t.ms.partials = s.ms.partials ∧ t.ms.pendings = s.ms.pendings ∧ t.ms.mem = s.ms.mem) ∧
  (4 ≤ k → ∀ p ∈ t.ms.partials, p.core ≠ core) ∧
  (k = 4 → s.ms.pendings.length + (s.ms.partials.filter (fun p => p.core == core)).length ≤ 1024 → t.ms.mem = s.ms.mem ∧
    t.ms.pendings = s.ms.pendings ++ (s.ms.partials.filter (fun p => p.core == core)).map
      (fun p => { core := p.core, pa := p.pa, n := p.n, ops := p.ops })) ∧
  (5 ≤ k → ∀ p ∈ t.ms.pendings, p.core ≠ core) ∧
  (5 ≤ k → t.ms.mem = (s.ms.partials.filter (fun p => p.core == core)).foldl
      (fun m p => m.writeN p.pa ((applyPartials m p.pa p.n p.ops).readN p.pa p.n))
    ((s.ms.pendings.filter (fun p => p.core == core)).foldl
      (fun m p => m.writeN p.pa ((applyPartials m p.pa p.n p.ops).readN p.pa p.n)) s.ms.mem))

/-- A barrier object's offset as R283 checks it: aligned to 32 and inside the unit's run. -/
def InObject (c : Iss) (a : Nat) : Prop :=
  (c.g.s a).toNat % 32 = 0 ∧ ∃ off len, c.u.scratch = some (off, len) ∧ off ≤ (c.g.s a).toNat ∧ (c.g.s a).toNat + 32 ≤ off + len

/-- The object's arrivals stay at or below its EXPECT. -/
def Bar.ok (b : Bar) : Prop := b.arr0 ≤ b.expect ∧ b.arr1 ≤ b.expect

/-- What ends phases (R275): while the current phase has its arrivals and no pending bytes, it ends; two phases at most. -/
def phaseEnds (b : Bar) : Bar :=
  if b.arr0 = b.expect ∧ b.pend0 = 0 then
    (if b.arr1 = b.expect ∧ b.pend1 = 0 then
      (if b.expect = 0 then { b with phase := (b.phase + 3) % 65536, arr0 := 0, pend0 := 0, arr1 := 0, pend1 := 0 }
       else { b with phase := (b.phase + 2) % 65536, arr0 := 0, pend0 := 0, arr1 := 0, pend1 := 0 })
     else { b with phase := (b.phase + 1) % 65536, arr0 := b.arr1, pend0 := b.pend1, arr1 := 0, pend1 := 0 })
  else b

/-- The object of a cluster after an arrival or count: as `b`, phases ended, its released waiters gone from WAITERS. -/
def ObjectIs (t : State) (cluster o : Nat) (b : Bar) : Prop :=
  ∃ x, t.bar? cluster o = some x ∧ x = { phaseEnds b with waiters := x.waiters } ∧ x.waiters ≤ b.waiters

end Sys2Proof.Claims

/-! ## Atomics (spec files 09, 10 and 14) -/

/-- R343 to R345, R236: atom and red whose elements pass their checks on unchecked pages with open routes issue. Where no element
executes in the core's L1 or a home slice, an entry with all of them waits for the bank ALUs and far sides and memory is as it was.
Else those elements execute in ascending order, and an entry holds the others, if any. An atom with elements on peers or hosts holds
the group. -/
def Obligations.AtomicIssue : Prop :=
  ∀ i o d b x k s c ps (red : Bool), (i = .atom o d b x k ∧ red = false) ∨ (i = .red o d b x k ∧ red = true) → Ready s c i →
    c.atomChecks o.val b.val x.val = .ok ps → (∀ p ∈ ps, OpenPlain s p) →
    (ps ≠ [] → (∀ p ∈ ps, (s.atomUnit c.g.core o.val k.val p).atIssue = false) →
      (let g := { c.g with seq := c.g.seq + 1,
                           atoms := c.g.atoms ++ [atomicOf c o.val d.val red (ps.map (c.atomElem o.val d.val))] }
       (red = true ∨ (∀ p ∈ ps, p.place.remote = false) → ∃ s', TlbOnly s s' ∧ CompletesIn i s c s' (fun n => n = movedOn c g)) ∧
       (red = false → (∃ p ∈ ps, p.place.remote = true) → ∃ s' t, TlbOnly s s' ∧ exec i s = .next t ∧ OwnGroupOnly s' t c ∧
         t.group? c.g.core c.g.slot = some { g with blocked := some c.g.seq, waitCount := 0 }))) ∧
    ((∀ p ∈ ps, (s.atomUnit c.g.core o.val k.val p).atIssue = true →
        s.mayWrite c.g c.g.seq (some p.elem) p.place (atomWidth o.val) = true ∧ s.placeGate p.place (atomWidth o.val) = none ∧
        s.poisonAt p.place (atomWidth o.val) = false ∧
        s.rotationWaits c.g.core c.g.slot (s.clock (.core c.g.core) + 1) p.place (atomWidth o.val) = false) →
      (red = true ∨ (∀ p ∈ ps, p.place.remote = false) → ∃ s', TlbOnly s s' ∧
        CompletesIn i s c (inOrder s' c o.val k.val d.val ps).1 (fun g =>
          g = movedOn c (afterAtomic c o.val d.val red (inOrder s' c o.val k.val d.val ps).2))) ∧
      (red = false → (∃ p ∈ ps, p.place.remote = true) → ∃ s' t, TlbOnly s s' ∧ exec i s = .next t ∧
        OwnGroupOnly (inOrder s' c o.val k.val d.val ps).1 t c ∧ t.group? c.g.core c.g.slot = some
          { afterAtomic c o.val d.val red (inOrder s' c o.val k.val d.val ps).2 with blocked := some c.g.seq, waitCount := 0 }))

/-- R344, R236, R237: the new value of the integer operations, exch and cas; an element at a home slice returns the old word and
writes the new one to memory; one in the core's L1 returns the core's view and leaves memory as it is. -/
def Obligations.AtomicValues : Prop :=
  (∀ o x y : Nat, o < 2 ^ 32 → x < 2 ^ 32 → y < 2 ^ 32 →
    atomNew 0 o x y = (o + x) % 2 ^ 32 ∧
    (atomNew 5 o x y = if (BitVec.ofNat 32 o).toInt ≤ (BitVec.ofNat 32 x).toInt then o else x) ∧
    (atomNew 6 o x y = if (BitVec.ofNat 32 o).toInt ≤ (BitVec.ofNat 32 x).toInt then x else o) ∧
    atomNew 7 o x y = min o x ∧ atomNew 8 o x y = max o x ∧ atomNew 9 o x y = o &&& x ∧ atomNew 10 o x y = o ||| x ∧
    atomNew 11 o x y = o ^^^ x ∧ atomNew 12 o x y = x ∧ (atomNew 14 o x y = if o = x then y else o)) ∧
  (∀ o x y : Nat, o < 2 ^ 64 → x < 2 ^ 64 → atomNew 1 o x y = (o + x) % 2 ^ 64 ∧ atomNew 13 o x y = x) ∧
  (∀ (s : State) core op pa x y (cache : Bool),
    (s.atomNow core op .slice pa x y cache).1 = s.ms.mem.readLE pa (atomWidth op) ∧
    (s.atomNow core op .slice pa x y cache).2.ms.mem =
      s.ms.mem.writeN pa (leBytes (atomWidth op) (atomNew op (s.ms.mem.readLE pa (atomWidth op)) x y)) ∧
    (s.atomNow core op .l1 pa x y cache).1 = leNat (s.coreRead core pa (atomWidth op)) ∧
    (s.atomNow core op .l1 pa x y cache).2.ms.mem = s.ms.mem)

/-- R239, R240, R345, R263: BANK_ALU_ATOMIC executes the lowest unperformed element of an atomic: the bytes at its place, or at the
two places of an XA object that crosses pages, become those of R344, and the element has the old value. After the last element an
atom's register takes the values and the entry is gone. A red to a peer or host whose link carries traffic is sent instead, and the
other copies of the die of the peer's lines stay (R247). -/
def Obligations.BankAtomic : Prop :=
  ∀ s core slot k g a x, s.mgmt.devState ≠ .fatal → s.group? core slot = some g → g.atoms[k]? = some a → g.blocked ≠ some a.seq →
    a.elems.find? (fun y => y.value.isNone) = some x →
    (∀ q ∈ spanPieces x.place x.rest (atomWidth a.op), s.rotationWaits core slot a.cycle q.1 q.2 = false) →
    ((a.red = false ∨ x.place.remote = false) →
      (∀ q ∈ spanPieces x.place x.rest (atomWidth a.op), g.mayWrite a.seq (some x.elem) q.1 q.2 = true ∧
        g.sentElem (some x.elem) = false ∧ g.sentOver q.1 q.2 = false ∧ s.peerWaits g q.1 q.2 = false ∧
        s.placeGate q.1 q.2 = none ∧ s.poisonAt q.1 q.2 = false ∧ s.reachable q.1 = true ∧
        ∀ h ∈ s.ms.hostLines, ∀ b, q.1 = .host h.port b → h.line < b / 64 ∨ (b + q.2 - 1) / 64 < h.line) →
      (x.place.remote = true → s.farTrap (a.elems.map (fun y => (y.elem, y.va, y.place, atomWidth a.op))) .atomic = none) →
      ∃ t h, exec (.bankAluAtomic core slot k) s = .next t ∧ t.group? core slot = some h ∧ t.cur = s.cur ∧
        (let r := atomBytes a.op x.x x.y (s.spanRead x.place x.rest (atomWidth a.op))
         let xs : List AtomElem := a.elems.map (fun y => if y.elem = x.elem then { y with value := some r.1 } else y)
         t.ms.mem = (writtenAt s x.place x.rest r.2).ms.mem ∧ t.ms.peerMem = (writtenAt s x.place x.rest r.2).ms.peerMem ∧
         t.ms.hostMem = (writtenAt s x.place x.rest r.2).ms.hostMem ∧ t.ms.sram = s.ms.sram ∧ t.eng = s.eng ∧ t.fab = s.fab ∧
         h = if ∀ y ∈ xs, y.value ≠ none then
             (let g1 := { g with atoms := g.atoms.filter (fun b => b.seq != a.seq) }
              if a.red then g1 else g1.setAtom a.op a.dst xs)
           else { g with atoms := g.atoms.map (fun b => if b.seq = a.seq then { b with elems := xs } else b) })) ∧
    (∀ l, a.red = true → x.place.remote = true →
      (∀ q ∈ spanPieces x.place x.rest (atomWidth a.op), s.mayWrite g a.seq (some x.elem) q.1 q.2 = true) →
      s.placeLink x.place = some l → s.linkCarries l = true → s.retryFull l = false → s.otherLink (dieOfCore core) x.place l = false →
      ∃ t h, exec (.bankAluAtomic core slot k) s = .next t ∧ t.group? core slot = some h ∧
        t.ms = { s.ms with peerCopies := t.ms.peerCopies } ∧ t.eng = s.eng ∧
        (∀ p ∈ t.ms.peerCopies, p ∈ s.ms.peerCopies) ∧ (∀ p ∈ s.ms.peerCopies, p.die ≠ dieOfCore core → p ∈ t.ms.peerCopies) ∧
        h.sent = g.sent ++ [{ elem := some x.elem, place := x.place, rest := x.rest, bytes := [], red := some (a.op, x.x), link := l,
                              flit := s.nextFlit l, cmd := none }] ∧
        h.vregs = g.vregs ∧ h.sregs = g.sregs ∧ h.pregs = g.pregs ∧ h.flags = g.flags)

/-! ## Headnote loads (spec files 09 and 14) -/

/-- R231, R341: where R231 makes ld.hn an ld, it issues as one with LASTP1 at 0. Else, with its reads performable, it completes: the
destination takes the elements' values at once; the lowest free watch entry takes the instruction's lines, LASTP1 is its index plus 1;
a line that the die holds, or that no die does, is CONFIRMED, one of which the die has a shadow is PENDING; the entry is CONFIRMED
where every line is and PENDING otherwise. -/
def Sys2Proof.Claims.HeadnoteLoad : Prop :=
  ∀ t d b (i : Option (Fin 128)) s c ps, Ready s c (.ldHn t d b i) → Admitted c .read t b (i.map (·.val)) ps →
    (∀ p ∈ ps, s.routeOpen p.place = true) →
    (c.hnPlain ps = true → PlainDevice ps → ∃ s', TlbOnly s s' ∧
      CompletesIn (.ldHn t d b i) s c s' (fun g => g = movedOn c { withLoad c t d ps with lastp1 := 0 })) ∧
    (c.hnPlain ps = false → L2Room s c (hnLines ps).length →
      (s.ms.shadows.filter (fun h => h.die == dieOfCore c.g.core)).length + (hnLines ps).length ≤ 32768 →
      (∀ p ∈ ps, (p.load t).ready c.g c.g.seq = true ∧ s.elemGate (p.load t) = none ∧ s.poisonAt p.place p.width = false) →
      ∃ s' n ws, CachesOnly s s' ∧ n < c.g.watch.length ∧ (∀ e, c.g.watch[n]? = some e → e.st = .free) ∧
        (∀ m e, m < n → c.g.watch[m]? = some e → e.st ≠ .free) ∧ ws.map (·.line) = (hnLines ps).map (·.2) ∧
        (∀ w ∈ ws, s.hnHeld (dieOfCore c.g.core) w.line = true → w.st = .confirmed) ∧
        (∀ w ∈ ws, s.hnHeld (dieOfCore c.g.core) w.line = false → (s.shadowOf (dieOfCore c.g.core) w.line).isSome = true →
          w.st = .pending ∧ w.answer = none) ∧
        CompletesIn (.ldHn t d b i) s c s' (fun g =>
          (let e : WatchEntry := { st := if ∀ w ∈ ws, w.st = .confirmed then .confirmed else .pending, lines := ws }
           g = movedOn c { c.g with vregs := g.vregs, lastp1 := n + 1, seq := c.g.seq + 1, watch := c.g.watch.set n e }) ∧
          (∀ p ∈ ps, typeWidth t ≠ 8 → Holds c.g d p.elem → g.v d p.elem = BitVec.ofNat 32 (hnValue s c t p)) ∧
          (∀ p ∈ ps, typeWidth t = 8 → Holds c.g d p.elem → g.v d p.elem = BitVec.ofNat 32 (hnValue s c t p)) ∧
          (∀ p ∈ ps, typeWidth t = 8 → Holds c.g (d + 1) p.elem →
            g.v (d + 1) p.elem = (BitVec.ofNat 64 (hnValue s c t p) >>> 32).setWidth 32) ∧
          ∀ r e, c.mask.getLsbD e = false ∨ (r ≠ d ∧ ¬(typeWidth t = 8 ∧ r = d + 1)) → g.v r e = c.g.v r e))

/-- R231, R237: the bytes of an element of ld.hn, where the group has no write under way and no partial of its cluster lies near: a line
of the die's own, or of no die, gives memory's; one of another die gives the shadow's where the die has one, else memory's. -/
def Sys2Proof.Claims.HeadnoteBytes : Prop :=
  ∀ (c : Iss) (x : LoadElem) (a : Nat), x.place = .dev a → c.g.stores = [] → c.g.sent = [] →
    (∀ p ∈ c.st.ms.partials, p.core ≠ c.g.core) →
    (∀ p ∈ c.st.ms.pendings, clusterOfCore p.core ≠ clusterOfCore c.g.core) → a % 128 + x.n ≤ 128 →
    (c.st.hnHeld (dieOfCore c.g.core) (a / 128) = true → c.hnBytes x = c.st.ms.mem.readN a x.n) ∧
    (c.st.hnHeld (dieOfCore c.g.core) (a / 128) = false →
      (c.st.shadowOf (dieOfCore c.g.core) (a / 128) = none → c.hnBytes x = c.st.ms.mem.readN a x.n) ∧
      ∀ h, c.st.shadowOf (dieOfCore c.g.core) (a / 128) = some h → h.bytes.length = 128 →
        c.hnBytes x = (h.bytes.drop (a % 128)).take x.n)

/-- R342, R232, R233: hnchk frees the selected CONFIRMED and STRUCK entries, branches exactly where one was STRUCK, and waits while
one is PENDING; the die's shadows of freed lines whose checks are not answered go (R225). A check of a PENDING or STRUCK entry is
answered by comparing versions at the home; an answer confirms or strikes the line; a strike makes the entry STRUCK and discards the
die's shadow; a PENDING entry whose every line is confirmed is CONFIRMED. -/
def Sys2Proof.Claims.HeadnoteChecks : Prop :=
  (∀ a o s c, Ready s c (.hnchk a o) →
    (let m := (c.g.s a).toNat % 2 ^ 16
     ((∀ i e, c.g.watch[i]? = some e → m.testBit i = true → e.st ≠ .pending) → ∃ s',
       s' = { s with ms := { s.ms with shadows := s'.ms.shadows } } ∧
       (∀ h, h ∈ s'.ms.shadows ↔ h ∈ s.ms.shadows ∧ ¬(h.die = dieOfCore c.g.core ∧ unanswered m c.g.watch h.line)) ∧
       ((∃ i e, c.g.watch[i]? = some e ∧ m.testBit i = true ∧ e.st = .struck) → CompletesIn (.hnchk a o) s c s' (fun g =>
         ∃ t, halfwordsOn c o.toInt t ∧ g = jumped c { c.g with watch := freedBy m c.g.watch } t)) ∧
       ((∀ i e, c.g.watch[i]? = some e → m.testBit i = true → e.st ≠ .struck) → CompletesIn (.hnchk a o) s c s' (fun g =>
         g = movedOn c { c.g with watch := freedBy m c.g.watch }))) ∧
     ((∃ i e, c.g.watch[i]? = some e ∧ m.testBit i = true ∧ e.st = .pending) → Waits (.hnchk a o) s c .fence c.g))) ∧
  (∀ s core slot n line g e w, s.mgmt.devState ≠ .fatal → s.group? core slot = some g → g.watch[n]? = some e →
    (e.st = .pending ∨ e.st = .struck) → w ∈ e.lines → w.line = line → w.st = .pending → (∀ v ∈ e.lines, v.line = line → v = w) →
    (w.answer = none → ∃ t h, exec (.headnoteCheck core slot n line) s = .next t ∧ t.group? core slot = some h ∧ t.ms = s.ms ∧
      h = { g with watch := h.watch } ∧ ∃ f, h.watch[n]? = some f ∧ f.st = e.st ∧
        ∀ v ∈ f.lines, v.line = line → v.answer = some (decide ((s.line line).version.toNat = w.version ∧ (s.line line).recorded = true ∧
          s.killPending (128 * line) 128 = false))) ∧
    (∀ ok, w.answer = some ok → ∃ t h, exec (.headnoteCheckAnswer core slot n line) s = .next t ∧ t.group? core slot = some h ∧
      t.ms.mem = s.ms.mem ∧ h = { g with watch := h.watch } ∧ ∃ f, h.watch[n]? = some f ∧
        (∀ v ∈ f.lines, v.line = line → v.st = if ok then .confirmed else .struck) ∧
        (ok = false → f.st = .struck ∧ ∀ y ∈ t.ms.shadows, ¬(y.die = dieOfCore core ∧ y.line = line)) ∧
        (ok = true → e.st = .struck → f.st = .struck) ∧
        (ok = true → e.st = .pending → (∀ v ∈ e.lines, v.line ≠ line → v.st = .confirmed) → f.st = .confirmed)))

/-! ## Fences, pfetch, llcflush (spec files 10 and 14) -/

/-- R250, R347, R234, R248, R249: a fence completes where its waits are over: a release moves the core's partials as its scope asks,
frees CONFIRMED entries and from .wg on starts a new race-tracking region; an acquire does so too and from .pd on drops the die's peer
copies. It waits in a fence wait otherwise, unless later reads may pass a fence.rel: then it completes and its release is owed. A
release that finds STRUCK entries and none PENDING traps with HEADNOTE_FAULT and their mask. -/
def Obligations.Fences : Prop :=
  (∀ k s c, Ready s c (.fenceAcq k) →
    (c.g.watching .pending = false ∧ c.g.acquireWaits k = false → ∃ s', CompletesIn (.fenceAcq k) s c s' (fun g => g = movedOn c c.g) ∧
      s' = { s with ms := { s.ms with peerCopies := s'.ms.peerCopies, regionNo := s'.ms.regionNo } } ∧
      s'.ms.peerCopies = (if 7 ≤ k.val then s.ms.peerCopies.filter (fun p => p.die != dieOfCore c.g.core) else s.ms.peerCopies) ∧
      ∀ m n, s'.regionNum m n = if 2 ≤ k.val ∧ slotKey m n = slotKey c.g.core c.g.slot then s.regionNum m n + 1 else s.regionNum m n) ∧
    (c.g.watching .pending = true ∨ c.g.acquireWaits k = true → Waits (.fenceAcq k) s c .fence c.g)) ∧
  (∀ i (k : Fin 16) s c, (i = .fenceRel k ∨ i = .fenceFull k) → Ready s c i →
    (MayRelease c k → (i = .fenceFull k → c.g.acquireWaits k = false) → ∃ s', CompletesIn i s c s' (Released c k) ∧
      s' = { s with ms := { s.ms with mem := s'.ms.mem, lines := s'.ms.lines, partials := s'.ms.partials, pendings := s'.ms.pendings,
                                      peerCopies := s'.ms.peerCopies, regionNo := s'.ms.regionNo } } ∧
      PartialsMoved s s' c.g.core k ∧
      (∀ m n, s'.regionNum m n = if 2 ≤ k.val ∧ slotKey m n = slotKey c.g.core c.g.slot then s.regionNum m n + 1 else s.regionNum m n) ∧
      s'.ms.peerCopies = if i = .fenceFull k ∧ 7 ≤ k.val then s.ms.peerCopies.filter (fun p => p.die != dieOfCore c.g.core)
        else s.ms.peerCopies) ∧
    (c.g.watching .pending = true ∨ (c.g.watching .struck = false ∧ c.g.releaseWaits k = true ∧
        (i = .fenceFull k ∨ c.g.relax = false ∨ s.drydown c.l.ctx = true)) → Waits i s c .fence c.g) ∧
    (∀ h, c.g.watching .pending = false → c.g.watching .struck = true → HandlerFree s c 0x13 h →
      Traps i s c { cause := 0x13, tinfo0 := c.raw.toNat, tinfo1 := c.g.struckMask } h) ∧
    (i = .fenceRel k → c.g.watching .pending = false → c.g.watching .struck = false → c.g.releaseWaits k = true → c.g.relax = true →
      s.drydown c.l.ctx = false → Completes i s c (fun g => g = movedOn c { c.g with relax := false, relFence := some k.val })))

/-- R250, R267: after a fence.rel that later reads may pass, an ld issues, every other instruction of the group waits without an effect,
and the release completes by itself once the group's writes are performed: partials move, CONFIRMED entries are free and from .wg on a
new race-tracking region starts. -/
def Sys2Proof.Claims.ReleasePassed : Prop :=
  (∀ t d b (i : Option (Fin 128)) s c k ps, s.issuing = some c → c.g.hdl = none → c.g.relFence = some k → c.g.lateTrap = none →
    c.g.acquire = none → isLd c.raw.toNat = true → checkOperands c (operands (.ld t d b i)) = none →
    c.clears (operands (.ld t d b i)) = true → Admitted c .read t b (i.map (·.val)) ps → PlainDevice ps →
    ∃ s', TlbOnly s s' ∧ CompletesIn (.ld t d b i) s c s' (fun g => g = movedOn c (withLoad c t d ps))) ∧
  (∀ i s c k, s.issuing = some c → c.g.hdl = none → c.g.relFence = some k → isLd c.raw.toNat = false →
    (i = .nop ∨ (∃ t d b x, i = .st t d b x) ∨ (∃ d a b, i = .sadd d a b) ∨ ∃ k, i = .fenceRel k ∨ i = .fenceAcq k ∨ i = .fenceFull k) →
    exec i s = .next s) ∧
  (∀ (s : State) (g : Group) k, s.group? g.core g.slot = some g → g.saved = none → g.relFence = some k → g.releaseWaits k = false →
    g.lateTrap = none → s.releaseGate g.core k = none →
    ∃ t n, s.settleRelease g = some t ∧ t.group? g.core g.slot = some n ∧ PartialsMoved s t g.core k ∧
      n = { g with relFence := none, watch := freedConfirmed g.watch, lost := n.lost, lateTrap := n.lateTrap } ∧
      n.lost = g.lost.filter (fun x => !reportable k x) ∧
      t.regionNum g.core g.slot = if 2 ≤ k then s.regionNum g.core g.slot + 1 else s.regionNum g.core g.slot)

/-- R348, R349, R226: pfetch, in a die L2 with room, completes and changes only what caches hold. llcflush in a group that is not privileged, with a length
above 2^40 or from a noncanonical address traps; else it completes where no dirty line that no die holds lies in its range, and waits
for the lines that do. LLCFLUSH_WRITEBACK_COMPLETE makes them clean, after which llcflush completes. -/
def Obligations.PrefetchAndFlush : Prop :=
  (∀ l b i s c, (Instr.pfetch l b i).WellFormed → Ready s c (.pfetch l b i) →
    L2Room s c c.elems.length → ∃ s', CachesOnly s s' ∧ CompletesIn (.pfetch l b i) s c s' (fun g => g = movedOn c c.g)) ∧
  (∀ l b s c, Ready s c (.llcflush l b) →
    (∀ h, c.privileged = false → HandlerFree s c 0x02 h →
      Traps (.llcflush l b) s c { cause := 0x02, tinfo0 := c.raw.toNat, field := some 7 } h) ∧
    (c.privileged = true →
      (∀ h, 2 ^ 40 < (c.g.s l).toNat → HandlerFree s c 0x02 h →
        Traps (.llcflush l b) s c { cause := 0x02, tinfo0 := c.raw.toNat, field := some 11 } h) ∧
      ((c.g.s l).toNat ≤ 2 ^ 40 →
        (∀ h, 2 ^ 57 ≤ (c.g.s b).toNat → HandlerFree s c 0x08 h →
          Traps (.llcflush l b) s c { cause := 0x08, tinfo0 := (c.g.s b).toNat, tinfo1 := 64 } h) ∧
        ((c.g.s b).toNat < 2 ^ 57 →
          (let d := if (c.g.s l).toNat = 0 then [] else s.dirtyIn c.l.ctx (c.g.s b).toNat ((c.g.s b).toNat + (c.g.s l).toNat)
           let free := ∀ w ∈ s.rangeWalks c.l.ctx (c.g.s b).toNat ((c.g.s b).toNat + (c.g.s l).toNat), w.held? = none
           (c.waiting = false → ((c.g.s l).toNat ≠ 0 → free) → d = [] → Completes (.llcflush l b) s c (fun g => g = movedOn c c.g)) ∧
           (c.waiting = false → free → d ≠ [] → Waits (.llcflush l b) s c .fence { c.g with flush := d })) ∧
          (c.waiting = true → c.g.flush = [] → Completes (.llcflush l b) s c (fun g => g = movedOn c c.g)))))) ∧
  (∀ s core slot g, s.mgmt.devState ≠ .fatal → s.group? core slot = some g → g.flush ≠ [] →
    ∃ t, exec (.llcflushWritebackComplete core slot) s = .next t ∧ t.group? core slot = some { g with flush := [] } ∧
      t.ms.mem = s.ms.mem ∧ (∀ r ∈ t.ms.lines, r.line ∈ g.flush → r.dirty = false) ∧
      ∀ r ∈ s.ms.lines, r.line ∉ g.flush → r ∈ t.ms.lines)

/-! ## Barrier objects (spec file 11) -/

/-- R283 to R290, R272 to R277: on an aligned offset in the unit's run the barrier instructions do what their sections say: binit makes
a valid object, barr counts an arrival after its release, bexp expected bytes, bwait passes or waits, btest reports, binval ends the
object. BYTE_COUNT takes a count off the pending bytes of its phase. -/
def Obligations.Barriers : Prop :=
  (∀ a b s c, Ready s c (.binit a b) → InObject c a → (c.g.s b).toNat % 2 ^ 16 ≠ 0 → c.g.drained = true →
    s.bar? (clusterOfCore c.g.core) (c.g.s a).toNat = none →
    ∃ t g, exec (.binit a b) s = .next t ∧ t.group? c.g.core c.g.slot = some g ∧ g = movedOn c c.g ∧ t.ms.mem = s.ms.mem ∧
      t.bar? (clusterOfCore c.g.core) (c.g.s a).toNat =
        some ⟨(c.g.s b).toNat % 2 ^ 16, 0, 0, (c.g.s b).toNat / 2 ^ 16 % 2 ^ 16, 0, 0, 0, 0⟩ ∧
      ∀ n, n < (c.g.s a).toNat ∨ (c.g.s a).toNat + 32 ≤ n →
        (t.sramOf (clusterOfCore c.g.core)).read n = (s.sramOf (clusterOfCore c.g.core)).read n) ∧
  (∀ k a b s c x, Ready s c (.barr k a b) → InObject c a → MayRelease c k →
    s.bar? (clusterOfCore c.g.core) (c.g.s a).toNat = some x → Bar.ok x →
    (let q := (c.g.s b).toNat % 2 ^ 16
     (q = x.phase → x.arr0 < x.expect → ∃ t g, exec (.barr k a b) s = .next t ∧ t.group? c.g.core c.g.slot = some g ∧ Released c k g ∧
       PartialsMoved s t c.g.core k ∧ ObjectIs t (clusterOfCore c.g.core) (c.g.s a).toNat { x with arr0 := x.arr0 + 1 }) ∧
     (q = (x.phase + 1) % 2 ^ 16 → x.arr1 < x.expect → ∃ t g, exec (.barr k a b) s = .next t ∧ t.group? c.g.core c.g.slot = some g ∧
       Released c k g ∧ PartialsMoved s t c.g.core k ∧
       ObjectIs t (clusterOfCore c.g.core) (c.g.s a).toNat { x with arr1 := x.arr1 + 1 }))) ∧
  (∀ a b s c x, Ready s c (.bexp a b) → InObject c a → s.bar? (clusterOfCore c.g.core) (c.g.s a).toNat = some x → Bar.ok x →
    (let n : Nat := (c.g.s b).toNat % 2 ^ 32
     let q := (c.g.s b).toNat / 2 ^ 32 % 2 ^ 16
     n < 2 ^ 31 →
     (q = x.phase → x.pend0 + n < 2 ^ 31 → ∃ t g, exec (.bexp a b) s = .next t ∧ t.group? c.g.core c.g.slot = some g ∧ g = movedOn c c.g ∧
       t.ms.mem = s.ms.mem ∧ ObjectIs t (clusterOfCore c.g.core) (c.g.s a).toNat { x with pend0 := x.pend0 + n }) ∧
     (q = (x.phase + 1) % 2 ^ 16 → x.pend1 + n < 2 ^ 31 → ∃ t g, exec (.bexp a b) s = .next t ∧ t.group? c.g.core c.g.slot = some g ∧
       g = movedOn c c.g ∧ t.ms.mem = s.ms.mem ∧ ObjectIs t (clusterOfCore c.g.core) (c.g.s a).toNat { x with pend1 := x.pend1 + n }))) ∧
  (∀ k a b s c x, Ready s c (.bwait k a b) → InObject c a → c.waiting = false →
    s.bar? (clusterOfCore c.g.core) (c.g.s a).toNat = some x → s.unadmitted c.l.ctx c.g.unit c.g.wg
      (clusterOfCore c.g.core) (c.g.s a).toNat = none →
    (let d := (x.phase + 2 ^ 16 - (c.g.s b).toNat % 2 ^ 16) % 2 ^ 16
     (1 ≤ d → d ≤ 2 ^ 15 → c.g.watching .pending = false → c.g.acquireWaits k = false →
       ∃ t g, exec (.bwait k a b) s = .next t ∧ t.group? c.g.core c.g.slot = some g ∧
         g = movedOn c { c.g with released := false } ∧ t.ms.mem = s.ms.mem ∧ t.ms.sram = s.ms.sram) ∧
     (d = 0 ∨ d = 2 ^ 16 - 1 → ∃ t g, exec (.bwait k a b) s = .next t ∧ t.group? c.g.core c.g.slot = some g ∧
       g.st = .wait (.bar (c.g.s a).toNat ((c.g.s b).toNat % 2 ^ 16)) ∧ g.vregs = c.g.vregs ∧ g.sregs = c.g.sregs ∧ t.ms.mem = s.ms.mem ∧
       (x.waiters < 2 ^ 16 - 1 → ∃ y, t.bar? (clusterOfCore c.g.core) (c.g.s a).toNat = some y ∧
         y = { x with waiters := x.waiters + 1 })) ∧
     (∀ h, 2 ^ 15 < d → d < 2 ^ 16 - 1 → HandlerFree s c 0x10 h →
       Traps (.bwait k a b) s c { cause := 0x10, tinfo0 := (c.g.s a).toNat, tinfo1 := 7 } h))) ∧
  (∀ k a b s c, Ready s c (.bwait k a b) → InObject c a → c.waiting = true → c.g.released = true → c.g.watching .pending = false →
    c.g.acquireWaits k = false → ∃ t g, exec (.bwait k a b) s = .next t ∧ t.group? c.g.core c.g.slot = some g ∧
      g = movedOn c { c.g with released := false } ∧ t.ms.mem = s.ms.mem ∧ t.ms.sram = s.ms.sram) ∧
  (∀ d a b s c x, Ready s c (.btest d a b) → InObject c a → s.bar? (clusterOfCore c.g.core) (c.g.s a).toNat = some x →
    s.unadmitted c.l.ctx c.g.unit c.g.wg (clusterOfCore c.g.core) (c.g.s a).toNat = none →
    (let q := (c.g.s b).toNat % 2 ^ 16
     let n := (x.phase + 2 ^ 16 - q) % 2 ^ 16
     (n ≤ 2 ^ 15 ∨ n = 2 ^ 16 - 1) → Completes (.btest d a b) s c (UniformWritten c d (BitVec.ofNat 64
       ((if 1 ≤ n ∧ n ≤ 2 ^ 15 then 1 else 0) + (if q = x.phase then 2 else 0) + (if q = (x.phase + 1) % 2 ^ 16 then 4 else 0) +
         x.phase * 2 ^ 16))))) ∧
  (∀ a s c x, Ready s c (.binval a) → InObject c a → s.bar? (clusterOfCore c.g.core) (c.g.s a).toNat = some x → x.waiters = 0 →
    ∃ t g, exec (.binval a) s = .next t ∧ t.group? c.g.core c.g.slot = some g ∧ g = movedOn c c.g ∧ t.ms.mem = s.ms.mem ∧
      t.bar? (clusterOfCore c.g.core) (c.g.s a).toNat = none ∧
      (∀ n, n < 32 → (t.sramOf (clusterOfCore c.g.core)).read ((c.g.s a).toNat + n) = 0) ∧
      ∀ n, n < (c.g.s a).toNat ∨ (c.g.s a).toNat + 32 ≤ n →
        (t.sramOf (clusterOfCore c.g.core)).read n = (s.sramOf (clusterOfCore c.g.core)).read n) ∧
  (∀ s k m x, s.mgmt.devState ≠ .fatal → s.eng.counts[k]? = some m →
    (s.barLive m.bar = false → exec (.byteCount k) s = .next { s with eng := { s.eng with counts := s.eng.counts.eraseIdx k } }) ∧
    (s.barLive m.bar = true → s.bar? m.bar.cluster m.bar.offset = some x → Bar.ok x → m.bar.phase = x.phase →
      -(2 ^ 31) ≤ x.pend0 - m.n → ∃ t, exec (.byteCount k) s = .next t ∧ t.eng = { s.eng with counts := s.eng.counts.eraseIdx k } ∧
        t.ms.mem = s.ms.mem ∧ ObjectIs t m.bar.cluster m.bar.offset { x with pend0 := x.pend0 - m.n }))

namespace Sys2Proof.Claims

open Sys2Proof.Machine

/-! ## Copy engines, remote copies, matrix engine -/

/-- The block of registers of a command (R350, R416). -/
def block (c : Iss) (a : Nat) (i : Nat) : Nat := (c.g.s (a + i)).toNat

/-- The copy instructions: the first register of the block, and how many it has. -/
def copyTable : Instr → Option (Nat × Nat)
  | .cpy a => some (a, 4)
  | .cpy2 a => some (a, 6)
  | .hcpy a => some (a, 8)
  | _ => none

/-- The translations of the source and destination rows of a copy in the issuing context (R355 step 3). -/
def copyXl (c : Iss) (k : CopyAsk) : List (Nat × Xl) × List (Nat × Xl) :=
  (c.st.xlRows (dieOfCluster (clusterOfCore c.g.core)) c.l.ctx .read k.src k.geom (·.1),
   c.st.xlRows (dieOfCluster (clusterOfCore c.g.core)) c.l.ctx .write k.dst k.geom (·.2))

/-- Every translation of a list is allowed. -/
def AllOk (xs : List (Nat × Xl)) : Prop := ∀ x ∈ xs, ∃ ea l, x.2 = .ok ea l

/-- The command that an accepted copy hands to the CE of its cluster. -/
def CopyCommand (s : State) (c : Iss) (k : CopyAsk) (dg : Nat) (bar : Option BarRef) (m : CeCmd) : Prop :=
  m.id = s.eng.nextCmd ∧ m.cluster = clusterOfCore c.g.core ∧ m.ctx = c.l.ctx ∧ m.region = c.l.region ∧ m.launch = c.l.id ∧
    m.unit = c.g.unit ∧ m.core = c.g.core ∧ m.slot = c.g.slot ∧ m.inst = c.g.inst ∧ m.issued = c.g.seq ∧ m.src = k.src ∧
    m.dst = k.dst ∧ m.geom = k.geom ∧ m.bar = bar ∧ m.dstGen = dg ∧ m.stale = [] ∧ m.started = false ∧ m.paused = false ∧ m.pausedOn = none ∧ m.done = [] ∧ m.ended = false

/-- No earlier atomic of a core on n bytes of device memory waits in the core or its cluster (R237). -/
def NoPartials (s : State) (core a n : Nat) : Prop :=
  (∀ p ∈ s.ms.partials, p.core = core → overlaps a n p.pa p.n = false) ∧
  ∀ p ∈ s.ms.pendings, p.core = core → overlaps a n p.pa p.n = false

/-- Device memory with the words of a unit written at their places. -/
def wordsWritten (ps : List Place) (bs : List Byte) (m : Memory) : Memory :=
  ps.zipIdx.foldl (fun m p => match p.1 with
    | .dev a => m.writeN a ((bs.drop (4 * p.2)).take 4)
    | .peer _ _ => m
    | .host _ _ => m) m

/-- How many bytes the pieces of a unit move. -/
def unitBytes (s : State) (core : Nat) (xs : List (Piece × Side × Side)) : Nat :=
  (xs.map (fun z => (s.readSide core z.2.1 z.1.n).length)).foldl (· + ·) 0

/-- The remote instructions: the first register of the block, and whether it is rput. -/
def remoteTable : Instr → Option (Nat × Bool)
  | .rput a => some (a, true)
  | .rget a => some (a, false)
  | _ => none

/-- The access of the far and of the near side. -/
def farAccess (put : Bool) : Access := if put then .write else .read
/-- The access of the near side. -/
def nearAccess (put : Bool) : Access := if put then .read else .write

/-- The checks of R416 on the command of a block, in the model's own terms: the translations of both sides, the one peer of the far
pages, near pages of CLASS 0, the runs and the barrier. -/
structure RemoteAdmitted (c : Iss) (put : Bool) (k : RemoteAsk) (peer dg : Nat) (bar : Option BarRef) : Prop where
  aligned : k.loc.addr % 4 = 0 ∧ k.remote % 4 = 0 ∧ k.len % 4 = 0
  far : AllOk (c.cmdRange (farAccess put) (.virt k.remote) k.len)
  target : remoteTarget (c.cmdRange (farAccess put) (.virt k.remote) k.len) = some peer
  near : AllOk (c.cmdRange (nearAccess put) k.loc k.len)
  device : ∀ l ∈ leavesOf (c.cmdRange (nearAccess put) k.loc k.len), l.cls = 0
  runs : c.copyRuns (k.asCopy put) = .ok (dg, bar)
  route : peer = c.st.fab.devId ∨ k.len = 0 ∨ c.st.routeOpen (.peer peer 0) = true
  granted : put = false → c.remoteRefused (c.cmdRange (farAccess put) (.virt k.remote) k.len) k.len = none

/-- The workgroup of the issuing group. -/
def wgOf (s : State) (c : Iss) : Option Workgroup := s.wg? c.g.unit c.g.wg

/-- An instruction on the workgroup's slots or handles that completes: the group moves on as `g`, the workgroup is `w`, started. -/
def CompletesWg (i : Instr) (s : State) (c : Iss) (g : Group) (w : Workgroup) : Prop :=
  ∃ t, exec i s = .next t ∧ t.group? c.g.core c.g.slot = some (movedOn c g) ∧ wgOf t c = some { w with started := true } ∧
    t.ms = s.ms ∧ t.eng = s.eng ∧ t.fab = s.fab ∧ t.mgmt = s.mgmt ∧ t.cur = none ∧
    ∀ k j, ¬(k = c.g.core ∧ j = c.g.slot) → t.group? k j = s.group? k j

/-- The group with an operation more in the ME queue, of the open batch (R364). -/
def queued (c : Iss) (w : Workgroup) (x : MeWork) : Group :=
  { c.g with meq := c.g.meq ++ [{ seq := c.g.seq, batch := c.g.batch.toNat + 1, work := x, tags := w.tags x }], seq := c.g.seq + 1 }

/-- R370, R372, R375 to R380, R384, R385: the batched instructions without memory: what they ask of the engine, and what must hold:
slots and handle held, full convergence and C inside the handle's banks for products, and for mmas a well-formed sparse slot. -/
def meTable (c : Iss) (w : Workgroup) : Instr → Option (MeWork × Prop)
  | .tzero n => some (.tzero n, holdsTile w n)
  | .abzero n => some (.abzero n, holdsHandle w n)
  | .mma sh a b n t => some (.mma n a b sh t false false 1, product w sh a [b.val] n t 1)
  | .mmaZ sh a b n t => some (.mma n a b sh t true false 1, product w sh a [b.val] n t 1)
  | .mmas sh a b n t => some (.mma n a b sh t false true 1, product w sh a [b.val] n t 1 ∧ sparse w sh a t)
  | .mmasZ sh a b n t => some (.mma n a b sh t true true 1, product w sh a [b.val] n t 1 ∧ sparse w sh a t)
  | .mmaMb sh a b n t => some (.mma n a b sh t false false c.g.members, b.val + c.g.members ≤ 16 ∧
      product w sh a ((List.range c.g.members).map (b.val + ·)) n t c.g.members)
  | .mmaMbZ sh a b n t => some (.mma n a b sh t true false c.g.members, b.val + c.g.members ≤ 16 ∧
      product w sh a ((List.range c.g.members).map (b.val + ·)) n t c.g.members)
  | .mred sh a n t => some (.mred n a (4 * sh.val) t, product w (4 * sh.val) a [] n t 1)
  | .xinit n k => some (.xinit n k, holdsHandle w n)
  | .xaddF64 v n k => some (.xadd n k true (c.elems.map (fun e => (c.g.v64 v e).toNat)), holdsHandle w n)
  | .xaddF32 v n k => some (.xadd n k false (c.elems.map (fun e => (c.g.v v e).toNat)), holdsHandle w n)
  | .xaddpF32 a n k b => some (.xaddp n k (c.elems.map (fun e => ((c.g.v a e).toNat, (c.g.v b e).toNat))), holdsHandle w n)
  | .xmerge n k m j => some (.xmerge n k m j, holdsHandle w n ∧ holdsHandle w m)
  | .xroundF64 r d n k => some (.xround d n k true r c.mask, holdsHandle w n)
  | .xroundF32 r d n k => some (.xround d n k false r c.mask, holdsHandle w n)
  | _ => none
where
  holdsTile (w : Workgroup) (n : Nat) : Prop := (w.tile? n).isSome = true
  holdsHandle (w : Workgroup) (n : Nat) : Prop := (w.handle? n).isSome = true
  product (w : Workgroup) (sh a : Nat) (bs : List Nat) (n t m : Nat) : Prop :=
    c.converged = true ∧ holdsTile w a ∧ (∀ b ∈ bs, holdsTile w b) ∧
      ∃ h, w.handle? n = some h ∧ 64 * meW t * shapeM sh * m ≤ 2048 * h.banks.length
  sparse (w : Workgroup) (sh a t : Nat) : Prop :=
    (∀ m ∈ c.g.meq, a ∉ m.work.tiles) ∧ ∃ x, w.tile? a = some x ∧ swizzleOk (t == 7) x.bytes (shapeM sh) = true

/-- The rows of an ME access that pass translation and permission, on unchecked pages with open routes. -/
structure MeAdmitted (c : Iss) (a : Access) (member : Nat) (rows : List (Nat × Nat)) (ps : List (List Placed)) : Prop where
  placed : c.placeRows a member rows = .ok ps
  plain : ∀ p ∈ ps.flatten, p.leaf.checked = false ∧ c.st.routeOpen p.place = true

/-- Placed rows in device memory whose bytes the group may read now: nothing earlier of the group waits on them, no host holds them, none is
poisoned. -/
def DeviceReadable (s : State) (c : Iss) (ps : List (List Placed)) : Prop :=
  ∀ p ∈ ps.flatten, (∃ pa, p.place = .dev pa) ∧ c.g.mayRead c.g.seq p.place p.width = true ∧ s.placeGate p.place p.width = none ∧
    s.poisonAt p.place p.width = false

/-- The chunks of placed rows. -/
def chunks (ps : List (List Placed)) : List (List Chunk) := ps.map (fun r => r.map Placed.chunk)

/-- The batched instructions with memory: access, member, rows (address and bytes), what else must hold, and the work for placed
rows (R373, R374, R382, R383, R386). -/
def meMemTable (c : Iss) (w : Workgroup) : Instr → Option (Access × Nat × List (Nat × Nat) × (List (List Placed) → Prop) ×
    (List (List Placed) → MeWork))
  | .tld n a k =>
    let cw := (c.g.s k).toNat
    let rb := cw / 2 ^ 16 % 512
    some (.read, cw / 2 ^ 25 % 8, (List.range (cw / 2 ^ 8 % 128 + 1)).map (fun r => (((c.g.s a).toNat + r * (cw / 2 ^ 32)) % 2 ^ 64, rb)),
      fun ps => tldIllegal cw c.g.members = false ∧ (w.tile? n).isSome = true ∧ (c.g.s a).toNat % 4 = 0 ∧
        (cw.testBit 28 = true → scalesCheck rb ps = none),
      fun ps => .tld n (cw % 128) (chunks ps) (if cw.testBit 28 then ps.map (fun r => (rowScales r).map (fun x =>
        (x.1, ({ place := x.2.1, n := 2, cache := false, got := none } : Chunk)))) else []))
  | .acld a k n => some (bank .read a k n (.acld n))
  | .acst a k n => some (bank .write a k n (.acst n))
  | .xld n k a => some (.read, 0, [((c.g.s a).toNat, 288)], fun ps => (w.handle? n).isSome = true ∧ (c.g.s a).toNat % 32 = 0 ∧
      xaPages .read ps = none, fun ps => .xld n k (ps.flatten.map Placed.chunk))
  | .xst n k a => some (.write, 0, [((c.g.s a).toNat, 288)], fun ps => (w.handle? n).isSome = true ∧ (c.g.s a).toNat % 32 = 0 ∧
      xaPages .write ps = none, fun ps => .xst n k (ps.flatten.map Placed.chunk))
  | _ => none
where
  bank (x : Access) (a k : Fin 64) (n : Fin 16) (work : Nat → List (List Chunk) → MeWork) :
      Access × Nat × List (Nat × Nat) × (List (List Placed) → Prop) × (List (List Placed) → MeWork) :=
    let rw := (c.g.s k).toNat
    (x, rw / 2 ^ 24 % 8, (List.range (rw / 2 ^ 12 % 4096 + 1)).map (fun r => (((c.g.s a).toNat + r * (rw / 2 ^ 32)) % 2 ^ 64, 256)),
      (fun ps => rw / 2 ^ 27 % 32 = 0 ∧ rw / 2 ^ 24 % 8 < c.g.members ∧ rw % 4096 < 2048 ∧ rw / 2 ^ 12 % 4096 < 2048 ∧
        (∃ h, w.handle? n = some h ∧ rw % 4096 + (rw / 2 ^ 12 % 4096 + 1) ≤ 8 * h.banks.length) ∧
        (c.g.s a).toNat % 16 = 0 ∧ rw / 2 ^ 32 % 16 = 0 ∧ ∀ p ∈ ps.flatten, p.leaf.format = true → p.leaf.fmt ≤ 1),
      fun ps => work (rw % 4096) (chunks ps))

end Sys2Proof.Claims

/-! ## Copy engines (spec files 10 and 14) -/

/-- R350, R355, R358: a copy with values in range, aligned, translated, its runs live and a free place in the CE's queue completes: the
command goes last into the CE's queue, CPROG counts it. Values out of range raise ILLEGAL_OPERAND naming field 18. -/
def Obligations.CopyIssue : Prop :=
  ∀ i a n s c, copyTable i = some (a, n) → Ready s c i →
    (∀ k dg bar, copyAsk (clusterOfCore c.g.core) n (block c a) = some k → (∀ v ∈ k.aligned, v % 4 = 0) → AllOk (copyXl c k).1 →
      AllOk (copyXl c k).2 → c.copyRuns k = .ok (dg, bar) →
      (s.eng.ceCmds.filter (fun m => m.cluster == clusterOfCore c.g.core && !m.paused)).length < 64 →
      ∃ m, CopyCommand s c k dg bar m ∧
        CompletesIn i s c { s with eng := { s.eng with nextCmd := s.eng.nextCmd + 1, ceCmds := s.eng.ceCmds ++ [m] } } (fun g =>
          g = movedOn c { c.g with seq := c.g.seq + 1, cprog := c.g.cprog + 1 })) ∧
    (∀ h, copyAsk (clusterOfCore c.g.core) n (block c a) = none → HandlerFree s c 0x02 h →
      Traps i s c { cause := 0x02, tinfo0 := c.raw.toNat, field := some 18 } h)

/-- R356, R357, R358, R277, R153: the oldest commands of a CE start, 8 at once. A unit whose way is clear is written, all its pieces in
one step, with the source's bytes and counted once into its barrier phase; one toward a link that is DOWN is neither written nor
counted, and one that a peer refuses ends its command. A translation that fails with V = 0 pauses the command on a fault entry, any
other ends it; a command with every unit written and no count under way completes and leaves CPROG. -/
def Obligations.CopyProgress : Prop :=
  (∀ s cmd k, s.mgmt.devState ≠ .fatal → s.ceCmd? cmd = some k → k.started = false → k.paused = false →
    (∀ m ∈ s.eng.ceCmds, m.cluster = k.cluster → m.paused = false → m.started = false → k.id ≤ m.id) →
    (s.eng.ceCmds.filter (fun m => m.cluster == k.cluster && !m.paused && m.started)).length < 8 →
    ∃ t, exec (.ceCommandStart cmd) s = .next t ∧ t.ceCmd? cmd = some { k with started := true } ∧ t.ms = s.ms ∧ t.sched = s.sched) ∧
  (∀ s cmd row part k ps xs, s.mgmt.devState ≠ .fatal → s.ceUnit cmd row part = some (k, ps) → k.unitSides s ps = .ok xs →
    issuerClear (s.issuer k.core k.slot k.unit k.inst) k.issued (xs.flatMap (fun x => x.2.1.places) ++ xs.flatMap (fun x => x.2.2.places)) 4
      = true →
    (s.way (xs.flatMap (fun x => x.2.1.places)) (xs.flatMap (fun x => x.2.2.places)) 4 = .go →
      ∃ t m, exec (.ceUnitWrite cmd row part) s = .next t ∧ t.ceCmd? cmd = some m ∧
        m.done = k.done ++ ps.map (fun q => (q.row, q.part)) ∧ m.ended = false ∧ t.sched = s.sched ∧
        ((∀ z ∈ xs, ∃ qs, z.2.2 = .mem qs) → unitBytes s k.core xs ≠ 0 → t.eng.counts = s.eng.counts ++
          (k.bar.map (fun b => (⟨k.id, some k.unit, b, unitBytes s k.core xs⟩ : CountMsg))).toList) ∧
        (∀ z pa qs, xs = [z] → z.2.2 = .mem (.dev pa :: qs) → NoPartials s k.core pa (s.readSide k.core z.2.1 z.1.n).length →
          t.ms.mem = s.ms.mem.writeN pa (s.readSide k.core z.2.1 z.1.n)) ∧
        (∀ z cl off, xs = [z] → z.2.2 = .sram cl off → s.runLive cl off k.dstGen = true →
          s.barrierTouched cl off (s.readSide k.core z.2.1 z.1.n).length = none → s.readSide k.core z.2.1 z.1.n ≠ [] →
          t.sramOf cl = (s.sramOf cl).writeN off (s.readSide k.core z.2.1 z.1.n) ∧ t.ms.mem = s.ms.mem ∧
          t.eng.counts = s.eng.counts ++ (k.bar.map (fun b =>
            (⟨k.id, some k.unit, b, (s.readSide k.core z.2.1 z.1.n).length⟩ : CountMsg))).toList) ∧
        (∀ z cl off, xs = [z] → z.2.2 = .sram cl off → s.runLive cl off k.dstGen = false → t.ms = s.ms ∧
          t.eng.counts = s.eng.counts)) ∧
    (∀ p, s.way (xs.flatMap (fun x => x.2.1.places)) (xs.flatMap (fun x => x.2.2.places)) 4 = .lost p →
      ∃ t m, exec (.ceUnitWrite cmd row part) s = .next t ∧ t.ceCmd? cmd = some m ∧
        m.done = k.done ++ ps.map (fun q => (q.row, q.part)) ∧ m.ended = false ∧ t.ms = s.ms ∧ t.eng.counts = s.eng.counts) ∧
    (∀ p, s.way (xs.flatMap (fun x => x.2.1.places)) (xs.flatMap (fun x => x.2.2.places)) 4 = .refused p →
      ∃ t, exec (.ceUnitWrite cmd row part) s = .next t ∧ t.ceCmd? cmd = some { k with ended := true } ∧ t.ms = s.ms ∧
        t.eng.counts = s.eng.counts)) ∧
  (∀ s cmd row part k ps f ea lv a, s.mgmt.devState ≠ .fatal → s.ceUnit cmd row part = some (k, ps) →
    k.unitSides s ps = .error (f, ea, lv, a) →
    (f ≠ .absent → f ≠ .held → ∃ t, exec (.cePageFault cmd row part) s = .next t ∧ t.ceCmd? cmd = some { k with ended := true } ∧
      t.ms = s.ms) ∧
    (f = .absent → (∃ j, j < 512 ∧ (s.pfe (baseOfDie (dieOfCluster k.cluster)) j).pending = false) →
      ∃ t tok, exec (.cePageFault cmd row part) s = .next t ∧ t.ceCmd? cmd = some { k with pausedOn := some tok } ∧
        t.eng.counts = s.eng.counts)) ∧
  (∀ s cmd k, s.mgmt.devState ≠ .fatal → s.ceCmd? cmd = some k → k.started = true → k.paused = false →
    k.ended = true ∨ k.allWritten s = true → (∀ m ∈ s.eng.counts, m.src ≠ k.id) →
    ∃ t, exec (.ceCommandComplete cmd) s = .next t ∧ t.ceCmd? cmd = none ∧ t.ms = s.ms ∧
      ∀ g, s.issuer k.core k.slot k.unit k.inst = some g → t.group? k.core k.slot =
        some (if g.cprog.toNat % 2 ^ 16 = 0 then g else { g with cprog := g.cprog - 1 }))

/-- R415, R416, R401, R263: rput and rget whose command passes its checks complete with a place in the FE's queue; one of no bytes is
complete at once. A unit applied here is written and counted. A unit of an rput whose issuer still runs its kernel is sent to the peer
as one of its posted writes; one that the peer refuses is neither sent nor counted, and the issuer owes it to its next fence. A
translation that fails with V = 0 pauses the command on a fault entry, any other ends it. -/
def Obligations.RemoteCopies : Prop :=
  (∀ i a put s c k peer dg bar, remoteTable i = some (a, put) → Ready s c i →
    remoteAsk (clusterOfCore c.g.core) (block c a) = some k → RemoteAdmitted c put k peer dg bar → s.eng.feCmds.length < 256 →
    (k.len = 0 → Completes i s c (fun g => g = movedOn c { c.g with seq := c.g.seq + 1 })) ∧
    (k.len ≠ 0 → ∃ m, m.id = s.eng.nextCmd ∧ m.put = put ∧ m.loc = k.loc ∧ m.remote = k.remote ∧ m.peer = peer ∧ m.len = k.len ∧
      m.bar = bar ∧ m.dstGen = dg ∧ m.unit = c.g.unit ∧ m.core = c.g.core ∧ m.slot = c.g.slot ∧ m.inst = c.g.inst ∧ m.done = [] ∧
      m.ended = false ∧ m.pausedOn = none ∧ m.stale = [] ∧
      CompletesIn i s c { s with eng := { s.eng with nextCmd := s.eng.nextCmd + 1, feCmds := s.eng.feCmds ++ [m] } } (fun g =>
        g = movedOn c { c.g with seq := c.g.seq + 1 }))) ∧
  (∀ s cmd part k o n x y, s.mgmt.devState ≠ .fatal → (∀ m ∈ s.eng.feCmds, m.id = cmd → m.ended = false) →
    s.feUnit cmd part = some (k, o, n) → k.sides s o n = .ok (x, y) →
    issuerClear (s.issuer k.core k.slot k.unit k.inst) k.issued (x.places ++ y.places) 4 = true →
    (∀ ps, s.way x.places y.places 4 = .go → y = .mem ps →
      (∀ p ∈ ps, ∃ a, p = .dev a ∧ NoPartials s k.core a 4) → ∃ t, exec (.feUnitDeliver cmd part .done) s = .next t ∧ t.sched = s.sched ∧
        t.ms.mem = wordsWritten ps (s.readSide k.core x n) s.ms.mem ∧ t.ms.peerMem = s.ms.peerMem ∧
        t.eng.counts = s.eng.counts ++ (k.bar.map (fun b => (⟨k.id, some k.unit, b, n⟩ : CountMsg))).toList ∧
        (∀ m ∈ t.eng.feCmds, m.id = cmd → part ∈ m.done)) ∧
    (∀ p ps g l, s.way x.places y.places 4 = .go → k.put = true → s.issuer k.core k.slot k.unit k.inst = some g → y = .mem (p :: ps) →
      p.remote = true → s.placeLink p = some l → s.linkCarries l = true → s.retryFull l = false →
      s.otherLink (dieOfCore g.core) p l = false →
      ∃ t h, exec (.feUnitDeliver cmd part .done) s = .next t ∧ t.group? k.core k.slot = some h ∧
        h = { g with sent := g.sent ++ [{ elem := none, place := p, rest := none, bytes := s.readSide k.core x n, red := none, link := l,
                                          flit := s.nextFlit l, cmd := some k.id }] } ∧
        t.ms = { s.ms with peerCopies := t.ms.peerCopies } ∧ t.eng.counts = s.eng.counts ∧
        (∀ m ∈ t.eng.feCmds, m.id = cmd → part ∈ m.done)) ∧
    (∀ p, s.way x.places y.places 4 = .refused p → ∃ t, exec (.feUnitDeliver cmd part .refused) s = .next t ∧ t.ms = s.ms ∧
      t.eng.counts = s.eng.counts ∧ ∀ g, k.put = true → s.issuer k.core k.slot k.unit k.inst = some g →
        ∃ h, t.group? k.core k.slot = some h ∧ h = { g with lost := g.lost ++ [k.peer] })) ∧
  (∀ s cmd part k o n f ea lv a, s.mgmt.devState ≠ .fatal → s.feUnit cmd part = some (k, o, n) →
    k.sides s o n = .error (f, ea, lv, a) →
    (f ≠ .absent → f ≠ .held → ∃ t, exec (.feTransferFault cmd part) s = .next t ∧ t.ms = s.ms ∧ ∀ m ∈ t.eng.feCmds, m.id = cmd →
      s.unitsSent cmd = true ∧ m = { k with ended := true }) ∧
    (f = .absent → (∃ j, j < 512 ∧ (s.pfe (baseOfDie (dieOfCluster k.cluster)) j).pending = false) →
      ∃ t tok, exec (.feTransferFault cmd part) s = .next t ∧ t.eng.counts = s.eng.counts ∧
        ∀ m ∈ t.eng.feCmds, m.id = cmd → m = { k with pausedOn := some tok }))

/-! ## The matrix engine (spec file 15) -/

/-- R359, R361, R371, R372: tclaim and aballoc give the workgroup a slot or handle that reads zero, the lowest free ones of its
reservation; trel and abfree by the owner give it back once no operation of the workgroup on it is under way, and wait until then. -/
def Obligations.TileAndHandle : Prop :=
  (∀ n s c w p ps, (Instr.tclaim n).WellFormed → Ready s c (.tclaim n) → wgOf s c = some w → w.tile? n = none →
    w.tiles.length < c.u.kd.tiles → w.tileRes.filter (fun x => !(w.tiles.map (·.phys)).contains x) = p :: ps →
    ∃ t, CompletesWg (.tclaim n) s c c.g { w with tiles := w.tiles ++ [t] } ∧ t.name = n ∧ t.owner = c.g.gi ∧ t.phys = p ∧ t.bytes = []) ∧
  (∀ n b s c w, (Instr.aballoc n b).WellFormed → Ready s c (.aballoc n b) → wgOf s c = some w → w.handle? n = none →
    1 ≤ (c.g.s b).toNat → (c.g.s b).toNat ≤ 256 →
    (c.g.s b).toNat ≤ (w.bankRes.filter (fun x => !(w.handles.flatMap (·.banks)).contains x)).length →
    ∃ h, CompletesWg (.aballoc n b) s c c.g { w with handles := w.handles ++ [h] } ∧ h.name = n ∧ h.owner = c.g.gi ∧ h.bytes = [] ∧
      h.banks = (w.bankRes.filter (fun x => !(w.handles.flatMap (·.banks)).contains x)).take (c.g.s b).toNat) ∧
  (∀ n s c w t, (Instr.trel n).WellFormed → Ready s c (.trel n) → wgOf s c = some w → w.tile? n = some t → t.owner = c.g.gi →
    (c.wgPending (fun x => x.tiles.contains n.val) = false →
      CompletesWg (.trel n) s c c.g { w with tiles := w.tiles.filter (fun u => u.name != n.val) }) ∧
    (c.wgPending (fun x => x.tiles.contains n.val) = true → Waits (.trel n) s c .fence c.g)) ∧
  (∀ n s c w h, (Instr.abfree n).WellFormed → Ready s c (.abfree n) → wgOf s c = some w → w.handle? n = some h → h.owner = c.g.gi →
    (c.wgPending (fun x => x.handles.contains n.val) = false →
      CompletesWg (.abfree n) s c c.g { w with handles := w.handles.filter (fun u => u.name != n.val) }) ∧
    (c.wgPending (fun x => x.handles.contains n.val) = true → Waits (.abfree n) s c .fence c.g)) ∧
  (∀ i n s c w h reason, wgOf s c = some w → Ready s c i → HandlerFree s c 0x12 h →
    (i = .tclaim n ∧ (w.tile? n).isSome = true ∧ reason = 2) ∨ (i = .trel n ∧ w.tile? n = none ∧ reason = 1) →
    Traps i s c { cause := 0x12, tinfo0 := c.raw.toNat, tinfo1 := n, tinfo2 := reason } h)

/-- R364, R365, R367, R370, R381: while the core's ME queue holds fewer than 128 operations, a batched instruction whose slots, handles
and memory pass their checks completes: the operation joins the open batch. mfence ends the batch and returns its number; mwait
for a batch with no operation under way completes, and waits otherwise. -/
def Obligations.MatrixIssue : Prop :=
  (∀ i s c w x p, i.WellFormed → Ready s c i → wgOf s c = some w → s.meCount c.g.core < 128 → meTable c w i = some (x, p) → p →
    CompletesWg i s c (queued c w x) w) ∧
  (∀ i s c w a member rows p work ps, i.WellFormed → Ready s c i → wgOf s c = some w → s.meCount c.g.core < 128 →
    meMemTable c w i = some (a, member, rows, p, work) → MeAdmitted c a member rows ps → p ps →
    ∃ s', TlbOnly s s' ∧ CompletesIn i s c s' (fun g => g = movedOn c (queued c w (work ps)))) ∧
  (∀ d s c, Ready s c (.mfence d) → Completes (.mfence d) s c (fun g => g = { movedOn c c.g with sregs := g.sregs, batch := c.g.batch + 1 } ∧
    ∀ r, g.s r = if r = d.val ∧ r < c.g.sregs.length then c.g.batch + 1 else c.g.s r)) ∧
  (∀ a s c, Ready s c (.mwait a) → (c.g.s a).toNat ≤ c.g.batch.toNat + 1 →
    (let g := if (c.g.s a).toNat = c.g.batch.toNat + 1 then { c.g with batch := c.g.batch + 1 } else c.g
     ((∀ m ∈ c.g.meq, (c.g.s a).toNat < m.batch) → Completes (.mwait a) s c (fun n => n = movedOn c g)) ∧
     ((∃ m ∈ c.g.meq, m.batch ≤ (c.g.s a).toNat) → Waits (.mwait a) s c (.batch (c.g.s a).toNat) g)))

/-- R364 to R366, R375, R376, R153: BATCH_COMPLETE applies an operation that no earlier one of its group meets and takes it out of the
queue; one whose slots or handles have been given back since is discarded. A product changes each C element of its shape to
accumulate of the row of its left and of its right slot; xround rounds the exact
sum into its register; tld moves its rows into its slot. -/
def Obligations.BatchCompletes : Prop :=
  (∀ s core slot k g m w, s.mgmt.devState ≠ .fatal → s.group? core slot = some g → g.saved = none → g.meq[k]? = some m →
    (∀ e ∈ g.meq.take k, e.work.meets m.work = false) → m.work.accesses = false → s.wg? g.home g.wg = some w →
    (∀ d a k wide mode mask, m.work ≠ .xround d a k wide mode mask) →
    ∃ t, exec (.batchComplete core slot k) s = .next t ∧ t.group? core slot = some { g with meq := g.meq.filter (fun e => e.seq != m.seq) } ∧
      t.ms = s.ms ∧ t.eng = s.eng ∧ t.wg? g.home g.wg = some (if w.tags m.work = m.tags then w.apply m.work else w)) ∧
  (∀ s core slot k g m w d a j wide mode mask o, s.mgmt.devState ≠ .fatal → s.group? core slot = some g → g.saved = none →
    g.meq[k]? = some m → (∀ e ∈ g.meq.take k, e.work.meets m.work = false) → m.work = .xround d a j wide mode mask →
    s.wg? g.home g.wg = some w → w.tags m.work = m.tags → w.handle? a = some o →
    (let r := xaRound (if wide then fmtF64 else fmtF32) (Fin.ofNat 4 mode) (o.xa j)
     ∃ t h, exec (.batchComplete core slot k) s = .next t ∧ t.group? core slot = some h ∧ t.ms = s.ms ∧
      h = { g with meq := g.meq.filter (fun e => e.seq != m.seq), vregs := h.vregs, flags := g.flags ||| r.2 } ∧
      ∀ q e, h.v q e = if q = d ∧ mask.getLsbD e = true ∧ Holds g q e then BitVec.ofNat 32 r.1
        else if wide = true ∧ q = d + 1 ∧ mask.getLsbD e = true ∧ Holds g q e then BitVec.ofNat 32 (r.1 / 2 ^ 32) else g.v q e)) ∧
  (∀ s core slot k g m w n first rows x, s.mgmt.devState ≠ .fatal → s.group? core slot = some g → g.saved = none →
    g.meq[k]? = some m → (∀ e ∈ g.meq.take k, e.work.meets m.work = false) → m.work = .tld n first rows [] →
    s.wg? g.home g.wg = some w → w.tags m.work = m.tags → w.tile? n = some x →
    (∀ z ∈ rows.flatten, z.place.remote = false ∧ z.got = none ∧ g.mayRead m.seq z.place z.n = true ∧ s.placeGate z.place z.n = none ∧
      s.poisonAt z.place z.n = false) →
    ∃ t, exec (.batchComplete core slot k) s = .next t ∧ t.group? core slot = some { g with meq := g.meq.filter (fun e => e.seq != m.seq) } ∧
      t.ms.mem = s.ms.mem ∧ t.wg? g.home g.wg = some (w.putTile { x with
        bytes := (rows.map (s.readChunks g m.seq)).zipIdx.foldl (fun b r => b.writeN (256 * (first + r.2)) r.1) x.bytes })) ∧
  (∀ (w : Workgroup) (a ta tb sh t : Nat) (z : Bool) (h : Handle) (x y : TileSlot), w.handle? a = some h → w.tile? ta = some x →
    w.tile? tb = some y → ∃ h', (w.apply (.mma a ta tb sh t z false 1)).handle? a = some h' ∧
      h'.banks = h.banks ∧ h'.owner = h.owner ∧
      (∀ i j, i < shapeM sh → j < shapeN sh → h'.bytes.readLE (64 * meW t * i + meW t * j) (meW t) =
        accumulate t (if z then 0 else h.bytes.readLE (64 * meW t * i + meW t * j) (meW t)) (denseRow t (meK t) x.bytes i)
          (denseRow t (meK t) y.bytes j) % 2 ^ (8 * meW t)) ∧
      (∀ b, (∀ i j, i < shapeM sh → j < shapeN sh → b < 64 * meW t * i + meW t * j ∨ 64 * meW t * i + meW t * j + meW t ≤ b) →
        h'.bytes.read b = h.bytes.read b))

/-- R387, R386, R57: xpack with no operation of its group on the handle under way, on writable unchecked device pages, completes: the
CXF image of the exact sum lies at its address and no other byte of device memory changes. xunpack of a well-formed CXF completes
and the handle's slot holds the number read. -/
def Obligations.PackAndUnpack : Prop :=
  (∀ n k a s c w h ps, (Instr.xpack n k a).WellFormed → Ready s c (.xpack n k a) → wgOf s c = some w → w.handle? n = some h →
    (c.g.s a).toNat % 16 = 0 → (∀ m ∈ c.g.meq, n.val ∉ m.work.handles) →
    MeAdmitted c .write 0 [((c.g.s a).toNat, (cxfBytes (h.xa k)).length)] ps → xaPages .write ps = none →
    (∀ p ∈ ps.flatten, ∃ pa, p.place = .dev pa) → s.clearWrite c.g c.g.seq (ps.flatten.map Placed.chunk) = true →
    (∀ p ∈ ps.flatten, s.placeGate p.place p.width = none) →
    ∃ t g, exec (.xpack n k a) s = .next t ∧ t.group? c.g.core c.g.slot = some g ∧ g = movedOn c { c.g with seq := c.g.seq + 1 } ∧
      t.ms.mem = (unitWrites (ps.flatten.map Placed.chunk) (cxfBytes (h.xa k))).foldl (fun m x => match x.place with
        | .dev b => m.writeN b x.bytes
        | .peer _ _ => m
        | .host _ _ => m) s.ms.mem ∧ t.eng = s.eng ∧ t.fab = s.fab ∧ t.mgmt = s.mgmt) ∧
  (∀ n k a s c w h, (Instr.xpack n k a).WellFormed → Ready s c (.xpack n k a) → wgOf s c = some w → w.handle? n = some h →
    (c.g.s a).toNat % 16 = 0 → (∃ m ∈ c.g.meq, n.val ∈ m.work.handles) → Waits (.xpack n k a) s c (.pack n) c.g) ∧
  (∀ n k a s c w h hs ps x hb u, (Instr.xunpack n k a).WellFormed → Ready s c (.xunpack n k a) → wgOf s c = some w → w.handle? n = some h →
    (c.g.s a).toNat % 16 = 0 → (∀ m ∈ c.g.meq, n.val ∉ m.work.handles) → MeAdmitted c .read 0 [((c.g.s a).toNat, 16)] hs →
    xaPages .read hs = none → DeviceReadable s c hs → hb = s.readChunks c.g c.g.seq (hs.flatten.map Placed.chunk) →
    cxfMalformed (leNat (hb.take 8)) (leNat (hb.drop 8)) = false →
    u = (c.fillAll s [(c.g.s a).toNat]).touchChunks c.g.core (hs.flatten.map Placed.chunk) →
    MeAdmitted { c with st := u } .read 0 [((c.g.s a).toNat, 16 + 8 * (cxfLimbs (leNat (hb.take 8))).length)] ps →
    xaPages .read ps = none → DeviceReadable u c ps → cxfRead (u.readChunks c.g c.g.seq (ps.flatten.map Placed.chunk)) = some x →
    ∃ t g, exec (.xunpack n k a) s = .next t ∧ t.group? c.g.core c.g.slot = some g ∧ g = movedOn c { c.g with seq := c.g.seq + 1 } ∧
      t.ms.mem = s.ms.mem ∧ t.eng = s.eng ∧ wgOf t c = some { w.putHandle (h.setXa k x) with started := true })

namespace Sys2Proof.Claims

open Sys2Proof.Machine

/-! ## Translation instructions, collectives -/

/-- The result of a release at a scope followed by the write of a number to s[d]: the group as R250 leaves it, with that register. -/
def ReleasedWith (c : Iss) (k d x : Nat) (g : Group) : Prop :=
  ∃ h, Released c k h ∧ g = { h with sregs := g.sregs } ∧
    ∀ r, g.s r = if r = d ∧ r < c.g.sregs.length then BitVec.ofNat 64 x else c.g.s r

/-- The instruction releases at device scope and returns a number in s[d]; the engines stay as they are. -/
def Answers (i : Instr) (s : State) (c : Iss) (d x : Nat) : Prop :=
  ∃ t g, exec i s = .next t ∧ t.group? c.g.core c.g.slot = some g ∧ ReleasedWith c 6 d x g ∧ PartialsMoved s t c.g.core 6 ∧
    t.eng = s.eng

/-- Bytes that an instruction reads at its issue, as ld would, from device pages on which nothing holds it up. -/
structure Reads (k : Iss) (va n : Nat) (ps : List (List Placed)) (bs : List Byte) : Prop where
  placed : k.placeRows .read 0 [(va, n)] = .ok ps
  device : ∀ p ∈ ps.flatten, ∃ pa, p.place = .dev pa
  performed : ∀ p ∈ ps.flatten, k.g.mayRead k.g.seq p.place p.width = true
  ungated : ∀ p ∈ ps.flatten, k.st.placeGate p.place p.width = none
  sound : ∀ p ∈ ps.flatten, k.st.poisonAt p.place p.width = false
  bytes : bs = k.st.readChunks k.g k.g.seq (ps.flatten.map Placed.chunk)

/-- The instruction after such a read: caches hold what it touched. -/
def readAfter (k : Iss) (va : Nat) (ps : List (List Placed)) : Iss :=
  { k with st := (k.fillAll k.st [va]).touchChunks k.g.core (ps.flatten.map Placed.chunk) }

/-- A ring list that R417 answers with 3; an empty route to the device itself does not count (log 33). -/
def BadRing (s : State) (d : CttDesc) (ring : List Nat) : Prop :=
  ring[d.myrank]? ≠ some s.fab.devId ∨ ¬ ring.Nodup ∨ ∃ i ∈ ring, i ≠ s.fab.devId ∧ lookupD 0 s.fab.routes i = 0

/-- An entry as R403 arms it. -/
structure ArmedAs (s : State) (c : Iss) (i : Nat) (d : CttDesc) (ring : List Nat) (e : CttEntry) : Prop where
  place : e.index = i ∧ e.ctx = c.l.ctx ∧ e.region = c.l.region ∧ e.launch = c.l.id ∧ e.cluster = clusterOfCore c.g.core
  state : e.st = .armed ∧ e.err = 0 ∧ e.delivBytes = 0
  contents : e.desc = d ∧ e.ring = ring ∧ e.fireVal = d.fireVal
  fresh : e.gen = s.eng.nextCmd

/-- An entry that fails: the error is set, ABORT goes to a ring neighbour, no count of it is under way any longer (R403, R412). -/
structure FailedWith (s t : State) (e : CttEntry) (err : Nat) : Prop where
  entry : t.ctt? e.index = some { e with st := .failed, err := err, pausedOn := none, failed := false,
                                         sent := if e.alone then e.sent else e.sent ++ [.abort] }
  counts : ∀ m ∈ t.eng.counts, m.src ≠ e.gen
  memory : t.ms = s.ms
  rest : t.sched = s.sched

/-- No translation of a context in a range of addresses is held. -/
def NoneHeld (t : State) (ctx lo hi : Nat) : Prop :=
  ∀ l ∈ t.heldLeaves, l.ctx = ctx → hi ≤ l.base ∨ l.base + l.bytes ≤ lo

/-- The attributes of a leaf in the status word of xlate (R214). -/
def xlateAttr (l : Leaf) : Nat :=
  field l.w0 2 9 * 2 ^ 7 + field l.w1 0 5 * 2 ^ 16 + field l.w1 6 6 * 2 ^ 21 + field l.w0 12 4 * 2 ^ 27

/-- The status word of xlate (R214). -/
def xlateWord (w : Walk) (a : Access) : Nat :=
  match w with
  | .leaf l n => if l.permits a then 1 + l.level * 16 + xlateAttr l else 4 + n * 16 + xlateAttr l
  | .absent n => 2 + n * 16
  | .malformed n => 6 + n * 16
  | .noncanonical => 8
  | .held _ => 0

/-- The physical address that xlate returns (R214). -/
def xlatePhysical (w : Walk) (a : Access) (va : Nat) : Word64 :=
  match w with
  | .leaf l _ => if l.permits a then BitVec.ofNat 64 ((l.frame + (va - l.base)) % 2 ^ 52) else BitVec.allOnes 64
  | .absent _ => BitVec.allOnes 64
  | .malformed _ => BitVec.allOnes 64
  | .noncanonical => BitVec.allOnes 64
  | .held _ => BitVec.allOnes 64

/-- No translation is held that was not held before. -/
def NoneHeldBut (s t : State) : Prop := ∀ l ∈ t.heldLeaves, l ∈ s.heldLeaves

/-- No access of a context is under way: its groups' accesses are performed, those sent to peers and hosts too, its copies have ended or not
begun, its remote transfers stand between two portions (R211). -/
structure QuietCtx (s : State) (ctx : Nat) : Prop where
  groups : ∀ g ∈ s.sched.groups, s.anyCtx g = some ctx → g.drained = true ∧ g.sent = []
  copies : ∀ k ∈ s.eng.ceCmds, k.ctx = ctx → k.ended = true ∨ (k.stale = [] ∧ k.done = [])
  remotes : ∀ k ∈ s.eng.feCmds, k.ctx = ctx → k.ended = true ∨ (k.stale = [] ∧ k.atPortion = true)

end Sys2Proof.Claims

/-! ## Translation instructions (spec file 08) -/

/-- R213 to R215, R207, R211, R212: xlate, its table entries not held by a host, returns the status word of the translation that the group's
core finds, or the physical address in a privileged group, and changes nothing but what TLBs hold. tlbinv traps in a group without the
privilege. Modes 0 and 1 release at device scope, drop every held translation of their range, and complete, every core's partials
applied, once no access of the context is under way; until then they wait. Modes 2 and 3 free the PENDING entry that a token of the own context names, its generation advanced, and answer 5 for any
other token; after RETRY its waiting groups run again. -/
def Obligations.TranslationInstructions : Prop :=
  (∀ d a b s c, Ready s c (.xlate d a b) →
    (let w := s.translate (some c.g.core) (dieOfCore c.g.core) c.l.ctx (c.g.s a).toNat
     let k := accessOf ((c.g.s b).toNat % 4)
     (w.held? = none → (c.g.s b).getLsbD 2 = false → ∃ s', TlbOnly s s' ∧
       CompletesIn (.xlate d a b) s c s' (UniformWritten c d (BitVec.ofNat 64 (xlateWord w k)))) ∧
     (w.held? = none → (c.g.s b).getLsbD 2 = true → c.privileged = true → ∃ s', TlbOnly s s' ∧
       CompletesIn (.xlate d a b) s c s' (UniformWritten c d (xlatePhysical w k (c.g.s a).toNat))) ∧
     (∀ h, (c.g.s b).getLsbD 2 = true → c.privileged = false → HandlerFree s c 0x02 h →
       Traps (.xlate d a b) s c { cause := 0x02, tinfo0 := c.raw.toNat, field := some 24 } h))) ∧
  (∀ d a b s c h, Ready s c (.tlbinv d a b) → c.privileged = false → HandlerFree s c 0x02 h →
    Traps (.tlbinv d a b) s c { cause := 0x02, tinfo0 := c.raw.toNat, field := some 7 } h) ∧
  (∀ d a b s c lo hi, Ready s c (.tlbinv d a b) → c.privileged = true → MayRelease c 6 → (c.waiting && c.g.released) = false →
    ((c.g.s b).toNat % 4 = 0 ∧ (c.g.s b).toNat / 4 % 16 ≤ 11 ∧ (c.g.s a).toNat < 2 ^ 57 ∧
        lo = (c.g.s a).toNat / 2 ^ sizeLog ((c.g.s b).toNat / 4 % 16) * 2 ^ sizeLog ((c.g.s b).toNat / 4 % 16) ∧
        hi = lo + 2 ^ sizeLog ((c.g.s b).toNat / 4 % 16)) ∨
      ((c.g.s b).toNat % 4 = 1 ∧ lo = 0 ∧ ∀ l ∈ s.heldLeaves, l.base < hi) →
    (QuietCtx s c.l.ctx → (c.released 6).st.flushGate = none → ∃ t g, exec (.tlbinv d a b) s = .next t ∧
      t.group? c.g.core c.g.slot = some g ∧ ReleasedWith c 6 d 0 g ∧ NoneHeld t c.l.ctx lo hi ∧ t.ms.partials = [] ∧
      t.ms.pendings = []) ∧
    ((∃ g ∈ s.sched.groups, s.anyCtx g = some c.l.ctx ∧ g.drained = false) → ∃ t g, exec (.tlbinv d a b) s = .next t ∧
      t.group? c.g.core c.g.slot = some g ∧ g.st = .wait .fence ∧ g.released = true ∧ NoneHeld t c.l.ctx lo hi)) ∧
  (∀ d a b s c, Ready s c (.tlbinv d a b) → c.privileged = true → c.waiting = true → c.g.released = true →
    QuietCtx s c.l.ctx → s.flushGate = none → ∃ t g h, exec (.tlbinv d a b) s = .next t ∧ t.group? c.g.core c.g.slot = some h ∧ UniformWritten c d 0 g ∧
      h = { g with released := false } ∧ t.ms.partials = [] ∧ t.ms.pendings = [] ∧ NoneHeldBut s t) ∧
  (∀ d a b s c p, Ready s c (.tlbinv d a b) → c.privileged = true → MayRelease c 6 → (c.waiting && c.g.released) = false →
    2 ≤ (c.g.s b).toNat % 4 → p = s.pfe ((c.g.s a).toNat / 512 % 2) ((c.g.s a).toNat % 512) →
    (p.pending = false ∨ p.gen ≠ (c.g.s a).toNat / 1024 ∨ p.ctx ≠ c.l.ctx → Answers (.tlbinv d a b) s c d 5) ∧
    (p.pending = true → p.gen = (c.g.s a).toNat / 1024 → p.ctx = c.l.ctx → p.base = (c.g.s a).toNat / 512 % 2 →
        p.index = (c.g.s a).toNat % 512 → ((c.g.s b).toNat % 4 = 3 → s.failWaits p = false) →
      ∃ t, exec (.tlbinv d a b) s = .next t ∧ t.pfe p.base p.index = { p with pending := false, gen := p.gen + 1 } ∧
        ((c.g.s b).toNat % 4 = 2 → (∃ g, t.group? c.g.core c.g.slot = some g ∧ ReleasedWith c 6 d 0 g) ∧
          (∀ h l, s.group? h.core h.slot = some h → h.st = .faultWait p.base (some p.index) → h.saved = none →
            s.launchOf h = some l → s.drydown l.ctx = false → t.group? h.core h.slot = some { h with st := h.resumeSt, lateTrap := none }))))

/-! ## Collectives (spec file 16) -/

/-- R417 to R419, R403, R404, R389: ctarm releases at device scope, reads its descriptor, and answers 1 for an entry of another context or
one that has fired, 2 for an invalid descriptor or flag page, 3 for a bad ring list, else 0 with the entry ARMED. ctdisarm frees an
entry of its own context. ctquery returns an entry word, a link's LSTAT or a route word; one that returns STATE 3 is an acquire. -/
def Obligations.CollectiveInstructions : Prop :=
  (∀ d a b s c hs desc, Ready s c (.ctarm d a b) → MayRelease c 6 → (c.g.s a).toNat < 4096 → (c.g.s b).toNat % 128 = 0 →
    Reads (c.released 6) (c.g.s b).toNat 128 hs desc →
    (let k := readAfter (c.released 6) (c.g.s b).toNat hs
     let x := cttDescOf desc
     ((∃ e, s.ctt? (c.g.s a).toNat = some e ∧ (e.ctx ≠ c.l.ctx ∨ e.st = .fired)) → Answers (.ctarm d a b) s c d 1) ∧
     ((∀ e, s.ctt? (c.g.s a).toNat = some e → e.ctx = c.l.ctx ∧ e.st ≠ .fired) →
       (cttValid desc = false → Answers (.ctarm d a b) s c d 2) ∧
       (∀ fs, cttValid desc = true → k.placeRows .read 0 [(x.flag, 8)] = .ok fs →
         ((∃ p ∈ fs.flatten, p.leaf.cls ≠ 0 ∨ p.leaf.format = true) → Answers (.ctarm d a b) s c d 2) ∧
         (∀ rs ring, (∀ p ∈ fs.flatten, p.leaf.cls = 0 ∧ p.leaf.format = false) →
           Reads { k with st := k.fillAll k.st [x.flag] } (cttRingOf desc) x.nrank rs ring →
           (BadRing s x (ring.map (·.toNat)) → Answers (.ctarm d a b) s c d 3) ∧
           (¬ BadRing s x (ring.map (·.toNat)) → ∃ t g e, exec (.ctarm d a b) s = .next t ∧ t.group? c.g.core c.g.slot = some g ∧
             ReleasedWith c 6 d 0 g ∧ PartialsMoved s t c.g.core 6 ∧ t.ctt? (c.g.s a).toNat = some e ∧
             ArmedAs s c (c.g.s a).toNat x (ring.map (·.toNat)) e ∧ ∀ j, j ≠ (c.g.s a).toNat → t.ctt? j = s.ctt? j)))))) ∧
  (∀ d a b s c h, Ready s c (.ctarm d a b) → 4096 ≤ (c.g.s a).toNat → HandlerFree s c 0x02 h →
    Traps (.ctarm d a b) s c { cause := 0x02, tinfo0 := c.raw.toNat, field := some 18 } h) ∧
  (∀ d a s c, Ready s c (.ctdisarm d a) → (c.g.s a).toNat < 4096 →
    ((∃ e, s.ctt? (c.g.s a).toNat = some e ∧ e.ctx ≠ c.l.ctx) → Completes (.ctdisarm d a) s c (UniformWritten c d 1)) ∧
    ((∀ e, s.ctt? (c.g.s a).toNat = some e → e.ctx = c.l.ctx) → ∃ s', CompletesIn (.ctdisarm d a) s c s' (UniformWritten c d 0) ∧
      s' = { s with eng := { s.eng with ctt := s'.eng.ctt, counts := s'.eng.counts } } ∧
      s'.eng.ctt = s.eng.ctt.filter (fun e => e.index != (c.g.s a).toNat) ∧
      (∀ m ∈ s'.eng.counts, ∀ e, s.ctt? (c.g.s a).toNat = some e → m.src ≠ e.gen))) ∧
  (∀ d a b s c, Ready s c (.ctquery d a b) →
    ((c.g.s b).toNat % 4 = 0 → (c.g.s a).toNat < 4096 →
      (s.ctt? (c.g.s a).toNat = none → Completes (.ctquery d a b) s c (UniformWritten c d 0)) ∧
      (∀ e, s.ctt? (c.g.s a).toNat = some e →
        (e.ctx ≠ c.l.ctx → Completes (.ctquery d a b) s c (UniformWritten c d 7)) ∧
        (e.ctx = c.l.ctx →
          (let w := BitVec.ofNat 64 (e.st.code + e.err * 2 ^ 3 + e.delivBytes % 2 ^ 32 * 2 ^ 32)
           (e.st ≠ .done → Completes (.ctquery d a b) s c (UniformWritten c d w)) ∧
           (e.st = .done → c.g.watching .pending = false → c.g.acquireWaits 6 = false →
             ∃ s', CompletesIn (.ctquery d a b) s c s' (UniformWritten c d w) ∧ s' = { s with ms := { s.ms with regionNo := s'.ms.regionNo } } ∧
               s'.regionNum c.g.core c.g.slot = s.regionNum c.g.core c.g.slot + 1) ∧
           (e.st = .done → c.g.watching .pending = true ∨ c.g.acquireWaits 6 = true → Waits (.ctquery d a b) s c .fence c.g))))) ∧
    (∀ l, (c.g.s b).toNat % 4 = 1 → s.fab.links.find? (fun m => m.id == (c.g.s a).toNat) = some l →
      Completes (.ctquery d a b) s c (UniformWritten c d
        (BitVec.ofNat 64 (l.st.code + l.width * 2 ^ 8 + l.rate * 2 ^ 10 + l.discards * 2 ^ 32)))) ∧
    ((c.g.s b).toNat % 4 = 2 → Completes (.ctquery d a b) s c (UniformWritten c d (BitVec.ofNat 64 (s.routeWord ((c.g.s a).toNat % 256)))) ∧
      (lookupD 0 s.fab.routes ((c.g.s a).toNat % 256) = 0 → s.routeWord ((c.g.s a).toNat % 256) = 4 + 0x3FF * 2 ^ 16)) ∧
    (∀ h, (c.g.s b).toNat % 4 = 3 → HandlerFree s c 0x02 h →
      Traps (.ctquery d a b) s c { cause := 0x02, tinfo0 := c.raw.toNat, field := some 24 } h))

/-- R403, R405, R407, R411, R412, R258: an armed entry whose flag has reached its value fires and sends READY; the successor's READY is
remembered, or fails the entry where it differs; once the successor is ready the entry combines what it receives with its own
contributions in ring order and keeps the results that are gathered; a result unit is written and counted, and with all of them
the entry is DONE, or armed for its next value; ABORT, a lost route and failed translations fail it. -/
def Obligations.CollectiveEvents : Prop :=
  (∀ s i e a l ea, s.mgmt.devState ≠ .fatal → s.ctt? i = some e → e.st = .armed →
    (s.translate none (dieOfCluster e.cluster) e.ctx e.desc.flag).access .read e.desc.flag = .ok ea l → l.place ea = .dev a →
    s.placeGate (.dev a) 8 = none → s.anyPoison a 8 = false → s.devLE a 8 = e.fireVal →
    (e.alone = false → e.readySucc = false → ∃ t, exec (.cttFire i) s = .next t ∧ t.ms = s.ms ∧ t.sched = s.sched ∧
      t.ctt? i = some { e with st := .fired, delivBytes := 0, sent := [.ready] }) ∧
    (∀ f parts, f = { e with st := .fired, delivBytes := 0, sent := if e.alone then [] else [.ready] } → s.cttRuns f = true →
      f.started = false → (s.putCtt f).cttReads f f.firstNeeds = .ok parts → ∃ t, exec (.cttFire i) s = .next t ∧ t.ms = s.ms ∧
        t.ctt? i = some (f.begin parts))) ∧
  (∀ s i e r, s.mgmt.devState ≠ .fatal → s.ctt? i = some e → e.alone = false → e.readySucc = false → r.gid = e.desc.gid →
    e.st = .armed ∨ e.st = .fired → s.neighbourOpen e.succ = true →
    (r = e.ready → e.st = .armed → ∃ t, exec (.cttReadyReceive i r) s = .next t ∧ t.ctt? i = some { e with readySucc := true } ∧
      t.ms = s.ms) ∧
    (r ≠ e.ready → ∃ t, exec (.cttReadyReceive i r) s = .next t ∧ FailedWith s t e 6)) ∧
  (∀ s i e x p, s.mgmt.devState ≠ .fatal → s.ctt? i = some e → e.alone = false → s.cttRuns e = true → e.started = true →
    s.neighbourOpen e.pred = true →
    (e.due x true = true → e.desc.accept true p = .ok p → ∃ t, exec (.cttDataReceive i x true p) s = .next t ∧
      t.ctt? i = some (e.gathered x p) ∧ t.ms = s.ms) ∧
    (∀ parts, e.due x false = true → e.desc.accept false p = .ok p → s.cttReads e (e.needs x) = .ok parts →
      ∃ t, exec (.cttDataReceive i x false p) s = .next t ∧ t.ms = s.ms ∧
        t.ctt? i = some (e.pass x (e.desc.combine p (parts.take e.desc.mpr)) (leNat ((parts.drop e.desc.mpr).headD [])))) ∧
    (∀ g, e.due x g = true → e.desc.accept g p = .malformed → ∃ t, exec (.cttDataReceive i x g p) s = .next t ∧ FailedWith s t e 3)) ∧
  (∀ (d : CttDesc) (a : BitVec 64) (own : List Byte), d.op < 2 →
    d.combine (.value a) [own] = .value (BitVec.ofNat 64 (fAdd (if d.type = 9 then fmtF64 else fmtF32) a.toNat (leNat own)).1)) ∧
  (∀ s i part e bs ps, s.mgmt.devState ≠ .fatal → s.cttUnit i part = some (e, bs) → s.cttSide e part bs.length = .ok (.mem ps) →
    s.way [] ps 4 = .go → (∀ p ∈ ps, ∃ a, p = .dev a ∧ NoPartials s e.core a 4) →
    ∃ t x, exec (.cttResultDeliver i part) s = .next t ∧ t.ctt? i = some x ∧
      x.delivBytes = e.delivBytes + bs.length ∧ t.ms.mem = wordsWritten ps bs s.ms.mem ∧
      t.eng.counts = s.eng.counts ++ (e.barRef.map (fun b => (⟨e.gen, none, b, bs.length⟩ : CountMsg))).toList) ∧
  (∀ s i part e, s.mgmt.devState ≠ .fatal → s.ctt? i = some e → e.st = .fired → e.delivered.length = e.desc.units →
    (∀ m ∈ s.eng.counts, m.src ≠ e.gen) → s.cttUnit i part = none → ∃ t x, exec (.cttResultDeliver i part) s = .next t ∧
      t.ctt? i = some x ∧ t.ms = s.ms ∧ x.delivBytes = e.delivBytes ∧
      (e.desc.rearm = true → x.st = .armed ∧ x.fireVal = (e.fireVal + 1) % 2 ^ 64) ∧
      (e.desc.rearm = false → x.st = .done ∧ x.fireVal = e.fireVal)) ∧
  (∀ s i e, s.mgmt.devState ≠ .fatal → s.ctt? i = some e → e.st = .fired →
    (e.alone = false → ∃ t, exec (.cttAbortReceive i) s = .next t ∧ FailedWith s t e 2) ∧
    (e.alone = false → s.routePort e.pred 0 = none ∨ s.routePort e.succ 0 = none →
      ∃ t, exec (.cttFailure i .routeLost) s = .next t ∧ FailedWith s t e 1) ∧
    (∀ va, e.failed = true → ∃ t, exec (.cttFailure i (.translation va)) s = .next t ∧ FailedWith s t e 4) ∧
    (∀ va f ea lv a, e.failed = false → e.pausedOn = none → e.alone = true ∨ e.readySucc = true → s.cttMiss e va = some (f, ea, lv, a) →
      f ≠ .absent → ∃ t, exec (.cttFailure i (.translation va)) s = .next t ∧ FailedWith s t e 5) ∧
    (∀ va ea lv a, e.failed = false → e.pausedOn = none → e.alone = true ∨ e.readySucc = true →
      s.cttMiss e va = some (.absent, ea, lv, a) → (∃ j, j < 512 ∧ (s.pfe (baseOfDie (dieOfCluster e.cluster)) j).pending = false) →
      ∃ t x, exec (.cttFailure i (.translation va)) s = .next t ∧ t.ctt? i = some x ∧ x.st = .fired ∧ x.pausedOn.isSome = true))

namespace Sys2Proof.Claims

open Sys2Proof.Machine

/-! ## The end of groups, regrouping, pre-emption, enq -/

/-- The regroup instructions: granule mask or offset, offset, and whether it is mrestore (R192, R193). -/
def regroupTable (c : Iss) : Instr → Option ((Nat × Nat) × Bool)
  | .mregroup a b => some (((c.g.s a).toNat, (c.g.s b).toNat), false)
  | .mrestore a => some (((c.g.s a).toNat, (c.g.s a).toNat), true)
  | _ => none

/-- The other groups of the issuing group's workgroup. -/
def siblings (s : State) (c : Iss) : List Group := (s.wgGroups c.g.unit c.g.wg).filter (fun h => h.gi != c.g.gi)

/-- Every other group waits in the same regroup instruction: the issuing group is the last to arrive (R192). -/
def LastArrival (s : State) (c : Iss) : Prop :=
  (siblings s c).length + 1 = c.u.kd.groups ∧ ∀ h ∈ siblings s c, h.st = .wait .regroup ∧ h.regroup.isSome = true ∧ h.saved = none

/-- The groups of the issuing group's workgroup differ in index and in place, one of them is the issuing one, none is in a handler, and no
host holds bytes of their trap frames. -/
structure CalmWg (s : State) (c : Iss) : Prop where
  own : ∃ y ∈ s.wgGroups c.g.unit c.g.wg, y.core = c.g.core ∧ y.slot = c.g.slot ∧ y.gi = c.g.gi
  apart : (s.wgGroups c.g.unit c.g.wg).Pairwise (fun y z => y.gi ≠ z.gi ∧ ¬(y.core = z.core ∧ y.slot = z.slot))
  real : ∀ y ∈ s.wgGroups c.g.unit c.g.wg, y.gi < 16 ∧ y.slot < 32 ∧ y.hdl = none ∧ s.devGate y.spill 96 = none

/-- A group of a workgroup whose regroup has failed (R178, R194): it has the trap state of REGROUP_FAULT with the reason at its own mregroup
or mrestore; the one of the lowest index is in its handler, the others are HELD with the trap pending. -/
structure RegroupFaulted (s : State) (c : Iss) (r h : Nat) (y n : Group) : Prop where
  trap : n.cause = 0x15 ∧ n.tinfo1 = BitVec.ofNat 64 r ∧
    n.trappc = BitVec.ofNat 64 (y.pcSlot (if y.gi = c.g.gi then c.which else y.waitSlot)).pc
  kept : n.vregs = y.vregs ∧ n.sregs = y.sregs ∧ n.pregs = y.pregs ∧ n.regroup = none
  first : (∀ z ∈ s.wgGroups c.g.unit c.g.wg, y.gi ≤ z.gi) → n.st = .handler ∧ n.pendTrap = false ∧ ∃ f, n.hdl = some f ∧ f.slot.pc = h
  later : (∃ z ∈ s.wgGroups c.g.unit c.g.wg, z.gi < y.gi) → n.st = .held ∧ n.pendTrap = true ∧ n.hdl = none

/-- The operands of every group of the workgroup, the issuing group's first. -/
def arrived (s : State) (c : Iss) (ops : Nat × Nat) : List (Nat × Nat) :=
  ops :: (siblings s c).filterMap (fun h => h.regroup.map (fun o => (o.1.toNat, o.2.toNat)))

/-- Nothing but its last PC slot is left of a group outside a handler: it ends with this instruction (R138). -/
structure LastSlot (s : State) (c : Iss) : Prop where
  running : c.g.st = .running
  noHandler : c.g.hdl = none
  noOther : (c.g.pcSlot (otherSlot c.which)).mask = 0
  noStack : c.g.stack = []
  real : c.g.slot < 32
  drained : s.queued c.g = false
  settled : c.g.watching .pending = false
  unstruck : c.g.watching .struck = false

/-- The group holds no handle and no tile slot but those that a test keeps (R147). -/
def HoldsNone (w : Workgroup) (gi : Nat) (keptH keptT : Nat → Prop) : Prop :=
  (∀ h ∈ w.handles, h.owner = gi → keptH h.name) ∧ (∀ t ∈ w.tiles, t.owner = gi → keptT t.name)

/-- Some other group of the unit has not ended. -/
def OthersGoOn (s : State) (c : Iss) : Prop :=
  ∃ h ∈ s.unitGroups c.g.unit, h.hasEnded = false ∧ ¬(h.core = c.g.core ∧ h.slot = c.g.slot)

/-- A group as it has ended (R138). -/
def EndedAs (succ : Bool) (c : Iss) (g : Group) : Prop :=
  g.st = .ended succ ∧ g.slot0.mask = 0 ∧ g.slot1.mask = 0 ∧ g.vregs = c.g.vregs ∧ g.sregs = c.g.sregs ∧ g.pregs = c.g.pregs

/-- A saved group: HOW 0 with all its granules (R186). -/
def savedWhole (k : KDesc) : SaveInfo := { how := 0, rentry := 0, vmask := BitVec.ofNat 16 (2 ^ k.vgran - 1) }

/-- A group saved by yield: HOW 1, its restore entry, the granules that it names (R185). -/
def savedByYield (k : KDesc) (entry mask : Word64) : SaveInfo :=
  { how := 1, rentry := entry.toNat, vmask := mask.setWidth 16 &&& BitVec.ofNat 16 (2 ^ k.vgran - 1) }

/-- A register's value of member slot i of a workgroup's groups in lane l (R192). -/
def slotValue (gs : List Group) (m r i l : Nat) : Word32 :=
  match gs[i / m]? with
  | some g => g.v r (32 * (i % m) + l)
  | none => 0

/-- The slot whose registers go to slot j: its sorted place in mregroup, and in mrestore the one whose record entry names j. -/
def moveSource (v : Move) (j i : Nat) : Prop := if v.back then v.src[i]? = some j ∧ ∀ k, k < i → v.src[k]? ≠ some j else v.src[j]? = some i

end Sys2Proof.Claims

/-! ## Ends, regrouping, pre-emption (spec files 05, 06 and 07) -/

/-- R155, R156, R138, R147, R145: exit of one continuation of several, while something is left to go on, ends its elements and takes them
out of every JOIN entry. Of the last one, with no handle or tile slot held, it releases at .wg and ends the group: without a successor kernel the group leaves its
slot, with one it stays, ENDED; the last group of a unit to exit so makes the unit RETIRING. exit.succ whose checks pass releases at SUCCSCOPE
and ends the group as one that hands on; the last such group closes the unit. A group that holds a handle traps instead. -/
def Obligations.GroupEnds : Prop :=
  (∀ s c, Ready s c .exit → s.queued c.g = false → c.g.hdl = none → (c.g.pcSlot (otherSlot c.which)).mask ≠ 0 ∨ c.g.stack ≠ [] →
    c.goesOn = true → SpillFree s c → CompletesSpilling .exit s c (fun g => g.exited = c.g.exited ||| c.mask ∧ g.vregs = c.g.vregs ∧ g.sregs = c.g.sregs ∧ g.pregs = c.g.pregs ∧
      g.flags = c.g.flags ∧ ∀ e ∈ g.stack, e.kind = .join → e.mask &&& c.mask = 0)) ∧
  (∀ s c w, Ready s c .exit → LastSlot s c → wgOf s c = some w → HoldsNone w c.g.gi (fun _ => False) (fun _ => False) → MayRelease c 2 →
    (OthersGoOn s c →
      (c.u.kd.succDesc = 0 → ∃ t, exec .exit s = .next t ∧ t.group? c.g.core c.g.slot = none ∧ t.unit? c.g.unit = some c.u ∧
        t.ms.mem = s.ms.mem ∧ t.regionNum c.g.core c.g.slot = s.regionNum c.g.core c.g.slot + 2) ∧
      (c.u.kd.succDesc ≠ 0 → ∃ t g, exec .exit s = .next t ∧ t.group? c.g.core c.g.slot = some g ∧ EndedAs false c g ∧
        t.unit? c.g.unit = some c.u ∧ t.ms.mem = s.ms.mem)) ∧
    (¬ OthersGoOn s c → (∀ h ∈ s.unitGroups c.g.unit, h.st ≠ .ended true) → ∃ t v, exec .exit s = .next t ∧ t.unit? c.g.unit = some v ∧
      v = { c.u with st := .retiring })) ∧
  (∀ s c w k n h, Ready s c .exit → LastSlot s c → wgOf s c = some w → k ∈ w.handles → k.owner = c.g.gi → k.name < 16 → k.name = n →
    (∀ x ∈ w.handles, x.owner = c.g.gi → n ≤ x.name) → HandlerFree s c 0x11 h →
    Traps .exit s c { cause := 0x11, tinfo0 := c.raw.toNat, tinfo1 := n } h) ∧
  (∀ s c h, Ready s c .exitSucc → c.g.hdl = none → (c.g.pcSlot (otherSlot c.which)).mask ≠ 0 ∨ c.g.stack ≠ [] → HandlerFree s c 0x04 h →
    Traps .exitSucc s c { cause := 0x04, tinfo0 := c.raw.toNat, tinfo1 := 5 } h) ∧
  (∀ s c h, Ready s c .exitSucc → LastSlot s c → c.u.kd.succDesc = 0 → HandlerFree s c 0x14 h →
    Traps .exitSucc s c { cause := 0x14, tinfo0 := c.raw.toNat, tinfo1 := 7 } h) ∧
  (∀ s c w, Ready s c .exitSucc → LastSlot s c → wgOf s c = some w → c.u.kd.succDesc ≠ 0 → w.regroup = none → c.g.loads = [] →
    (∀ a ∈ c.g.atoms, a.red = true) → (∀ m ∈ c.g.meq, ∀ d a j wide mode mask, m.work ≠ .xround d a j wide mode mask) →
    (∀ s1 k r h, c.readSucc = .ok (s1, k) → c.u.succRead = false → c.u.kd.succReason k = some r → HandlerFree s c 0x14 h →
      (k.m ≠ c.u.kd.m → r = 2) ∧ Traps .exitSucc s c { cause := 0x14, tinfo0 := c.raw.toNat, tinfo1 := r } h) ∧
    (∀ s1 k, c.checkSucc = .ok (s1, k) →
      HoldsNone w c.g.gi (fun n => c.g.gi < k.groups ∧ c.u.kd.imask.testBit (41 + n) = true)
        (fun n => c.g.gi < k.groups ∧ c.u.kd.imask.testBit (25 + n) = true) →
      (∀ x ∈ s.unitWgs c.g.unit, x.tiles.length ≤ k.tiles ∧ (x.handles.flatMap (·.banks)).length ≤ k.banks) →
      MayRelease c c.u.kd.succScope → s1.releaseGate c.g.core c.u.kd.succScope = none →
      (OthersGoOn s c → ∃ t g v, exec .exitSucc s = .next t ∧ t.group? c.g.core c.g.slot = some g ∧ EndedAs true c g ∧
        t.unit? c.g.unit = some v ∧ v = { c.u with succRead := true }) ∧
      (¬ OthersGoOn s c → ∃ t v, exec .exitSucc s = .next t ∧ t.unit? c.g.unit = some v ∧
        ((v.st = .handover ∧ v.kd = c.u.kd) ∨ v.kd = k))))

/-- R191 to R194, R178: mregroup and mrestore, once every register of the group is written, wait until every group of the workgroup has
issued them; the last arrival checks R194 and starts the move, or every group takes REGROUP_FAULT, the lowest first. REGROUP_MOVE_COMPLETE moves the named granules between member slots and leaves every
other register; the regroup is then active, or no longer, and each group goes on past its instruction. -/
def Obligations.Regrouping : Prop :=
  (∀ i s c w ops back, regroupTable c i = some (ops, back) → Ready s c i → c.mask = fullMask c.g.members → s.pendingRegs c.g = [] →
    wgOf s c = some w → w.moving = none →
    ((∃ h ∈ siblings s c, h.hasEnded = false ∧ h.st ≠ .wait .regroup) → (∀ h ∈ siblings s c, h.hasEnded = false) →
      (siblings s c).length + 1 = c.u.kd.groups →
      Waits i s c .regroup { c.g with regroup := some (BitVec.ofNat 64 ops.1, BitVec.ofNat 64 ops.2) }) ∧
    (LastArrival s c → s.regroupReason c.u w (arrived s c ops) back = none → ∃ t g v x, exec i s = .next t ∧
      t.group? c.g.core c.g.slot = some g ∧ g.st = .wait .regroup ∧ g.vregs = c.g.vregs ∧ t.ms = s.ms ∧
      wgOf t c = some x ∧ x = { w with moving := some v } ∧ v.back = back ∧
      (back = false → v.granules = BitVec.ofNat 16 ops.1 ∧ v.offset = ops.2 ∧
        v.src = slotOrder (s.wgOrder c.g.unit c.g.wg) c.u.kd.m (c.u.kd.groups * c.u.kd.m)) ∧
      (back = true → v.offset = ops.1)) ∧
    (∀ r h, LastArrival s c → s.regroupReason c.u w (arrived s c ops) back = some r → handlerAddress s c 0x15 h → h ≠ 0 → CalmWg s c →
      (back = false → ops.1 % 2 ^ 16 = 0 ∨ 2 ^ c.u.kd.vgran ≤ ops.1 % 2 ^ 16 → r = 1) ∧
      ∃ t, exec i s = .next t ∧ ∀ y ∈ s.wgGroups c.g.unit c.g.wg, ∃ n, t.group? y.core y.slot = some n ∧ RegroupFaulted s c r h y n)) ∧
  (∀ s unit index u w v, s.mgmt.devState ≠ .fatal → s.unit? unit = some u → s.wg? unit index = some w → w.moving = some v →
    0 < u.kd.m → (s.wgOrder unit index).length = u.kd.groups →
    (∀ g ∈ s.wgOrder unit index, s.group? g.core g.slot = some g ∧ g.vregs.length = 8 * u.kd.vgran ∧
      ∀ row ∈ g.vregs, row.length = 32 * u.kd.m) →
    ∃ t x, exec (.regroupMoveComplete unit index) s = .next t ∧ t.wg? unit index = some x ∧
      x = { w with moving := none, regroup := if v.back then none else some v.offset } ∧ t.ms.mem = s.ms.mem ∧
      (v.back = false → s.barrierTouched u.cluster v.offset 256 = none →
        (∀ k, k < 128 → (t.sramOf u.cluster).read (v.offset + k) = BitVec.ofNat 8 (v.src.getD k 0)) ∧
        (t.sramOf u.cluster).readLE (v.offset + 128) 2 = v.granules.toNat ∧
        (t.sramOf u.cluster).read (v.offset + 130) = BitVec.ofNat 8 v.src.length ∧
        (t.sramOf u.cluster).read (v.offset + 131) = BitVec.ofNat 8 u.kd.m) ∧
      (v.back = true → s.barrierTouched u.cluster (v.offset + 128) 2 = none → (t.sramOf u.cluster).readLE (v.offset + 128) 2 = 0) ∧
      ∀ p g, (s.wgOrder unit index)[p]? = some g → ∃ n, t.group? g.core g.slot = some n ∧ n.sregs = g.sregs ∧ n.pregs = g.pregs ∧
        n.regroup = none ∧ (g.st = .wait .regroup → n.st = g.resumeSt) ∧
        (∀ r e, v.granules.getLsbD (r / 8) = false → n.v r e = g.v r e) ∧
        (∀ r k l i, r < g.vregs.length → k < u.kd.m → l < 32 → v.granules.getLsbD (r / 8) = true → moveSource v (p * u.kd.m + k) i →
          i < u.kd.groups * u.kd.m → n.v r (32 * k + l) = slotValue (s.wgOrder unit index) u.kd.m r i l))

/-- R184 to R187, R179: a group that is asked to give way takes PREEMPT at an instruction boundary: in FAULTWAIT, or without a PREEMPTH, it is
saved whole; else it enters PHANDLER there. yield in a handler saves it with its restore entry and granules; 4,096 handler
instructions end the handler with s0 to s7 and p0 from the trap frame, CAUSE and TRAPPC at 0. Once every group of the unit is saved and
the save area has room for its records, the unit leaves its cores and its scratch run is scrubbed. -/
def Obligations.Preemption : Prop :=
  (∀ s core slot g u l, s.mgmt.devState ≠ .fatal → s.group? core slot = some g → slot < 32 → s.unit? g.unit = some u →
    s.launch? u.launch = some l → s.regionOpen l.ctx l.region = true →
    (s.mayPreempt g = true →
      (g.inFaultWait = true ∨ u.kd.preemptH = 0 → ∃ t n, exec (.preempt core slot) s = .next t ∧ t.group? core slot = some n ∧
        n.saved = some (savedWhole u.kd) ∧ n.preemptReq = false ∧ n.vregs = g.vregs ∧ n.sregs = g.sregs ∧ n.pregs = g.pregs ∧
        n.slot0 = g.slot0 ∧ n.slot1 = g.slot1 ∧ t.ms.mem = s.ms.mem) ∧
      (g.inFaultWait = false → u.kd.preemptH ≠ 0 → ∃ t n f, exec (.preempt core slot) s = .next t ∧ t.group? core slot = some n ∧
        n.st = .phandler ∧ n.cause = 0x1D ∧ n.trappc = BitVec.ofNat 64 (g.pcSlot g.nextSlot).pc ∧ n.hdl = some f ∧ f.pre = true ∧
        f.slot.pc = u.kd.preemptH ∧ n.vregs = g.vregs ∧ n.sregs = g.sregs ∧ n.saved = none)) ∧
    (s.mayPreempt g = false → s.saveReady u = true → s.saveGate u l.ctx = none → (s.saveUnit u).isSome = true → ∃ t v, exec (.preempt core slot) s = .next t ∧
      t.unit? g.unit = some v ∧ v.saved = true ∧ v.wanted = false ∧
      (∀ h ∈ t.sched.groups, h.unit = u.id → h.slot < 32 → 256 ≤ h.core) ∧
      (∀ k ∈ t.eng.ceCmds, k.unit = u.id → k.paused = true) ∧
      ∀ off len, u.scratch = some (off, len) → ∀ n, off ≤ n → n < off + len → (t.sramOf u.cluster).read n = 0)) ∧
  (∀ a b s c, Ready s c (.yield a b) → (c.g.st = .handler ∨ c.g.st = .phandler) → (c.g.s a).toNat % 2 = 0 → s.queued c.g = false →
    Completes (.yield a b) s c (fun g => g = movedOn c { c.g with saved := some (savedByYield c.u.kd (c.g.s a) (c.g.s b)) })) ∧
  (∀ a b s c h, Ready s c (.yield a b) → c.g.st = .running → HandlerFree s c 0x02 h →
    Traps (.yield a b) s c { cause := 0x02, tinfo0 := c.raw.toNat, field := some 7 } h) ∧
  (∀ s core slot g u f, s.mgmt.devState ≠ .fatal → s.group? core slot = some g → s.unit? g.unit = some u → g.hdl = some f → g.st = .phandler →
    f.restored = false → 4096 ≤ f.retired → g.saved = none → g.blocked = none → s.queued g = false → s.devGate g.spill 96 = none →
    (∀ w, s.codeWord g f.slot.pc = some w → isYield w = false) →
    ∃ t n, exec (.phandlerLimit core slot) s = .next t ∧ t.group? core slot = some n ∧ n.saved = some (savedWhole u.kd) ∧
      n.st = .running ∧ n.hdl = none ∧ n.cause = 0 ∧ n.trappc = 0 ∧ n.slot0 = g.slot0 ∧ n.slot1 = g.slot1 ∧ n.vregs = g.vregs ∧ t.ms = s.ms ∧
      (∀ r, n.s r = if r < 8 ∧ r < g.sregs.length then BitVec.ofNat 64 (s.devLE (g.spill + 8 * r) 8) else g.s r) ∧
      ∀ r, n.p r = if r = 0 ∧ 0 < g.pregs.length then BitVec.ofNat 256 (s.devLE (g.spill + 64) 32) else g.p r)

/-- R131 to R133: enq releases at device scope, reads its record, and answers 2 for a queue that is not bound, another context's or not
device-produced, 3 for one that is not ACTIVE, 1 for a full ring; else it writes the record with a zero status word, advances WPTR,
notifies the walker and answers 0. A misaligned source address traps. -/
def Obligations.Enqueue : Prop :=
  (∀ d a b s c h, Ready s c (.enq d a b) → (c.g.s b).toNat % 128 ≠ 0 → WalkFree c 0 (c.g.s b).toNat → HandlerFree s c 0x0B h →
    Traps (.enq d a b) s c { cause := 0x0B, tinfo0 := (c.g.s b).toNat, tinfo1 := accessWord .read 15 (c.pageOf 0 (c.g.s b).toNat) 1 } h) ∧
  (∀ d a b s c p, Ready s c (.enq d a b) → (c.g.s b).toNat % 128 = 0 → MayRelease c 6 →
    (c.released 6).devPlace (c.g.s b).toNat 128 .read = .ok p → (c.released 6).st.poisonAt p 128 = false →
    (let k := { c.released 6 with st := ((c.released 6).st.deviceRead p 128).1 }
     let r := ((c.released 6).st.deviceRead p 128).2
     let answers := fun (x : Nat) => ∃ t g, exec (.enq d a b) s = .next t ∧ t.group? c.g.core c.g.slot = some g ∧ ReleasedWith c 6 d x g ∧
       t.sched.queues = s.sched.queues ∧ t.ms.mem = k.st.ms.mem
     (s.queue? ((c.g.s a).toNat % 1024) = none → answers 2) ∧
     (∀ q, s.queue? ((c.g.s a).toNat % 1024) = some q →
       (q.ctx ≠ c.l.ctx ∨ q.producer = false → answers 2) ∧
       (q.ctx = c.l.ctx → q.producer = true → q.st ≠ .active → answers 3) ∧
       (∀ x y n, q.ctx = c.l.ctx → q.producer = true → q.st = .active → k.devPlace q.qbase 8 .write = .ok (.dev x) →
         n = leNat (k.st.deviceRead (.dev x) 8).2 → k.devPlace (q.entry n) 128 .write = .ok (.dev y) →
         (2 ^ q.qlog ≤ (n + 2 ^ 64 - q.retired % 2 ^ 64) % 2 ^ 64 → answers 1) ∧
         ((n + 2 ^ 64 - q.retired % 2 ^ 64) % 2 ^ 64 < 2 ^ q.qlog → ∃ t g, exec (.enq d a b) s = .next t ∧ t.group? c.g.core c.g.slot = some g ∧ ReleasedWith c 6 d 0 g ∧
           t.queue? q.id = some { q with doorbell := true } ∧
           t.ms.mem = (k.st.ms.mem.writeN y (r.take 64 ++ List.replicate 8 0 ++ r.drop 72)).writeN x (leBytes 8 ((n + 1) % 2 ^ 64)))))))

namespace Sys2Proof.Claims

open Sys2Proof.Machine

/-! ## Context commands -/

/-- The command at the head of the arbiter of a device that is READY (R85, R460). -/
def HeadIs (s : State) (op : Nat) (c : Cmd) : Prop := s.mgmt.devState = .ready ∧ s.mgmt.cmds.head? = some c ∧ c.op = op

/-- A command is done: it has left the arbiter, and its status word stands in the memory of its port's host (R84, R85; seen where no
die caches that memory and the port's link is in service). -/
def Answered (s t : State) (c : Cmd) (v : Nat) : Prop :=
  t.mgmt.cmds = s.mgmt.cmds.tail ∧
    (s.linkDead (0x300 + c.port) = false → s.ms.hostLines = [] →
      (t.hostOf c.port).readLE (s.statBase c.port + 8 * c.tag) 8 = v)

/-- The commands that name a context, with their operation codes (R86). -/
def contextCommands : Instr → Option Nat
  | .destroy => some 2
  | .fence => some 3
  | .resume => some 4
  | .rupdate => some 5
  | .qbind => some 6
  | .fresolve => some 10
  | .tlbinvCommand => some 11
  | _ => none

/-- The commands that name a queue. -/
def queueCommands : Instr → Option Nat
  | .qunbind => some 7
  | .qstart => some 8
  | .qcancel => some 9
  | _ => none

/-- No open region of a subtree is left: a fence of it is in progress (R93). -/
def Fencing (y : Context) (root : Nat) (x : Context) : Prop :=
  (∀ r ∈ x.regions, y.inSubtree root r.id = true → r.st ≠ .opened) ∧
    (∃ f ∈ x.fences, f.root = root ∧ f.st = .fencing) ∧ (root = 0 → x.st = .fenced)

end Sys2Proof.Claims

/-! ## Contexts (spec file 04) -/

/-- R85, R86, R88, R93, R209, R211, R212, R460, while no host holds bytes that a command accesses: a command word enters the arbiter, is dropped when 64 wait, or is answered BAD_COMMAND. CREATE makes the
lowest free context LIVE as its descriptor says. DESTROY makes a context DRAINING with nothing of it left in the engines and every launch
ended; once nothing of it is under way its id is free. FENCE starts a fence, joins the one that contains it, or is answered at
once. RESUME opens a fenced subtree. RUPDATE takes a region's block again, or a region without children and queues away. FRESOLVE frees a
fault entry; TLBINV drops translations and leaves the arbiter, and is answered once no access of its context is under way. A command for a context that does not accept it is answered BAD_STATE. -/
def Obligations.ContextCommands : Prop :=
  (∀ s port word p, s.mgmt.devState = .ready → s.mgmt.ports.find? (fun q => q.id == port) = some p →
    (let c : Cmd := ⟨port, word, p.cmdW1⟩
     let n := (s.mgmt.cmds.filter (fun k => k.port == port)).length
     (64 ≤ n → ∃ t, exec (.ctxcmdSubmit port word) s = .next t ∧ t.mgmt.cmds = s.mgmt.cmds ∧
       ∀ q ∈ t.mgmt.ports, q.id = port → q.cmdOvf = true) ∧
     (n < 64 → c.bad = false → exec (.ctxcmdSubmit port word) s = .next { s with mgmt := { s.mgmt with cmds := s.mgmt.cmds ++ [c] } }) ∧
     (n < 64 → c.bad = true → ∃ t, exec (.ctxcmdSubmit port word) s = .next t ∧ t.mgmt.cmds = s.mgmt.cmds ∧
       (s.linkDead (0x300 + port) = false → s.ms.hostLines = [] → (t.hostOf port).readLE (s.statBase port + 8 * c.tag) 8 = 6)))) ∧
  (∀ i op s c, contextCommands i = some op → HeadIs s op c →
    (∀ x, s.ctx? c.ctx = some x → x.port ≠ c.port ∨ x.st = .draining) → ∃ t, exec i s = .next t ∧ Answered s t c 3 ∧ t.sched = s.sched) ∧
  (∀ s c, HeadIs s 1 c → s.createGate c = none →
    ((∀ id, id < 128 → (s.ctx? id).isSome = true) → ∃ t, exec .create s = .next t ∧ Answered s t c 1 ∧ t.sched = s.sched) ∧
    (∀ id, id < 128 → s.ctx? id = none → (∀ j, j < id → (s.ctx? j).isSome = true) →
      (let b := s.devRead c.w1.toNat 256
       (2 ^ 39 < c.w1.toNat + 256 ∨ descriptorBad b = true ∨ s.loadRegions (wordAt b 2) = none →
         ∃ t, exec .create s = .next t ∧ Answered s t c 2 ∧ t.sched = s.sched) ∧
       (∀ rs, c.w1.toNat + 256 ≤ 2 ^ 39 → descriptorBad b = false → s.loadRegions (wordAt b 2) = some rs →
         ∃ t x, exec .create s = .next t ∧ Answered s t c (id * 2 ^ 16) ∧ t.ctx? id = some x ∧ x.st = .live ∧ x.port = c.port ∧
           x.ptroot = wordAt b 0 ∧ x.cmode = BitVec.ofNat 10 (wordAt b 1) ∧ x.saveBase = wordAt b 3 ∧ x.saveSize = wordAt b 4 ∧
           x.fqBase = wordAt b 5 ∧ x.fqLog = wordAt b 6 ∧ x.handler = wordAt b 7 ∧ x.hangRpt = wordAt b 8 ∧ x.regions = rs ∧
           x.fences = [] ∧ x.fqProd = 0 ∧ x.fqCons = 0 ∧ x.hang = 0)))) ∧
  (∀ s c x, HeadIs s 2 c → s.ctx? c.ctx = some x → x.port = c.port → x.st ≠ .draining → s.destroyGate c = none →
    ∃ t y, exec .destroy s = .next t ∧ t.ctx? c.ctx = some y ∧ y.st = .draining ∧ y.drainReply = some (c.port, c.tag) ∧
      t.mgmt.cmds = s.mgmt.cmds.tail ∧ (∀ l ∈ t.sched.launches, l.ctx = c.ctx → l.status.isSome = true) ∧
      (∀ k ∈ t.eng.ceCmds, k.ctx ≠ c.ctx) ∧ (∀ k ∈ t.eng.feCmds, k.ctx ≠ c.ctx) ∧ ∀ e ∈ t.eng.ctt, e.ctx ≠ c.ctx) ∧
  (∀ s id x, s.mgmt.devState ≠ .fatal → s.ctx? id = some x → x.st = .draining → (∀ l ∈ s.sched.launches, l.ctx ≠ id) →
    (∀ g ∈ s.sched.groups, s.anyCtx g ≠ some id) → (∀ k ∈ s.eng.ceCmds, k.ctx ≠ id) → (∀ k ∈ s.eng.feCmds, k.ctx ≠ id) →
    s.vgate id ((s.ctxQueues id).map (fun q => (q.qbase + 24, 8, Access.write))) = none → ∃ t, exec (.contextDrainComplete id) s = .next t ∧ t.ctx? id = none ∧ (∀ q ∈ t.sched.queues, q.ctx ≠ id) ∧
      (∀ l ∈ t.heldLeaves, l.ctx ≠ id) ∧
      ∀ p n, x.drainReply = some (p, n) → s.linkDead (0x300 + p) = false → s.ms.hostLines = [] →
        (t.hostOf p).readLE (s.statBase p + 8 * n) 8 = 0) ∧
  (∀ s c x r, HeadIs s 3 c → s.ctx? c.ctx = some x → x.port = c.port → x.st ≠ .draining → x.region? c.idField = some r →
    (x.enclosing r.id = none → x.fenceContains r.id = true → ∃ t, exec .fence s = .next t ∧ Answered s t c 0 ∧ t.sched = s.sched) ∧
    (x.enclosing r.id = none → x.fenceContains r.id = false → ∃ t y, exec .fence s = .next t ∧ t.mgmt.cmds = s.mgmt.cmds.tail ∧
      t.ctx? c.ctx = some y ∧ Fencing x r.id y ∧ (∀ f ∈ y.fences, f ∉ x.fences → f.replies = [(c.port, c.tag)]) ∧
      (∀ q ∈ t.sched.queues, q.ctx = c.ctx → x.inSubtree r.id q.region = true → q.st ≠ .active) ∧
      ∀ k ∈ t.eng.ceCmds, k.ctx = c.ctx → x.inSubtree r.id k.region = false) ∧
    (∀ f, x.enclosing r.id = some f → ∃ t y, exec .fence s = .next t ∧ t.mgmt.cmds = s.mgmt.cmds.tail ∧ t.ctx? c.ctx = some y ∧
      y.regions = x.regions ∧ ∃ g ∈ y.fences, g.root = f.root ∧ (c.port, c.tag) ∈ g.replies)) ∧
  (∀ s c x r, HeadIs s 4 c → s.ctx? c.ctx = some x → x.port = c.port → x.st ≠ .draining → x.region? c.idField = some r →
    (r.st ≠ .fenced ∨ r.fenceRoot ≠ r.id ∨ (x.enclosing r.id).isSome = true → ∃ t, exec .resume s = .next t ∧ Answered s t c 3 ∧
      t.sched = s.sched) ∧
    (r.st = .fenced → r.fenceRoot = r.id → x.enclosing r.id = none → s.resumeGate c = none → ∃ t y, exec .resume s = .next t ∧ t.mgmt.cmds = s.mgmt.cmds.tail ∧
      t.ctx? c.ctx = some y ∧ (∀ k ∈ y.regions, x.inSubtree r.id k.id = true → k.st = .opened) ∧ (r.id = 0 → y.st = .live) ∧
      (∀ u ∈ s.sched.units, s.unitIn x r.id u.id = true → t.unit? u.id = none))) ∧
  (∀ s c x b, HeadIs s 5 c → s.ctx? c.ctx = some x → x.port = c.port → x.st ≠ .draining → c.idField < 256 → b = s.rcbBytes x.rtab c.idField →
    s.rupdateGate c = none →
    (rcbValid b = true → rcbBad c.idField b = true ∨ treeOk (x.withRegion c.idField b) = false →
      ∃ t, exec .rupdate s = .next t ∧ Answered s t c 2) ∧
    (rcbValid b = true → rcbBad c.idField b = false → treeOk (x.withRegion c.idField b) = true → ∃ t y, exec .rupdate s = .next t ∧
      Answered s t c 0 ∧ t.ctx? c.ctx = some y ∧ y = { x with regions := x.withRegion c.idField b }) ∧
    (rcbValid b = false → (x.region? c.idField).isSome = true →
      ((∃ r ∈ x.regions, r.id ≠ 0 ∧ r.parent = c.idField) ∨ (∃ q ∈ s.sched.queues, q.ctx = x.id ∧ q.region = c.idField) →
        ∃ t, exec .rupdate s = .next t ∧ Answered s t c 3 ∧ t.sched = s.sched) ∧
      ((∀ r ∈ x.regions, r.id = 0 ∨ r.parent ≠ c.idField) → (∀ q ∈ s.sched.queues, q.ctx ≠ x.id ∨ q.region ≠ c.idField) →
        (c.idField = 0 → ∃ t, exec .rupdate s = .next t ∧ Answered s t c 2) ∧
        (c.idField ≠ 0 → ∃ t y, exec .rupdate s = .next t ∧ Answered s t c 0 ∧ t.ctx? c.ctx = some y ∧
          y = { x with regions := x.regions.filter (fun r => r.id != c.idField) })))) ∧
  (∀ s c x, HeadIs s 10 c → s.ctx? c.ctx = some x → x.port = c.port → x.st ≠ .draining →
    ((∀ p, s.tokenEntry c.w1.toNat = some p → p.ctx ≠ x.id) → ∃ t, exec .fresolve s = .next t ∧ Answered s t c 5 ∧ t.sched = s.sched) ∧
    (∀ p, s.tokenEntry c.w1.toNat = some p → p.ctx = x.id → (c.mode ≠ 0 → s.failWaits p = false) → ∃ t, exec .fresolve s = .next t ∧ t.mgmt.cmds = s.mgmt.cmds.tail ∧
      t.pfe p.base p.index = { p with pending := false, gen := p.gen + 1 } ∧
      Answered s t c 0 ∧
      (c.mode = 0 → ∀ h l, s.group? h.core h.slot = some h → h.st = .faultWait p.base (some p.index) → h.saved = none →
        s.launchOf h = some l → s.drydown l.ctx = false → t.group? h.core h.slot = some { h with st := h.resumeSt, lateTrap := none }) ∧
      (∀ h u l a y, c.mode = 1 → s.launchOf h = some l → s.drydown l.ctx = false → s.sched.groups.filter (fun g => g.attachedTo p.base p.index) = [h] →
        s.group? h.core h.slot = some h → h.st = .faultWait p.base (some p.index) → h.hdl = none → h.lateTrap = some y → y.cause = 0x08 →
        s.unit? h.unit = some u → s.handlerOf u l.ctx 0x08 = a → a ≠ 0 → s.wgInHandler h = false →
        ∃ n f, t.group? h.core h.slot = some n ∧ n.st = .handler ∧ n.cause = 0x08 ∧ n.hdl = some f ∧ f.slot.pc = a))) ∧
  (∀ s c x, HeadIs s 11 c → s.ctx? c.ctx = some x → x.port = c.port → x.st ≠ .draining →
    ∃ t, exec .tlbinvCommand s = .next t ∧ t.mgmt.cmds = s.mgmt.cmds.tail ∧ t.mgmt.invals = s.mgmt.invals ++ [c] ∧
      (c.mode ≠ 0 → ∀ l ∈ t.heldLeaves, l.ctx ≠ x.id) ∧
      (c.mode = 0 → NoneHeld t x.id (c.w1.toNat / 2 ^ sizeLog c.size * 2 ^ sizeLog c.size)
        (c.w1.toNat / 2 ^ sizeLog c.size * 2 ^ sizeLog c.size + 2 ^ sizeLog c.size))) ∧
  (∀ s c, s.mgmt.devState ≠ .fatal → s.headCmd 11 = none → s.invalDone = some c → s.flushGate = none →
    ∃ t, exec .tlbinvCommand s = .next t ∧ t.mgmt.invals = s.mgmt.invals.erase c ∧ t.mgmt.cmds = s.mgmt.cmds ∧
      t.ms.partials = [] ∧ t.ms.pendings = [] ∧
      (s.linkDead (0x300 + c.port) = false → s.ms.hostLines = [] → (t.hostOf c.port).readLE (s.statBase c.port + 8 * c.tag) 8 = 0))

/-! ## Queues (spec files 04 and 05) -/

/-- R112, R113, R115, R116, R118, R120, R121, R95, while nothing holds up the accesses to the rings: QBIND binds the lowest free queue, QUNBIND frees an idle one, QSTART starts a stopped one, QCANCEL
cancels the records that have not started; a doorbell asks for WPTR to be read, WPTR_POLL reads it, and WALKER_PARSE enters the next
published record into the launch table: with status 2 where it is bad, else ready once it waits for nothing. A poll of CONS lets a held
fault record out. -/
def Obligations.Queues : Prop :=
  (∀ i op s c, queueCommands i = some op → HeadIs s op c → s.cmdQueue c = none → ∃ t, exec i s = .next t ∧ Answered s t c 3 ∧
    t.sched = s.sched) ∧
  (∀ s c x, HeadIs s 6 c → s.ctx? c.ctx = some x → x.port = c.port → x.st ≠ .draining → s.qbindGate c = none →
    (let b := s.devRead c.w1.toNat 32
     (c.w1.toNat % 32 ≠ 0 ∨ 2 ^ 39 < c.w1.toNat + 32 ∨ queueDescBad x b = true → ∃ t, exec .qbind s = .next t ∧ Answered s t c 2 ∧
       t.sched = s.sched) ∧
     (c.w1.toNat % 32 = 0 → c.w1.toNat + 32 ≤ 2 ^ 39 → queueDescBad x b = false →
       ((∀ j, j < 1024 → (s.queue? j).isSome = true) → ∃ t, exec .qbind s = .next t ∧ Answered s t c 4 ∧ t.sched = s.sched) ∧
       (∀ id, id < 1024 → s.queue? id = none → (∀ j, j < id → (s.queue? j).isSome = true) → ∃ t q, exec .qbind s = .next t ∧
         t.mgmt.cmds = s.mgmt.cmds.tail ∧ t.queue? id = some q ∧ q.ctx = c.ctx ∧ q.qbase = wordAt b 0 ∧ q.qlog = wordAt b 1 % 2 ^ 5 ∧
         q.producer = (wordAt b 1).testBit 5 ∧ q.stopOnErr = (wordAt b 1).testBit 6 ∧ q.region = wordAt b 1 / 2 ^ 8 % 2 ^ 8 ∧
         q.parsed = 0 ∧ q.retired = 0)))) ∧
  (∀ s c q, s.cmdQueue c = some q →
    (∀ p n, HeadIs s 7 c → s.headerGate c = none → q.st ≠ .held → s.vread q.ctx q.qbase 8 = some (p, leBytes 8 n) → n < 2 ^ 64 →
      (n = q.parsed → q.parsed = q.retired → ∃ t, exec .qunbind s = .next t ∧ t.mgmt.cmds = s.mgmt.cmds.tail ∧ t.queue? q.id = none) ∧
      (n ≠ q.parsed ∨ q.parsed ≠ q.retired → ∃ t, exec .qunbind s = .next t ∧ Answered s t c 3 ∧ t.sched = s.sched)) ∧
    (HeadIs s 8 c → s.headerGate c = none → (q.st ≠ .stopped → ∃ t, exec .qstart s = .next t ∧ Answered s t c 3 ∧ t.sched = s.sched) ∧
      (∀ p, q.st = .stopped → s.reach q.ctx (q.qbase + 8) 24 .write = .ok p → ∃ t x, exec .qstart s = .next t ∧
        t.mgmt.cmds = s.mgmt.cmds.tail ∧ t.queue? q.id = some x ∧ x = { q with st := .active, err := 0 })) ∧
    (HeadIs s 9 c → s.qcancelGate c = none → ∃ t, exec .qcancel s = .next t ∧ t.mgmt.cmds = s.mgmt.cmds.tail ∧
      ∀ l ∈ t.sched.launches, l.queue = q.id → l.done = true ∨ l.notStarted = false)) ∧
  (∀ s port id q, s.mgmt.devState = .ready → port < 2 → s.queue? id = some q → id < 1024 →
    ∃ t, exec (.qdoorbell port id) s = .next t ∧ t.queue? id = some { q with doorbell := true }) ∧
  (∀ s q p, s.mgmt.devState ≠ .fatal → s.queue? q.id = some q → q.st = .active → s.reach q.ctx q.qbase 8 .read = .ok p →
    ∃ t x, exec (.wptrPoll q.id) s = .next t ∧ t.queue? q.id = some x ∧ x = { q with wptr := leNat (s.placeRead p 8), doorbell := false, polled := x.polled }) ∧
  (∀ s q c p h b, s.mgmt.devState ≠ .fatal → s.queue? q.id = some q → s.ctx? q.ctx = some c → q.st = .active → q.ahead q.wptr ≠ 0 →
    (s.openRecords q.id).length < 64 → (s.sched.launches.filter (fun l => !l.done)).length < 4096 →
    s.reach q.ctx (q.entry q.parsed) 128 .read = .ok p → b = s.placeRead p 128 → s.reach q.ctx (q.qbase + 8) 24 .write = .ok h →
    (let r := launchRecOf b
     (recordBad b = true → s.vgate q.ctx [(r.kdesc, 256, .read)] = none → ∃ t l x, exec (.walkerParse q.id) s = .next t ∧
       t.sched.launches = s.sched.launches ++ [l] ∧ l.status = some 2 ∧ l.index = q.parsed ∧ l.queue = q.id ∧ t.queue? q.id = some x ∧
       x = { q with parsed := (q.parsed + 1) % 2 ^ 64 }) ∧
     (∀ region y, recordBad b = false → c.recordRegion q r = some region → s.reach q.ctx r.kdesc 256 .read = .ok y →
       kdescInvalid (s.placeRead y 256) = false → (kdescOf (s.placeRead y 256)).tooLarge = false → ∃ t l x, exec (.walkerParse q.id) s = .next t ∧
       t.sched.launches = s.sched.launches ++ [l] ∧ l.status = none ∧ l.index = q.parsed ∧ l.queue = q.id ∧ l.ctx = q.ctx ∧ l.region = region ∧
       l.record = r ∧ l.kd = kdescOf (s.placeRead y 256) ∧ l.nextWg = 0 ∧
       l.ready = (predCount b == 0 && (!r.waitPrev || s.prevDone q q.parsed)) ∧ t.queue? q.id = some x ∧ x = { q with parsed := (q.parsed + 1) % 2 ^ 64 }))) ∧
  (∀ s id c r rs, s.mgmt.devState ≠ .fatal → s.ctx? id = some c → c.fqHeld = r :: rs →
    (c.fqProd + 2 ^ 64 - s.devLE (c.fqBase + 8) 8 % 2 ^ 64) % 2 ^ 64 < 2 ^ c.fqLog → s.devGate (c.fqBase + 8) 8 = none → s.fqGate c = none →
    ∃ t x, exec (.faultQueueConsPoll id) s = .next t ∧ t.ctx? id = some x ∧ x.fqCons = s.devLE (c.fqBase + 8) 8 ∧
      x.fqHeld.length ≤ rs.length ∧ (rs = [] → x.fqProd = (c.fqProd + 1) % 2 ^ 64 ∧
        (c.fqNext + 64 ≤ c.fqBase ∨ c.fqBase + 8 ≤ c.fqNext → t.ms.mem.readLE c.fqNext 8 = r.1.toNat)))

namespace Sys2Proof.Claims

open Sys2Proof.Machine

/-! ## The scheduler -/

/-- What a group of a new unit holds (R137): registers zero but for the preloads, its first slot at ENTRY with every element. -/
structure StartedAs (l : Launch) (index scratch : Nat) (g : Group) : Prop where
  state : g.st = .running ∧ g.slot1.mask = 0 ∧ g.stack = [] ∧ g.flags = 0 ∧ g.ucond = 0
  entry : g.slot0.pc = l.kd.entry ∧ g.slot0.mask = fullMask l.kd.m
  uniform : g.s 0 = BitVec.ofNat 64 (l.record.param + l.kd.paramOff) ∧ g.s 1 = BitVec.ofNat 64 index ∧
    g.s 2 = BitVec.ofNat 64 (g.gi + l.kd.m * 2 ^ 8) ∧ g.s 4 = BitVec.ofNat 64 scratch ∧ g.s 6 = BitVec.ofNat 64 l.addr ∧ g.s 7 = 0
  rest : ∀ r, 8 ≤ r → g.s r = 0
  lanes : ∀ e, e < 32 * l.kd.m → g.v 0 e = BitVec.ofNat 32 (e % 32) ∧ g.v 1 e = BitVec.ofNat 32 (e / 32)
  vectors : ∀ r e, 2 ≤ r → g.v r e = 0
  predicates : ∀ r, g.p r = 0
  owes : g.acquire = some 8

/-- The KIND of R98 that a wait has in the hang report. -/
def kindOf : WaitKind → Nat
  | .bar _ _ => 0
  | .batch _ => 2
  | .pack _ => 2
  | .fence => 3
  | .regroup => 3

/-- The machine at the start of a selection pass. -/
def passStart (s : State) : State := { s with sched := { s.sched with selectDue := false } }

/-- The status word of a completed launch (R118, R122). -/
def doneWord (l : Launch) : Nat :=
  (match l.status with
   | some k => k + (if k = 5 then l.cause % 2 ^ 8 * 2 ^ 16 else 0)
   | none => if l.preempted then 6 else 0) + 2 ^ 8

/-- Nothing of a launch is under way, and it has a status, or all its workgroups have retired in an open region (R122). -/
structure LaunchOver (s : State) (l : Launch) : Prop where
  open' : l.done = false
  reached : l.status.isSome = true ∨ (l.ready = true ∧ l.record.total ≤ l.retiredWgs ∧ s.regionOpen l.ctx l.region = true)
  idle : s.launchBusy l.id = false

end Sys2Proof.Claims

/-! ## Scheduling (spec files 05 and 06) -/

/-- R124, R126, R137, R138, R145, R149, R122, R118: a selection pass with one ready launch of one workgroup that fits places its unit, every register
at its preload or zero, each group with an acquire at host scope to perform before its first instruction; a launch passed by others for 2^20 cycles becomes reserving; a RETIRING unit with nothing under way into its
scratch and no batched operation gives everything up, its workgroups are counted, its run reads zero; a launch that is over writes its status word with DONE
and leaves the table, and RETIRED moves past it, modulo 2^64, where it stands at the head. The first instruction of a started group, whichever it is,
runs as it does after the group's acquire. -/
def Obligations.Scheduling : Prop :=
  (∀ s l c x c1 ps, s.mgmt.devState = .ready → s.sched.selectDue = true → (passStart s).passOrder = [l] → s.launch? l.id = some l →
    (∀ m ∈ s.sched.launches, m.reserving = false) → (∀ u ∈ s.sched.units, u.launch ≠ l.id ∧ u.id ≠ s.sched.unitSeq) →
    (∀ g ∈ s.sched.groups, g.unit ≠ s.sched.unitSeq) → l.nextWg = 0 → l.record.total = 1 → 0 < l.kd.vgran → s.ctx? l.ctx = some c →
    (passStart s).findSite c l.region l.kd l.nextCount ((passStart s).admits l) = some x →
    c.takeSave (List.replicate (l.kd.groups * x.cores.length) 4096) = some (c1, ps) →
    ∃ t u m, exec .selectionPass s = .next t ∧ t.sched.selectDue = false ∧ t.unit? s.sched.unitSeq = some u ∧ u.launch = l.id ∧
      u.st = .running ∧ u.cluster = x.cluster ∧ u.scratch = x.run ∧ t.launch? l.id = some m ∧ m.nextWg = 1 ∧
      (t.unitGroups s.sched.unitSeq).length = l.kd.groups ∧
      ∀ g ∈ t.unitGroups s.sched.unitSeq, StartedAs l 0 (match x.run with
        | some r => r.1
        | none => 0) g) ∧
  (∀ s l, s.mgmt.devState ≠ .fatal → s.launch? l.id = some l → l.ready = true → l.reserving = false → l.bypassed = true → l.status = none →
    l.done = false → l.nextWg < l.record.total → 2 ^ 20 ≤ s.schedClock l.ctx - l.waitSince →
    ∃ t, exec (.launchReserving l.id) s = .next t ∧ t.launch? l.id = some { l with reserving := true } ∧ t.sched.selectDue = true) ∧
  (∀ s u l, s.mgmt.devState ≠ .fatal → s.unit? u.id = some u → u.st = .retiring → u.saved = false → s.runBusy u = false →
    (∀ g ∈ s.sched.groups, g.home = u.id → g.meq = []) → s.launch? u.launch = some l → s.regionOpen l.ctx l.region = true → ∃ t, exec (.unitRetire u.id) s = .next t ∧ t.unit? u.id = none ∧
      (∀ g ∈ t.sched.groups, g.unit = u.id → 32 ≤ g.slot) ∧ (∀ w ∈ t.sched.wgs, w.unit ≠ u.id) ∧
      t.launch? u.launch = some { l with retiredWgs := l.retiredWgs + u.wgs.length } ∧
      ∀ off len, u.scratch = some (off, len) → ∀ n, off ≤ n → n < off + len → (t.sramOf u.cluster).read n = 0) ∧
  (∀ s l q a b h, s.mgmt.devState ≠ .fatal → s.launch? l.id = some l → LaunchOver s l → (∀ u ∈ s.sched.units, u.launch ≠ l.id) →
    (∀ p ∈ s.ms.partials, p.core ∉ l.cores) → (∀ p ∈ s.ms.pendings, p.core ∉ l.cores) → l.record.kind = 0 → l.record.succn = 0 →
    s.queue? l.queue = some q → s.reach l.ctx (l.addr + 64) 8 .write = .ok (.dev a) → s.reach l.ctx (q.qbase + 8) 24 .write = .ok h →
    q.ctx = l.ctx → (s.deviceWrite (.dev a) (leBytes 8 (doneWord l))).reach q.ctx (q.qbase + 8) 24 .write = .ok (.dev b) →
    a + 8 ≤ b ∨ b + 24 ≤ a →
    ∃ t x, exec (.launchComplete l.id) s = .next t ∧ t.ms.mem.readLE a 8 = doneWord l % 2 ^ 64 ∧ t.launch? l.id = none ∧
      t.queue? q.id = some x ∧
      (l.index = q.retired → ∃ j, 1 ≤ j ∧ j ≤ q.doneIdx.length + 1 ∧ x.retired = (q.retired + j) % 2 ^ 64)) ∧
  (∀ ops body s c k, s.issuing = some c → c.g.hdl = none → c.g.relFence = none → c.g.lateTrap = none → c.g.acquire = some k →
    c.clears ops = true → runInstr s ops body = runInstr ((s.doAcquire c.g k).putGroup { c.g with acquire := none }) ops body) ∧
  (∀ i s c k, s.issuing = some c → c.g.hdl = none → c.g.relFence = none → c.g.lateTrap = none → c.g.acquire = some k →
    c.clears (operands i) = true → (i = .nop ∨ (∃ t d b x, i = .ld t d b x) ∨ (∃ t x b j, i = .st t x b j) ∨ ∃ d a b, i = .sadd d a b) →
    exec i s = exec i ((s.doAcquire c.g k).putGroup { c.g with acquire := none }))

/-- R93, R96, R97, R98, R99, R101, while no host holds bytes that the event accesses: a fence whose subtree has nothing under way dumps, and once its launches are over the subtree is FENCED
and the commands that waited are answered; a hang detector that has counted to HANGLIM starts again at 0 and a waiting group takes
HANG in its handler with the KIND of its wait in TINFO1; at a round boundary the turn wraps to slot 0 and the rounds of a recording or plain Drydown context's
workgroups count. -/
def Obligations.FencesAndRounds : Prop :=
  (∀ s id root c f, s.mgmt.devState ≠ .fatal → s.ctx? id = some c → c.fences.find? (fun g => g.root == root) = some f → f.st = .fencing →
    (∀ g ∈ s.regionGroups c root, g.drained = true ∧ g.blocked = none ∧ s.queued g = false) →
    (∀ g ∈ s.sched.groups, ∀ l ∈ s.runningLaunches c root, g.busyGhost l.id = false) →
    s.headersGate c root = none → ∃ t y, exec (.fenceOutstandingComplete id root) s = .next t ∧ t.ctx? id = some y ∧ t.sched.groups = s.sched.groups ∧
      (∀ r ∈ y.regions, c.inSubtree root r.id = true → r.st ≠ .fencing) ∧ ∀ g ∈ y.fences, g.root = root → g.st = .dumping) ∧
  (∀ s id root c f, s.mgmt.devState ≠ .fatal → s.ctx? id = some c → c.fences.find? (fun g => g.root == root) = some f → f.st = .dumping →
    (∀ l ∈ s.runningLaunches c root, s.launchBusy l.id = false) →
    s.vgate id ((s.runningLaunches c root).flatMap s.completionReach) = none → s.dumpGate c root = none →
    ∃ t y, exec (.fenceDumpComplete id root) s = .next t ∧ t.ctx? id = some y ∧
      (∀ r ∈ y.regions, c.inSubtree root r.id = true → r.st = .fenced ∧ r.fenceRoot = root) ∧
      (∀ g ∈ y.fences, c.inSubtree root g.root = false) ∧
      ∀ p n, c.fences = [f] → c.inSubtree root f.root = true → f.replies = [(p, n)] → s.linkDead (0x300 + p) = false → s.ms.hostLines = [] →
        (t.hostOf p).readLE (s.statBase p + 8 * n) 8 = 0) ∧
  (∀ s id c n g w u l a, s.mgmt.devState ≠ .fatal → s.ctx? id = some c → c.hangLim = some n → n ≤ c.hang → s.hangStep c = .count →
    s.drydown id = false → s.residents id = [g] → s.group? g.core g.slot = some g → g.st = .wait w → g.hdl = none → g.saved = none →
    s.unit? g.unit = some u → s.unitPaused g = false → s.launch? u.launch = some l → l.ctx = id → s.handlerOf u id 0x1C = a → a ≠ 0 →
    s.wgInHandler g = false → s.hangGate c = none → ∃ t y x f, exec (.hangDetectorExpiry id) s = .next t ∧ t.ctx? id = some y ∧ y.hang = 0 ∧
      t.group? g.core g.slot = some x ∧ x.st = .handler ∧ x.cause = 0x1C ∧ x.tinfo1 = BitVec.ofNat 64 (kindOf w) ∧ x.trappc = BitVec.ofNat 64 (g.pcSlot g.hangSlot).pc ∧
      x.hdl = some f ∧ f.slot.pc = a) ∧
  (∀ s core, s.mgmt.devState ≠ .fatal → s.rotating core = true → 32 ≤ s.turn core → (∀ c ∈ s.sched.ctxs, c.events = []) →
    (s.coreWgs core).findSome? s.ddGate = none → ∃ t, exec (.drydownRoundBoundary core) s = .next t ∧ t.turn core = 0 ∧ t.ms = s.ms ∧ t.sched.groups = s.sched.groups ∧
      ∀ w u l c, w ∈ s.sched.wgs → w.core = core → s.wg? w.unit w.index = some w →
        (∀ v ∈ s.sched.wgs, v.unit = w.unit → v.index = w.index → v = w) → s.unit? w.unit = some u → s.launch? u.launch = some l →
        s.ctx? l.ctx = some c → c.cmode.getLsbD 0 = true → c.cmode.getLsbD 2 = false →
        ∃ x, t.wg? w.unit w.index = some x ∧ x = { w with round := w.round + 1, hold := false })

namespace Sys2Proof.Claims

open Sys2Proof.Machine

/-! ## Caches, directories, hosts and peers -/

/-- `t` is `s` with other line records. -/
def LinesOnly (s t : State) : Prop := t = { s with ms := { s.ms with lines := t.ms.lines } }

/-- The record of line n is `r`; every other line has the record it had. -/
def LineIs (s t : State) (n : Nat) (r : LineRec) : Prop := t.line n = r ∧ ∀ k, k ≠ n → t.line k = s.line k

/-- A record of the error log (R457): appended with the next sequence number and announced on both ports, or counted as lost. -/
def Logged (s t : State) (cls kind unit addr detail : Nat) : Prop :=
  if (s.mgmt.errProd + 2 ^ 64 - s.mgmt.errCons % 2 ^ 64) % 2 ^ 64 = 1024 then
    t.mgmt.errLost = (s.mgmt.errLost + 1) % 2 ^ 64 ∧ t.mgmt.errLog = s.mgmt.errLog ∧ t.mgmt.errProd = s.mgmt.errProd
  else
    t.mgmt.errProd = (s.mgmt.errProd + 1) % 2 ^ 64 ∧ t.mgmt.errSeq = (s.mgmt.errSeq + 1) % 2 ^ 64 ∧ t.mgmt.errLost = s.mgmt.errLost ∧
      t.mgmt.msix = s.mgmt.msix ++ [(0, 0), (1, 0)] ∧
      lookupD (0, 0, 0, 0) t.mgmt.errLog (s.mgmt.errProd % 1024) =
        (BitVec.ofNat 64 (cls + kind * 2 ^ 4 + unit * 2 ^ 12), BitVec.ofNat 64 addr, BitVec.ofNat 64 detail, BitVec.ofNat 64 s.mgmt.errSeq)

/-- A counter of the LLC slice of a line has counted one event more (R459). -/
def Counted (s t : State) (n k : Nat) : Prop :=
  (lookupD (List.replicate 6 0) t.ms.llcCounters (llcSliceOf (128 * n)))[k]? =
    ((lookupD (List.replicate 6 0) s.ms.llcCounters (llcSliceOf (128 * n)))[k]?).map (fun x => (x + 1) % 2 ^ 64)

/-- The watch entries of every group, with the pending checks of a line answered struck (R232). -/
def ChecksStruck (s t : State) (n : Nat) : Prop :=
  t.sched = { s.sched with groups := s.sched.groups.map (fun g =>
    { g with watch := g.watch.map (fun e => { e with lines := e.lines.map (strikeLine n) }) }) }

/-- A shadow kill of a line is on its way to all eight dies (R226). -/
def KillsSent (s t : State) (n : Nat) : Prop :=
  t.ms.shadowKills = s.ms.shadowKills ++ [(0, n), (1, n), (2, n), (3, n), (4, n), (5, n), (6, n), (7, n)] ∧ ChecksStruck s t n ∧
    Counted s t n 4

/-- A half has come back to the device (R228): no port holds it, no snoop of it is on its way; bytes that came with it stand in memory
under a new version, else memory is as it was. -/
structure HalfBack (s t : State) (port line : Nat) (high : Bool) (data : Option (List Byte)) : Prop where
  home : (t.line line).half high = none
  other : (t.line line).half (!high) = (s.line line).half (!high)
  lines : ∀ k, k ≠ line → t.line k = s.line k
  snoop : ∀ c, (port, line, high, c) ∉ t.ms.backInv
  clean : data = none → t.ms.mem = s.ms.mem ∧ (t.line line).version = (s.line line).version
  dirty : ∀ bs, data = some bs → t.devRead (halfAt line high) 64 = bs ∧ (t.line line).version = (s.line line).version + 1 ∧
    ∀ a, (a < halfAt line high ∨ halfAt line high + 64 ≤ a) → t.ms.mem.read a = s.ms.mem.read a
  frame : t.sched = s.sched ∧ t.eng = s.eng ∧ t.fab = s.fab ∧ t.mgmt = s.mgmt

/-- Bytes written by a host or peer stand in device memory, every line touched with its next version, all other bytes as before. -/
def DeviceWritten (s t : State) (pa : Nat) (bs : List Byte) : Prop :=
  t.devRead pa bs.length = bs ∧ (∀ a, (a < pa ∨ pa + bs.length ≤ a) → t.ms.mem.read a = s.ms.mem.read a) ∧
    ∀ l ∈ linesOf pa bs.length, (t.line l).version = (s.line l).version + 1

/-- The width and the new value of a host's AtomicOp (R397). -/
def hostOp : HostAtomic → Nat × (Nat → Nat)
  | .fetchAdd true x => (8, fun o => (o + x.toNat) % 2 ^ 64)
  | .fetchAdd false x => (4, fun o => (o + x.toNat) % 2 ^ 32)
  | .swap true x => (8, fun _ => x.toNat)
  | .swap false x => (4, fun _ => x.toNat % 2 ^ 32)
  | .cas true c n => (8, fun o => if o = c.toNat then n.toNat else o)
  | .cas false c n => (4, fun o => if o = c.toNat % 2 ^ 32 then n.toNat % 2 ^ 32 else o)

/-- An export entry grants a peer an access of n bytes at pa (R401). -/
structure Grants (w0 w1 : Word64) (peer pa n : Nat) (read write : Bool) : Prop where
  valid : w0.getLsbD 0 = true
  reads : read = true → w0.getLsbD 1 = true
  writes : write = true → w0.getLsbD 2 = true
  peer : w0.getLsbD 3 = true ∨ w0.toNat / 2 ^ 4 % 2 ^ 8 = peer
  first : w0.toNat / 2 ^ 12 % 2 ^ 40 ≤ pa / 4096
  last : (pa + n - 1) / 4096 ≤ w1.toNat / 2 ^ 12 % 2 ^ 40

end Sys2Proof.Claims

/-! ## Events of caches, hosts and peers (spec files 09, 16 and 19) -/

/-- R221, R223, R225, R226, R241, R242, R244, R247, R455: a line leaves an L1, a die L2 or, recalled, its holder; the record of a line that no
die holds goes, and shadow kills go out for it; a kill takes a die's shadow and strikes its watch lines; shadows, peer copies and dead
stamps go; a directory error makes every core of the die a sharer, a holder record error loses the version, an uncorrectable
data error poisons the line. The class of that last record is a free value (log 8). -/
def Obligations.CacheEvents : Prop :=
  (∀ core line s, s.mgmt.devState ≠ .fatal → core ∈ (s.line line).sharers →
    (∀ p ∈ s.ms.partials, p.core = core → p.pa + p.n ≤ 128 * line ∨ 128 * line + 128 ≤ p.pa) →
    ∃ t, exec (.l1Eviction core line) s = .next t ∧ LinesOnly s t ∧
      LineIs s t line { s.line line with sharers :=
        if (s.line line).inexact then (s.line line).sharers else (s.line line).sharers.filter (· != core) }) ∧
  (∀ line s, s.mgmt.devState ≠ .fatal → (s.line line).holder ≠ none →
    ∃ t, exec (.llcRecall line) s = .next t ∧ t.ms.mem = s.ms.mem ∧ ChecksStruck s t line ∧ Counted s t line 3 ∧
      LineIs s t line { s.line line with holder := none, sharers := [], inexact := false, awayDie := none, awayCount := 0 }) ∧
  (∀ die line s, s.mgmt.devState ≠ .fatal → (s.line line).holder = some die →
    (∀ x ∈ s.ms.stamps, x.sector / 8 = line → s.stampLive x = false) →
    ∃ t, exec (.dieL2Eviction die line) s = .next t ∧ t.ms.mem = s.ms.mem ∧ ChecksStruck s t line ∧
      LineIs s t line { s.line line with holder := none, sharers := [], inexact := false, awayDie := none, awayCount := 0 }) ∧
  (∀ line s, s.mgmt.devState ≠ .fatal → (s.line line).recorded = true → (s.line line).holder = none →
    (∀ x ∈ s.ms.stamps, x.sector / 8 = line → s.stampLive x = false) → (∀ k ∈ s.ms.shadowKills, k.2 ≠ line) →
    ∃ t, exec (.llcRecordEviction line) s = .next t ∧ t.ms.mem = s.ms.mem ∧ KillsSent s t line ∧ (t.line line).recorded = false ∧
      (t.line line).version = 0 ∧ (t.line line).poison = (s.line line).poison ∧ (∀ h, (t.line line).half h = (s.line line).half h) ∧
      ∀ k, k ≠ line → t.line k = s.line k) ∧
  (∀ die line s, s.mgmt.devState ≠ .fatal → (die, line) ∈ s.ms.shadowKills →
    ∃ t, exec (.shadowKill die line) s = .next t ∧ t.ms.shadowKills = s.ms.shadowKills.erase (die, line) ∧
      (∀ h ∈ t.ms.shadows, h.die = die → h.line ≠ line) ∧ (∀ h ∈ s.ms.shadows, (h.die ≠ die ∨ h.line ≠ line) → h ∈ t.ms.shadows) ∧
      t.ms.mem = s.ms.mem ∧ ∀ g ∈ t.sched.groups, g.core / 32 = die → ∀ e ∈ g.watch, e.st = .pending → ∀ w ∈ e.lines, w.line ≠ line) ∧
  (∀ die line s, s.mgmt.devState ≠ .fatal → (∃ h ∈ s.ms.shadows, h.die = die ∧ h.line = line) →
    ∃ t, exec (.shadowExpiry die line) s = .next t ∧ t = { s with ms := { s.ms with shadows := t.ms.shadows } } ∧
      ∀ h, h ∈ t.ms.shadows ↔ h ∈ s.ms.shadows ∧ (h.die ≠ die ∨ h.line ≠ line)) ∧
  (∀ die peer line s, s.mgmt.devState ≠ .fatal → (∃ q ∈ s.ms.peerCopies, q.die = die ∧ q.peer = peer ∧ q.line = line) →
    ∃ t, exec (.peerCopyExpiry die peer line) s = .next t ∧ t = { s with ms := { s.ms with peerCopies := t.ms.peerCopies } } ∧
      ∀ q, q ∈ t.ms.peerCopies ↔ q ∈ s.ms.peerCopies ∧ ¬(q.die = die ∧ q.peer = peer ∧ q.line = line)) ∧
  (∀ die s, s.mgmt.devState ≠ .fatal → die < 8 → (∃ x ∈ s.ms.stamps, s.stampAt die x = true ∧ s.stampLive x = false) →
    ∃ t, exec (.stampSweep die) s = .next t ∧ t = { s with ms := { s.ms with stamps := t.ms.stamps } } ∧
      ∀ x, x ∈ t.ms.stamps ↔ x ∈ s.ms.stamps ∧ (s.stampAt die x = false ∨ s.stampLive x = true)) ∧
  (∀ die line s, s.mgmt.devState ≠ .fatal → (s.line line).holder = some die →
    ∃ t, exec (.directoryError die line) s = .next t ∧ Logged s t 0 2 die (128 * line) 0 ∧ t.ms.mem = s.ms.mem ∧ t.sched = s.sched ∧
      (∀ c, c ∈ (t.line line).sharers ↔ c / 32 = die) ∧ (t.line line).inexact = true ∧ (t.line line).holder = some die ∧
      (t.line line).version = (s.line line).version ∧ ∀ k, k ≠ line → t.line k = s.line k) ∧
  (∀ line s, s.mgmt.devState ≠ .fatal → (s.line line).recorded = true → (∀ k ∈ s.ms.shadowKills, k.2 ≠ line) →
    ∃ t, exec (.holderRecordError line) s = .next t ∧ Logged s t 0 3 (llcSliceOf (128 * line)) (128 * line) 0 ∧ t.ms.mem = s.ms.mem ∧
      KillsSent s t line ∧ LineIs s t line { s.line line with version := 0, recorded := (s.line line).holder.isSome }) ∧
  (∀ line s, s.mgmt.devState ≠ .fatal → 128 * line < 2 ^ 39 →
    ∃ t cls, exec (.uncorrectableDataError line) s = .next t ∧ cls < 5 ∧ Logged s t cls 4 (llcSliceOf (128 * line)) (128 * line) 0 ∧
      t.ms.mem = s.ms.mem ∧ t.sched = s.sched ∧ LineIs s t line { s.line line with poison := true })

/-- R228, R229, R230, R397, R401, R402, while no shadow kill of the line is on its way and the LLC has room for its record: a CXL host takes a half with its bytes; one that another port holds is called back first; what comes
back is written. A host reads, writes and executes AtomicOps on device memory; a snoop takes a modified host line home; a peer's access
is served where an export entry grants it and has no effect elsewhere; the oldest write to a host takes effect when it is
acknowledged. -/
def Obligations.HostAndPeerAccess : Prop :=
  (∀ port line high s, s.portServes port = true → (s.portModeOf port).hasMem = true → 128 * line < 2 ^ 39 →
    (∀ k ∈ s.ms.shadowKills, k.2 ≠ line) → s.llcFull line = false →
    ((s.line line).half high = none → ∃ t, exec (.hostTakesHalf port line high) s = .next t ∧
      LineIs s t line { (s.line line).setHalf high (some port) with recorded := true, cached := true } ∧
      t.mgmt = { s.mgmt with hostReply := s.devRead (halfAt line high) 64, hostPoison := (s.line line).poison } ∧
      t.ms.mem = s.ms.mem ∧ t.sched = s.sched) ∧
    (∀ q, (s.line line).half high = some q → q ≠ port → (∀ c, (q, line, high, c) ∉ s.ms.backInv) →
      exec (.hostTakesHalf port line high) s =
        .next { s with ms := { s.ms with backInv := s.ms.backInv ++ [(q, line, high, s.clock (.link (0x300 + q)))] } })) ∧
  (∀ port line high data s, s.mgmt.devState ≠ .fatal → s.linkCarries (0x300 + port) = true → (∀ bs, data = some bs → bs.length = 64) →
    (∀ k ∈ s.ms.shadowKills, k.2 ≠ line) → s.llcFull line = false →
    ((∃ c, (port, line, high, c) ∈ s.ms.backInv) →
      ∃ t, exec (.backInvalidateResponse port line high data) s = .next t ∧ HalfBack s t port line high data) ∧
    ((s.line line).half high = some port →
      ∃ t, exec (.hostWriteback port line high data) s = .next t ∧ HalfBack s t port line high data)) ∧
  (∀ port pa len s, s.portServes port = true → 0 < len → pa + len ≤ 2 ^ 39 →
    (s.placeGate (.dev pa) len = none →
      (len ≤ 4096 → exec (.hostBar2Access port pa len none) s =
        .next { s with mgmt := { s.mgmt with hostReply := s.devRead pa len, hostPoison := s.anyPoison pa len } }) ∧
      (∀ bs, bs.length = len → len ≤ 512 → ∃ t, exec (.hostBar2Access port pa len (some bs)) s = .next t ∧ DeviceWritten s t pa bs ∧
        t.sched = s.sched ∧ t.mgmt = s.mgmt)) ∧
    (∀ s', s.placeGate (.dev pa) len = some s' → s' ≠ s → len ≤ 4096 → exec (.hostBar2Access port pa len none) s = .next s')) ∧
  (∀ port pa op s n f, hostOp op = (n, f) → s.portServes port = true → pa % n = 0 → pa + n ≤ 2 ^ 39 → s.placeGate (.dev pa) n = none →
    s.anyPoison pa n = false → ∃ t, exec (.hostAtomicop port pa op) s = .next t ∧ t.mgmt.hostReply = s.devRead pa n ∧
      t.mgmt.hostPoison = false ∧ DeviceWritten s t pa (leBytes n (f (s.devLE pa n))) ∧ (t.line (pa / 128)).holder = none ∧
      Sys2Proof.Claims.Counted s t (pa / 128) 5) ∧
  (∀ port line drop s h, s.mgmt.devState ≠ .fatal → s.ms.hostLines.find? (fun k => k.port == port && k.line == line) = some h →
    ∃ t, exec (.cxlCacheSnoop port line drop) s = .next t ∧
      (h.modified = true → (t.hostOf port).readN (64 * line) h.bytes.length = h.bytes) ∧ (h.modified = false → t.ms.hostMem = s.ms.hostMem) ∧
      ∀ k ∈ t.ms.hostLines, k.port = port → k.line = line → drop = false ∧ k.modified = false) ∧
  (∀ peer pa req s n rd wr, peerNeeds req = (n, rd, wr) → s.mgmt.devState = .ready → 0 < n → pa + n ≤ 2 ^ 39 →
    ((∀ e ∈ s.fab.exports, ¬ Sys2Proof.Claims.Grants e.2.1 e.2.2 peer pa n rd wr) →
      exec (.peerAccessInbound peer pa req) s = .next { s with mgmt := { s.mgmt with peerReply := [] } }) ∧
    ((∃ e ∈ s.fab.exports, Sys2Proof.Claims.Grants e.2.1 e.2.2 peer pa n rd wr) → s.placeGate (.dev pa) n = none →
      ∃ t, exec (.peerAccessInbound peer pa req) s = .next t ∧ (∀ l ∈ linesOf pa n, (t.line l).holder = none) ∧
        (∀ k, req = .read k → t.mgmt.peerReply = s.devRead pa n ∧ t.ms.mem = s.ms.mem) ∧
        (∀ bs, req = .write bs → t.mgmt.peerReply = [] ∧ t.devRead pa n = bs) ∧
        (∀ op x y, req = .atomic op x y → op.val < 15 → t.mgmt.peerReply = leBytes 8 (s.devLE pa n) ∧
          t.devRead pa n = leBytes n (atomNew op.val (s.devLE pa n) x.toNat y.toNat)))) ∧
  (∀ port k s core slot w g a, s.mgmt.devState ≠ .fatal → s.linkCarries (0x300 + port) = true →
    (s.sentOn (0x300 + port))[k]? = some (core, slot, w) → (∀ y ∈ (s.sentOn (0x300 + port)).take k, y.1 = core → y.2.1 ≠ slot) →
    s.group? core slot = some g → w.place = .host port a → w.red = none → w.cmd = none → s.ms.hostLines = [] →
    ∃ t, exec (.hostWriteAcknowledged port k) s = .next t ∧ (t.hostOf port).readN a w.bytes.length = w.bytes ∧
      t.group? core slot = some { g with sent := g.sent.erase w } ∧ t.ms.mem = s.ms.mem)

namespace Sys2Proof.Claims

open Sys2Proof.Machine

/-! ## Links -/

/-- A transition of one link alone (R390): its state and the time of the transition; every other link, the groups, memory and engines
are as they were; the transition is logged with the old and the new state (R457), in a class of its own. -/
structure LinkMoved (s t : State) (id : Nat) (new : LState) : Prop where
  link : t.link? id = (s.link? id).map (fun l => { l with st := new, since := s.clock (.link id) })
  others : ∀ k, k ≠ id → t.link? k = s.link? k
  log : ∃ cls, cls < 5 ∧ Logged s t cls 6 id 0 ((s.linkState id).code + 2 ^ 8 * new.code)
  frame : t.sched = s.sched ∧ t.ms = s.ms ∧ t.eng = s.eng ∧ t.cur = s.cur

/-- What a link that goes DOWN or RETIRED takes with it (R390, R394, R396, R398): the state; no other link changes its own; the base-to-base
link, or a vertical bus without which a die has none in service, the device; a host port the contexts created through it. -/
structure LinkLost (s t : State) (id : Nat) (new : LState) : Prop where
  state : t.linkState id = new
  others : ∀ k, k ≠ id → t.linkState k = s.linkState k
  base : id = 0x180 → t.mgmt.devState = .fatal
  bus : id < 0x120 → (∃ d, d < 8 ∧ t.dieCut d = true) → t.mgmt.devState = .fatal
  host : ∀ p, p < 2 → id = 0x300 + p → ∀ x ∈ t.sched.ctxs, x.port = p → x.st = .draining

/-- An elevator router is being retired: DRAIN has been sent to it (R395 steps 1 to 3). -/
def DrainSent (s : State) (router : Nat) : State :=
  { s with fab := { s.fab with drains := s.fab.drains ++ [{ router := router, since := s.clock (.base (router / 16)) }] } }

/-- A router is closed: RETIRED, its DRAIN over, no other link touched; a die cut off from its base makes the device FATAL. -/
structure RouterClosed (s t : State) (router : Nat) : Prop where
  state : t.linkState (0x100 + router) = .retired
  others : ∀ k, k ≠ 0x100 + router → t.linkState k = s.linkState k
  drain : t.drainOf router = none
  die : (∃ d, d < 8 ∧ t.dieCut d = true) → t.mgmt.devState = .fatal
  frame : t.sched = s.sched ∧ t.ms = s.ms ∧ t.eng = s.eng

/-- A link after a flit whose header holds `q`, `a`, `k` (SEQ, ACK, KIND): what ACK names leaves the retry buffer; a flit of KIND 1 or 2
counts when its number is the expected one, is dropped when it came before, and is answered with a NAK otherwise (R392). -/
def afterFlit (l : Link) (q a k : Nat) : Link :=
  let m := match l.retry.findIdx? (fun f => f.seq == a) with
    | some i => { l with retry := l.retry.drop (i + 1) }
    | none => l
  if k = 1 ∨ k = 2 then
    if q = l.rxSeq then { m with rxSeq := (l.rxSeq + 1) % 4096, nakOut := none }
    else if (l.rxSeq + 4096 - q) % 4096 ≤ 2048 then m
    else { m with nakOut := some l.rxSeq }
  else m

/-- Flits sent once more: each counts it, unless one has now been sent 16 times; then every count starts again (R390). -/
def replayed (fs : List Flit) : List Flit :=
  if ∃ f ∈ fs, 15 ≤ f.replays then fs.map (fun f => { f with replays := 0 }) else fs.map (fun f => { f with replays := f.replays + 1 })

end Sys2Proof.Claims

/-! ## Links (spec file 16) -/

/-- R389 to R391, R393, R394, R396, R398: a link that trains is UP at full width and rate, else DEGRADED; a carrying link retrains on an error
or a command; failed training and an expired window take it DOWN, ENABLE back into TRAINING; RETIRE and RATE 3 take it out of
service with what depends on it; a write of VBT is kept. -/
def Obligations.LinkStates : Prop :=
  (∀ link width rate s l, s.mgmt.devState ≠ .fatal → s.link? link = some l →
    (l.st = .training ∨ (l.st = .retraining ∧ s.clock (.link link) - l.since < l.retwin)) → width < 4 → rate < 3 →
    (link < 256 → (s.vbtOf link).rate ≤ rate) →
    ∃ t m, exec (.linkTrained link width rate) s = .next t ∧ t.link? link = some m ∧
      m.st = (if width = 0 ∧ rate = 0 then .up else .degraded) ∧ m.width = width ∧ m.rate = rate ∧
      (∀ k, k ≠ link → t.linkState k = s.linkState k) ∧ t.ms = s.ms ∧ t.eng = s.eng) ∧
  (∀ link s, s.mgmt.devState ≠ .fatal → (s.linkState link = .training ∨ s.linkState link = .retraining) →
    ∃ t, exec (.linkTrainingFailed link) s = .next t ∧ LinkLost s t link .down) ∧
  (∀ link s, s.mgmt.devState ≠ .fatal → (s.linkState link = .up ∨ s.linkState link = .degraded) →
    (∃ t, exec (.linkErrorRetrain link) s = .next t ∧ LinkMoved s t link .retraining) ∧
    ∃ t, exec (.retrain link) s = .next t ∧ LinkMoved s t link .retraining) ∧
  (∀ link applied s l, s.mgmt.devState ≠ .fatal → s.link? link = some l → l.st = .retraining → l.retwin ≤ s.clock (.link link) - l.since →
    ∃ t, exec (.retwinExpiry link applied) s = .next t ∧ LinkLost s t link .down) ∧
  (∀ link s, s.mgmt.devState ≠ .fatal → s.linkState link = .down → ∃ t, exec (.enable link) s = .next t ∧ LinkMoved s t link .training) ∧
  (∀ link s, s.mgmt.devState ≠ .fatal → (s.link? link).isSome = true → s.linkState link ≠ .retired → (link < 0x100 ∨ 0x120 ≤ link) →
    ∃ t, exec (.retire link) s = .next t ∧ LinkLost s t link .retired) ∧
  (∀ bus word s, s.mgmt.devState ≠ .fatal → bus < 256 → ∃ t, exec (.vbtWrite bus word) s = .next t ∧
    t.vbtOf bus = { bus := bus, rate := word.toNat % 4, trim := word.toNat / 2 ^ 8 % 2 ^ 8 } ∧
    (∀ k, k ≠ bus → t.linkState k = s.linkState k) ∧
    (word.toNat % 4 = 3 → s.linkState bus ≠ .retired → t.linkState bus = .down) ∧
    (word.toNat % 4 ≠ 3 → (s.linkState bus = .up ∨ s.linkState bus = .degraded) → t.linkState bus = .retraining) ∧
    (word.toNat % 4 ≠ 3 → s.linkState bus ≠ .up → s.linkState bus ≠ .degraded → t.linkState bus = s.linkState bus)) ∧
  (∀ port line high c s l, s.mgmt.devState ≠ .fatal → port < 2 → (port, line, high, c) ∈ s.ms.backInv → s.link? (0x300 + port) = some l →
    l.st ≠ .down → l.st ≠ .retired → l.retwin ≤ s.clock (.link (0x300 + port)) - c →
    ∃ t, exec (.backInvalidateTimeout port line high) s = .next t ∧ LinkLost s t (0x300 + port) .down)

/-- R392, R395, R390: a flit that fails its check is answered with a NAK, one in sequence counts once, and its ACK empties the retry
buffer; a NAK counts a replay of each flit still in it, the sixteenth of one flit retrains the link. A packet in sequence, on a path whose
links carry traffic, is delivered and acknowledged, a duplicate dropped. A retired router drains, then closes; packets that it did not deliver in time, or cannot forward, take another router. -/
def Obligations.FlitsAndPackets : Prop :=
  (∀ port flit s l, s.mgmt.devState ≠ .fatal → port < 16 → s.linkCarries (0x200 + port) = true → s.link? (0x200 + port) = some l →
    flit.length = 256 → ∃ t, exec (.flitReceive port flit) s = .next t ∧
      t.link? (0x200 + port) = some (
        let f := Config.fecCorrect flit
        if (crc64 (f.take 240)).toNat = leNat ((f.drop 240).take 8) then
          afterFlit l (leNat (f.take 8) % 2 ^ 12) (leNat (f.take 8) / 2 ^ 12 % 2 ^ 12) (leNat (f.take 8) / 2 ^ 24 % 2 ^ 4)
        else { l with nakOut := some l.rxSeq }) ∧
      (∀ k, k ≠ 0x200 + port → t.link? k = s.link? k) ∧ ((∀ x ∈ s.sentOn (0x200 + port), x.2.2.cmd = none) → t.eng = s.eng) ∧ t.mgmt = s.mgmt) ∧
  (∀ port expected s l, s.mgmt.devState ≠ .fatal → port < 16 → s.linkCarries (0x200 + port) = true → s.link? (0x200 + port) = some l →
    (∀ k ∈ s.fab.links, k.id = 0x200 + port → k = l) → (∃ f ∈ l.retry, f.seq = expected) →
    ∃ t m, exec (.nakReceive port expected) s = .next t ∧ t.link? (0x200 + port) = some m ∧
      ∀ kept, kept = (match l.retry.findIdx? (fun f => f.seq == (expected + 4095) % 4096) with
          | some i => l.retry.drop (i + 1)
          | none => l.retry) →
        m.retry = replayed kept ∧ m.st = (if ∃ f ∈ kept, 15 ≤ f.replays then .retraining else l.st)) ∧
  (∀ flow seq s f p, s.mgmt.devState ≠ .fatal → s.fab.flows.find? (fun x => x.id == flow) = some f →
    f.unacked.find? (fun x => x.seq == seq) = some p →
    (∃ b, b < 32 ∧ s.linkCarries (32 * f.src + b) = true ∧ s.linkCarries (0x100 + 4 * f.src + b / 8) = true) →
    (baseOfDie f.src ≠ f.dst / 64 → s.linkCarries 0x180 = true) →
    (seq = f.expected → ∃ t, exec (.packetReceive flow seq) s = .next t ∧
      t.fab.flows.find? (fun x => x.id == flow) = some { f with unacked := f.unacked.filter (fun x => x.seq != seq), expected := seq + 1 } ∧
      (∀ g, s.group? p.core p.slot = some g → ∃ h, t.group? p.core p.slot = some h ∧ h = { g with stores := h.stores } ∧
        ∀ e ∈ h.stores, e.seq = p.store → ∀ w ∈ e.elems, w.place.lineNo = p.line → w.place.remote = false → w.arrived = true) ∧
      t.ms = s.ms ∧ t.eng = s.eng) ∧
    (seq < f.expected → ∃ t, exec (.packetReceive flow seq) s = .next t ∧ t.sched = s.sched ∧ t.ms = s.ms ∧
      t.fab.flows.find? (fun x => x.id == flow) = some { f with unacked := f.unacked.filter (fun x => x.seq != seq) })) ∧
  (∀ router s, s.mgmt.devState ≠ .fatal → router < 32 → s.linkState (0x100 + router) ≠ .retired → (∀ d ∈ s.fab.drains, d.router ≠ router) →
    exec (.routerRetire router) s = .next (DrainSent s router) ∧ exec (.retire (0x100 + router)) s = .next (DrainSent s router)) ∧
  (∀ router s d, s.mgmt.devState ≠ .fatal → s.drainOf router = some d →
    (s.clock (.base (router / 16)) - d.since ≤ 2 ^ 16 → (∀ f ∈ s.fab.flows, ∀ p ∈ f.unacked, p.via ≠ router) →
      ∃ t, exec (.routerDrainEmpty router) s = .next t ∧ RouterClosed s t router ∧ t.fab.flows = s.fab.flows) ∧
    (2 ^ 16 < s.clock (.base (router / 16)) - d.since ∨ s.linkCarries (0x100 + router) = false → ∃ t, exec (.routerDrainTimeout router) s = .next t ∧ RouterClosed s t router ∧
      ((∃ r, r < 4 ∧ 4 * (router / 4) + r ≠ router ∧ s.linkState (0x100 + 4 * (router / 4) + r) ≠ .retired ∧
          ∀ e ∈ s.fab.drains, e.router ≠ 4 * (router / 4) + r) → ∀ f ∈ t.fab.flows, ∀ p ∈ f.unacked, p.via ≠ router) ∧
      ∀ f ∈ s.fab.flows, f.unacked.length ≠ 0 → ∃ g ∈ t.fab.flows, g.id = f.id ∧ g.unacked.map (·.seq) = f.unacked.map (·.seq)))

namespace Sys2Proof.Claims

open Sys2Proof.Machine

/-! ## Resets and management -/

/-- The device after a device reset (R446, R447, R450): nothing runs, device memory, SRAM and caches are empty, links train, registers have
their Reset columns; the flash, the boot count and what lies outside the device stay. The boot ROM has taken the slot to be booted, else the
other one; where neither verifies the device is FATAL with FWERR. -/
structure DeviceReset (s t : State) : Prop where
  idle : t.cur = none ∧ t.sched = Sched.reset ∧ t.eng = Engines.reset
  memory : t.ms = { MemSys.reset with hostMem := s.ms.hostMem, peerMem := s.ms.peerMem }
  fabric : t.fab = { Fabric.reset with peerDeny := s.fab.peerDeny }
  ports : t.mgmt.ports = s.mgmt.ports.map (fun p => { Port.reset p.id with mode := p.mode })
  queues : t.mgmt.cmds = [] ∧ t.mgmt.attQueue = [] ∧ t.mgmt.errLog = [] ∧ t.mgmt.errProd = 0 ∧ t.mgmt.errCons = 0 ∧ t.mgmt.errLost = 0
  flash : t.mgmt.flash0 = s.mgmt.flash0 ∧ t.mgmt.flash1 = s.mgmt.flash1 ∧ t.mgmt.bootCount = s.mgmt.bootCount + 1
  slot : imageOk (s.mgmt.flash s.mgmt.fwNext) = true → t.mgmt.fwSlot = s.mgmt.fwNext ∧ t.mgmt.fwImage = s.mgmt.flash s.mgmt.fwNext
  otherSlot : imageOk (s.mgmt.flash s.mgmt.fwNext) = false → imageOk (s.mgmt.flash !s.mgmt.fwNext) = true →
    t.mgmt.fwSlot = !s.mgmt.fwNext ∧ t.mgmt.fwImage = s.mgmt.flash !s.mgmt.fwNext
  state : (t.mgmt.devState, t.mgmt.fwErr) =
    if imageOk (s.mgmt.flash s.mgmt.fwNext) = true ∨ imageOk (s.mgmt.flash !s.mgmt.fwNext) = true then (.boot, false) else (.fatal, true)

/-- The two ports of the device as the part has them (R27): port 0 and port 1, once each. -/
def PortsOk (s : State) : Prop := s.mgmt.ports.map (·.id) = [0, 1]

/-- `t` is `s` with other port registers, those of one port alone. -/
def PortOnly (s t : State) (port : Nat) (f : Port → Port) : Prop :=
  t = { s with mgmt := { s.mgmt with ports := t.mgmt.ports } } ∧ t.port? port = (s.port? port).map f ∧
    ∀ q, q ≠ port → t.port? q = s.port? q

/-- A fatal error of a region begins the fence of its fault domain (R91, R92). -/
def FaultDomainFences (s t : State) (ctx region : Nat) : Prop :=
  ∀ x, s.ctx? ctx = some x → ∃ y, t.ctx? ctx = some y ∧
    (x.fenceContains (x.faultRoot region) = false →
      y.fences = x.fences ++ [{ root := x.faultRoot region, st := .fencing, replies := [], fatal := true }]) ∧
    (x.fenceContains (x.faultRoot region) = true → y.fences = x.fences)

/-- The settings of a policy change where firmware applies it (R449). -/
def PolicyApplied (s t : State) : PolicyChange → Prop
  | .refuse => t.fab = s.fab ∧ t.sched = s.sched ∧ t.mgmt.govCap = s.mgmt.govCap
  | .devId n => t.fab = { s.fab with devId := n % 2 ^ 8 }
  | .route peer mask => lookupD 0 t.fab.routes (peer % 2 ^ 8) = mask % 2 ^ 16 ∧
      ∀ p, p ≠ peer % 2 ^ 8 → lookupD 0 t.fab.routes p = lookupD 0 s.fab.routes p
  | .exportEntry n w0 w1 => t.fab = { s.fab with exports := t.fab.exports } ∧ lookupD (0, 0) t.fab.exports (n % 64) = (w0, w1) ∧
      ∀ k, k ≠ n % 64 → lookupD (0, 0) t.fab.exports k = lookupD (0, 0) s.fab.exports k
  | .pwgt port few lsw => t.fab = { s.fab with pwgt := t.fab.pwgt } ∧
      lookupD (1, 1) t.fab.pwgt (port % 16) = (few % 2 ^ 8, lsw % 2 ^ 8)
  | .govCap w => t.fab = s.fab ∧ t.mgmt.govCap = w % 2 ^ 16

end Sys2Proof.Claims

/-! ## Management (spec file 19) -/

/-- R446, R447, R448, R450, R451: a power-on reset and an allowed device reset leave the device reset and booting; a refused one sets RSTREF of
the writing port, a word without GO does nothing. A port reset drains that port's contexts and resets its registers. Once the
buses and the base-to-base link have trained, firmware makes its settings and the device is READY, or FATAL where a die or the
base-to-base link is out of service. The watchdog's expiry is FATAL. -/
def Obligations.ResetsAndBoot : Prop :=
  (∀ s, ∃ t, exec .powerOnReset s = .next t ∧ DeviceReset s t) ∧
  (∀ port word s, PortsOk s → port < 2 →
    (word.getLsbD 0 = false → exec (.devrst port word) s = .next s) ∧
    (word.getLsbD 0 = true →
      ((∃ q, s.port? (1 - port) = some q ∧ q.rstAllow = true) ∨ (∀ x ∈ s.sched.ctxs, x.port = 1 - port → x.st = .draining) →
        ∃ t, exec (.devrst port word) s = .next t ∧ DeviceReset s t) ∧
      (∀ q x, s.port? (1 - port) = some q → q.rstAllow = false → x ∈ s.sched.ctxs → x.port = 1 - port → x.st ≠ .draining →
        ∃ t, exec (.devrst port word) s = .next t ∧ PortOnly s t port (fun p => { p with rstRef := true })))) ∧
  (∀ port s, s.mgmt.devState ≠ .fatal → PortsOk s → port < 2 → ∃ t, exec (.portReset port) s = .next t ∧
    (∀ x ∈ t.sched.ctxs, x.port = port → x.st = .draining) ∧
    t.port? port = (s.port? port).map (fun p => { Port.reset port with mode := p.mode }) ∧ t.port? (1 - port) = s.port? (1 - port)) ∧
  (∀ c s, s.mgmt.devState = .boot → (∀ l ∈ s.fab.links, l.id < 0x100 ∨ l.id = 0x180 → l.st ≠ .training) → c.exports.length ≤ 64 →
    ((∀ v ∈ c.vbts, v.2.1 % 4 ≠ 3) → s.linkDead 0x180 = false → (∀ d, d < 8 → s.dieCut d = false) →
      ∃ t, exec (.bootReady c) s = .next t ∧ t.mgmt.devState = .ready ∧ t.fab.devId = c.devId % 2 ^ 8 ∧
        t.fab.routes = c.routes.map (fun r => (r.1 % 2 ^ 8, r.2 % 2 ^ 16)) ∧
        (∀ n w, c.exports[n]? = some w → lookupD (0, 0) t.fab.exports n = w) ∧
        t.fab.pwgt = c.pwgt.map (fun w => (w.1, w.2.1 % 2 ^ 8, w.2.2 % 2 ^ 8)) ∧ t.ms = s.ms ∧ t.sched = s.sched) ∧
    (s.linkDead 0x180 = true ∨ (∃ d, d < 8 ∧ s.dieCut d = true ∧ c.vbts = []) →
      ∃ t, exec (.bootReady c) s = .next t ∧ t.mgmt.devState = .fatal)) ∧
  (∀ s, s.mgmt.devState ≠ .fatal → 2 ^ 30 ≤ s.clock .mc - s.mgmt.watchdog →
    ∃ t, exec .watchdogExpiry s = .next t ∧ t.mgmt.devState = .fatal ∧ Logged s t 3 11 0 0 0)

/-- R450, R453, R449, R91, R454, R414, R26: COMMIT puts a staged image that verifies into the inactive slot for the next reset; attestation
requests queue, 8 for each port, and the oldest is answered with its report and status; a policy request is applied or refused, and
logged; the governor sets its shares and the caps, under what the limiter allows; a limit lowers the core's matrix issue and then the links; single-bit errors are
logged, an uncorrectable error in a group's state is fatal to its region, in control state to the device. -/
def Obligations.FirmwareAndErrors : Prop :=
  (∀ s, s.mgmt.devState = .ready → ∃ t, exec .firmwareCommit s = .next t ∧ t.mgmt.flash s.mgmt.fwSlot = s.mgmt.flash s.mgmt.fwSlot ∧
    t.mgmt.flash (!s.mgmt.fwSlot) = (if imageOk s.mgmt.fwStage then s.mgmt.fwStage else s.mgmt.flash !s.mgmt.fwSlot) ∧
    t.mgmt.fwNext = (if imageOk s.mgmt.fwStage then !s.mgmt.fwSlot else s.mgmt.fwNext) ∧ t.mgmt.fwImage = s.mgmt.fwImage ∧
    t.mgmt.fwCommit = s.mgmt.fwCommit ||| 1 ∧ t.sched = s.sched ∧ t.ms = s.ms ∧ t.eng = s.eng ∧ t.fab = s.fab) ∧
  (∀ port word s p, s.mgmt.devState = .ready → s.port? port = some p →
    (let n := (s.mgmt.attQueue.filter (fun r => r.port == port)).length
     (8 ≤ n → ∃ t, exec (.attestationSubmit port word) s = .next t ∧ PortOnly s t port (fun q => { q with cmdOvf := true })) ∧
     (n < 8 → exec (.attestationSubmit port word) s = .next { s with mgmt := { s.mgmt with attQueue := s.mgmt.attQueue ++
       [{ port := port, tag := p.attW1.toNat / 2 ^ 32 % 2 ^ 16, addr := word.toNat / 64 * 64, nonce := p.attNonce.readN 0 64,
          bad := decide (p.attW1.toNat % 2 ^ 32 ≠ 0 ∨ p.attW1.toNat / 2 ^ 48 ≠ 0) }] } }))) ∧
  (∀ s r, s.mgmt.devState ≠ .fatal → s.mgmt.attQueue.head? = some r → s.linkCarries (0x300 + r.port) = true → s.ms.hostLines = [] →
    ∃ t, exec .attestationReport s = .next t ∧ t.mgmt = { s.mgmt with attQueue := s.mgmt.attQueue.tail } ∧
      (r.bad = true → (t.hostOf r.port).readLE (s.statBase r.port + 8 * r.tag) 8 = 6) ∧
      (r.bad = false → (t.hostOf r.port).readLE (s.statBase r.port + 8 * r.tag) 8 = 0 ∧
        (s.statBase r.port + 8 * r.tag + 8 ≤ r.addr ∨ r.addr + 640 ≤ s.statBase r.port + 8 * r.tag →
          (t.hostOf r.port).readN r.addr 640 = s.report r.nonce))) ∧
  (∀ n c s, s.mgmt.devState = .ready → ∃ t detail, exec (.policyRequest n c) s = .next t ∧ PolicyApplied s t c ∧
    Logged s t 4 13 0 0 detail ∧ t.ms = s.ms ∧ t.eng = s.eng) ∧
  (∀ me link caps s, s.mgmt.devState = .ready → me + link ≤ 1000 → (∀ c ∈ caps, c.1 ∈ linkIds) →
    ∃ t, exec (.governorTick me link caps) s = .next t ∧
      t = { s with mgmt := { s.mgmt with govMe := me, govLink := link }, fab := { s.fab with linkCaps := t.fab.linkCaps } } ∧
      (∀ c ∈ caps, 125 ≤ lookupD 1000 t.fab.linkCaps c.1) ∧ (∀ l, t.fab.linkRate l ≤ lookupD 1000 s.fab.linkLimits l) ∧
      ∀ l, (∀ c ∈ caps, c.1 ≠ l) → lookupD 1000 t.fab.linkCaps l = lookupD 1000 s.fab.linkCaps l) ∧
  (∀ core s, s.mgmt.devState ≠ .fatal → core < 256 → ∃ t, exec (.safetyLimit core) s = .next t ∧
    t.mgmt.govActions = (s.mgmt.govActions + 1) % 2 ^ 32 ∧ core ∈ t.mgmt.meThrottle ∧ Logged s t 4 12 core 0 0 ∧ t.ms = s.ms ∧
    t.sched = s.sched ∧ (core ∉ s.mgmt.meThrottle → t.fab = s.fab) ∧
    (core ∈ s.mgmt.meThrottle → t.fab.linkCaps = s.fab.linkCaps ∧ ∀ l ∈ linkIds, t.fab.linkRate l ≤ 125)) ∧
  (∀ unit addr s, s.mgmt.devState ≠ .fatal → unit < 1024 → ∃ t, exec (.singleBitEcc unit addr) s = .next t ∧ Logged s t 0 1 unit addr 0 ∧
    t.ms = s.ms ∧ t.sched = s.sched ∧ t.eng = s.eng ∧ t.fab = s.fab) ∧
  (∀ core slot s g u l, s.mgmt.devState ≠ .fatal → s.group? core slot = some g → s.unit? g.unit = some u → s.launch? u.launch = some l →
    ∃ t, exec (.uncorrectableStateError core slot) s = .next t ∧ FaultDomainFences s t l.ctx l.region ∧ t.mgmt.devState = s.mgmt.devState) ∧
  (∀ unit s, s.mgmt.devState ≠ .fatal → unit < 1024 → ∃ t, exec (.uncorrectableControlStateError unit) s = .next t ∧
    t.mgmt.devState = .fatal)

/-- R459, R461, R453, R389, R450: what a host writes into a register of BAR0 that has no event of its own, and what it reads back: RSTALLOW,
STATBASE, word 1 of CTXCMD and of ATTREQ, ATTNONCE, ERRCONS, POLREQ, LRETWIN (0 as 4,000), FWSTAGE with its COMMIT word; the W1C bits of
DEVSTAT; a write of DEVRST, CTXCMD or ATTREQ is that event; a write of a register that only firmware writes is ignored. -/
def Obligations.Registers : Prop :=
  ∀ port word s, s.mgmt.devState ≠ .boot → (s.port? port).isSome = true →
    (∃ t, exec (.registerWrite port 0x0 word) s = .next t ∧ PortOnly s t port (fun p =>
      { p with rstRef := p.rstRef && !word.getLsbD 4, cmdOvf := p.cmdOvf && !word.getLsbD 5 })) ∧
    (∃ t, exec (.registerWrite port 0x18 word) s = .next t ∧ PortOnly s t port (fun p => { p with rstAllow := word.getLsbD 0 }) ∧
      t.bar0Read port 0x18 = some (word.toNat % 2)) ∧
    (∃ t, exec (.registerWrite port 0x108 word) s = .next t ∧ PortOnly s t port (fun p => { p with cmdW1 := word })) ∧
    (∃ t, exec (.registerWrite port 0x110 word) s = .next t ∧ PortOnly s t port (fun p => { p with statBase := word.toNat / 8 * 8 }) ∧
      t.bar0Read port 0x110 = some (word.toNat / 8 * 8)) ∧
    (∀ k, k < 8 → ∃ t, exec (.registerWrite port (0x200 + 8 * k) word) s = .next t ∧
      PortOnly s t port (fun p => { p with attNonce := p.attNonce.writeLE (8 * k) 8 word.toNat })) ∧
    (∃ t, exec (.registerWrite port 0x248 word) s = .next t ∧ PortOnly s t port (fun p => { p with attW1 := word })) ∧
    (∃ t, exec (.registerWrite port 0x1008 word) s = .next t ∧ t = { s with mgmt := { s.mgmt with errCons := word.toNat } } ∧
      t.bar0Read port 0x1008 = some word.toNat) ∧
    (∀ k, k < 512 → ∃ t, exec (.registerWrite port (0x2000 + 8 * k) word) s = .next t ∧
      t = { s with mgmt := { s.mgmt with polReq := t.mgmt.polReq } } ∧ t.bar0Read port (0x2000 + 8 * k) = some word.toNat) ∧
    (∀ id l, id < 1024 → s.link? id = some l → ∃ t, exec (.registerWrite port (0x102000 + 8 * id) word) s = .next t ∧
      t.link? id = some { l with retwin := if word.toNat % 2 ^ 24 = 0 then 4000 else word.toNat % 2 ^ 24 } ∧
      (∀ k, k ≠ id → t.link? k = s.link? k) ∧
      t.bar0Read port (0x102000 + 8 * id) = some (if word.toNat % 2 ^ 24 = 0 then 4000 else word.toNat % 2 ^ 24)) ∧
    (∀ k, k < 2 ^ 21 - 1 → ∃ t, exec (.registerWrite port (0x1000000 + 8 * k) word) s = .next t ∧
      t = { s with mgmt := { s.mgmt with fwStage := t.mgmt.fwStage } } ∧ t.bar0Read port (0x1000000 + 8 * k) = some word.toNat) ∧
    (∃ t, exec (.registerWrite port 0x1FFFFF8 word) s = .next t ∧ t.mgmt.fwCommit = word ∧ t.bar0Read port 0x1FFFFF8 = some word.toNat ∧
      (word.getLsbD 0 = false → t = { s with mgmt := { s.mgmt with fwCommit := word } })) ∧
    exec (.registerWrite port 0x10 word) s = exec (.devrst port word) s ∧
    (∀ t, exec (.ctxcmdSubmit port word) s = .next t → exec (.registerWrite port 0x100 word) s = .next t) ∧
    (∀ t, exec (.attestationSubmit port word) s = .next t → exec (.registerWrite port 0x240 word) s = .next t) ∧
    (∀ off, off % 8 = 0 → (off = 0x8 ∨ off = 0x1000 ∨ off = 0x1010 ∨ (0x10000 ≤ off ∧ off < 0x102000) ∨ (0x104000 ≤ off ∧ off < 0x1000000) ∨
      (0x2000000 ≤ off ∧ off < 0x4000000)) → exec (.registerWrite port off word) s = .next s)

/-! ## The machine as a whole: reset, decoding, steps -/

/-- R389, R390, R413, R446, R448, R457, R461, R86, R207: what a reset leaves by the Reset columns: every link in TRAINING at full width and rate
with no discards, RETWIN 4,000, empty retry buffers and sequence numbers 0; weights 1 and 1; the device in BOOT; the port registers, the log
and the counters 0; no context, queue, launch or group; every memory reads zero; no fault entry pending. Memory's zero and the registers without a
stated reset are the model's (logs 4, 5). The invariants of this file hold there. -/
def Obligations.ResetValues : Prop :=
  (∀ id l, State.reset.link? id = some l → l.lstat = 0 ∧ l.retwin = 4000 ∧ l.st = .training ∧ l.retry = [] ∧ l.txSeq = 0 ∧ l.rxSeq = 0) ∧
  (∀ id, (State.reset.link? id).isSome = true ↔ id < 0x120 ∨ id = 0x180 ∨ (0x200 ≤ id ∧ id < 0x210) ∨ id = 0x300 ∨ id = 0x301) ∧
  (∀ p, lookupD (1, 1) State.reset.fab.pwgt p = (1, 1)) ∧
  (∀ b, State.reset.vbtOf b = { bus := b, rate := 0, trim := 0x80 }) ∧
  State.reset.devstat 0 = 0 ∧ State.reset.devstat 1 = 0 ∧ (∀ p n, (State.reset.port? p).isSome = true → State.reset.bar0Read p n = if n = 0 then some 0 else none) ∧
  State.reset.mgmt.errLog = [] ∧ State.reset.mgmt.errProd = 0 ∧ State.reset.mgmt.errLost = 0 ∧ State.reset.mgmt.errSeq = 0 ∧
  (∀ s, lookupD (List.replicate 6 0) State.reset.ms.llcCounters s = [0, 0, 0, 0, 0, 0]) ∧
  (∀ id, State.reset.ctx? id = none ∧ State.reset.queue? id = none ∧ State.reset.launch? id = none ∧ State.reset.unit? id = none) ∧
  (∀ core slot, State.reset.group? core slot = none) ∧ (∀ a, State.reset.ms.mem.read a = 0) ∧ (∀ c a, (State.reset.sramOf c).read a = 0) ∧
  (∀ b i, (State.reset.pfe b i).pending = false) ∧ State.reset.memOk ∧ State.reset.capsOk ∧ PortsOk State.reset

/-- R59, R60, R62, R69, R71: worked words of the manual read as the instructions that stand beside them. -/
def Obligations.DecodeWords : Prop :=
  decodeTableWord 32 0xFFA14209 = some (.vaddi 4 5 (-3)) ∧ decodeTableWord 16 0x3864 = some (.fmulF32Compact 3 7) ∧
  decodeTableWord 16 0x48BC = some (.vmovCompact 5 9) ∧ decodeTableWord 32 0xC8505011 = some (.faddF32 10 20 (.v 100)) ∧
  decodeTableWord 32 0x18244403 = some (.vaddI32 8 9 (.s 12)) ∧ decodeTableWord 32 0x03081021 = some (.sadd 1 2 3) ∧
  decodeTableWord 32 0x007D04A5 = some (.sli 9 1000) ∧ decodeTableWord 32 0xFFFFD031 = some (.bra (-6)) ∧
  decodeTableWord 32 0x82286441 = some (.ld 8 12 10 (some 2)) ∧ decodeTableWord 32 0x22101865 = some (.mma 3 0 1 2 2) ∧
  decodeTableWord 32 0x00000039 = some (.nop) ∧ decodeTableWord 32 0x0000003B = some (.exit) ∧
  decodeTableWord 32 0x00C040B3 = some (.brd 1 8 6) ∧ decodeTableWord 32 0xFFFFF037 = some (.loop 0 (-2)) ∧
  decodeTableWord 32 0x822822C7 = some (.ldHn 5 4 10 (some 2)) ∧ decodeTableWord 32 0xFFF44FC7 = some (.hnchk 9 (-6)) ∧
  decodeTableWord 32 0x86542A45 = some (.lds 4 5 21 (some 6)) ∧ decodeTableWord 32 0x43283849 = some (.atom 0 7 10 3 4) ∧
  decodeTableWord 32 0x6130494B = some (.red 2 9 12 1 6) ∧ decodeTableWord 32 0x600000CD = some (.fenceRel 6) ∧
  decodeTableWord 32 0x0060014F = some (.hcpy 24) ∧ decodeTableWord 32 0x0B2890D7 = some (.tlbinv 9 10 11) ∧
  decodeTableWord 32 0x040421A9 = some (.pandn 4 1 2) ∧ decodeTableWord 32 0x8A18209B = some (.cvt 1 4 6 5 8) ∧
  decodeTableWord 32 0x2A24A29F = some (.vmovs 20 9 21) ∧ decodeTableWord 32 0x0B283161 = some (.tld 3 10 11) ∧
  decodeTableWord 32 0x00242063 = some (.aballoc 2 9) ∧ decodeTableWord 32 0x00C855F1 = some (.xroundF64 3 10 2 3) ∧
  decodeTableWord 32 0x00299073 = some (.xpack 2 3 10) ∧ decodeTableWord 32 0x155041D1 = some (.bwait 4 20 21)

/-- R60, R62, R64, R69: for every well-formed instruction, decoding its encoding gives it back, with every operand at every value. -/
def Obligations.DecodeEncode : Prop := ∀ i n w, i.wf = true → i.encode = some (n, w) → decodeTableWord n w = some i

/-- R59, R71, R129: the bytes at an issuing PC slot are fetched two by two through the translation; what they decode to is well formed
and is what runs, unless a handler's frame or a late trap comes first, and bytes that are no instruction trap; a step of a part with nothing else to do is the issue of its one
group, and a turn of the agenda that names a core is the same. -/
def Obligations.StepRunsDecoded : Prop :=
  (∀ (c : Iss) pc ea l a, (c.st.translate (some c.g.core) (dieOfCore c.g.core) c.ctx pc).access .exec pc = .ok ea l →
    c.st.placeOf l ea = .dev a → c.st.placeGate (.dev a) 2 = none → c.st.poisonAt (.dev a) 2 = false →
    c.fetchHalf pc = .ok (c.st.fillTlb (some c.g.core) (dieOfCore c.g.core) c.ctx pc, c.st.devRead a 2)) ∧
  (∀ (c : Iss) s1 s2 b1 b2, c.fetchHalf c.ps.pc = .ok (s1, b1) →
    (leNat b1 % 2 = 0 → c.fetch = .ok (s1, b1)) ∧
    (leNat b1 % 2 = 1 → ({ c with st := s1 } : Iss).fetchHalf ((c.ps.pc + 2) % 2 ^ 64) = .ok (s2, b2) → c.fetch = .ok (s2, b1 ++ b2))) ∧
  (∀ (s : State) core slot which (c : Iss) (t : State) bs, (s.withCur core slot which []).issuing = some c → c.beforeFetch = none → c.fetch = .ok (t, bs) →
    (∀ i n, decodeBytes bs = .ok (i, n) → i.wf = true ∧ s.issueSlot core slot which = exec i (t.withCur core slot which bs)) ∧
    (∀ e, decodeBytes bs = .error e → s.issueSlot core slot which = exec (.illegalEncoding (rawOf bs)) (t.withCur core slot which bs))) ∧
  (∀ (s : State) core g which before after (c : Iss) (s1 : State) bs i n (t : State), s.coreGroups core = [g] → g.slots = before ++ which :: after →
    (∀ w ∈ before, (s.withCur core g.slot w []).issuing = none) → s.rotating core = false → g.core = core →
    (s.withCur core g.slot which []).issuing = some c → c.beforeFetch = none → c.fetch = .ok (s1, bs) → decodeBytes bs = .ok (i, n) →
    exec i (s1.withCur core g.slot which bs) = .next t → t.cur = none →
    (s.agenda = [] → s.mgmt.devState ≠ .fatal → s.internalEvent = none → s.busyCores = [core] → step s = .next { t with rr := core }) ∧
    ∀ rest, s.agenda = rest → step { s with agenda := .issue core :: rest } = .next t) ∧
  (∀ (s : State) i, step { s with agenda := .event i :: s.agenda } = exec i s)

/-- R454: only a device reset leaves FATAL: no turn but a power-on reset or a write of DEVRST, as an event or as a register of BAR0, changes
DEVSTAT.STATE of a FATAL device, and none completes a launch. None but the dump that it attempts for a context changes a group's state or a byte
of device memory or SRAM. That attempt, which is the model's reading (log 11), goes ahead while a region of the context is not yet
fenced as a whole and no host holds what it writes; it writes no status word. With no turn to take the device attempts the dump of the
first context that still has one, else only time passes. -/
def Obligations.OnlyResetLeavesFatal : Prop :=
  (∀ s t : State, s.mgmt.devState = .fatal → s.agenda.head? ≠ some (.event .powerOnReset) →
    (∀ port word, s.agenda.head? ≠ some (.event (.devrst port word)) ∧ s.agenda.head? ≠ some (.event (.registerWrite port 0x10 word))) →
    step s = .next t →
    t.mgmt.devState = .fatal ∧ t.sched.launches = s.sched.launches ∧
      (s.agenda ≠ [] → (∀ ctx region, s.agenda.head? ≠ some (.event (.fenceDumpComplete ctx region))) →
        t.sched.groups = s.sched.groups ∧ t.ms.mem = s.ms.mem ∧ t.ms.sram = s.ms.sram)) ∧
  (∀ s id c, s.mgmt.devState = .fatal → s.ctx? id = some c → (∃ r ∈ c.regions, r.st ≠ .fenced ∨ r.fenceRoot ≠ 0) → s.dumpGate c 0 = none →
    ∃ t, exec (.fenceDumpComplete id 0) s = .next t ∧ t.mgmt.devState = .fatal ∧ t.ms.hostMem = s.ms.hostMem ∧
      t.sched.launches = s.sched.launches) ∧
  (∀ s : State, s.mgmt.devState = .fatal → s.agenda = [] →
    (∃ c ∈ s.sched.ctxs, step s = exec (.fenceDumpComplete c.id 0) s) ∨
    ((∀ c ∈ s.sched.ctxs, ∀ t, exec (.fenceDumpComplete c.id 0) s ≠ .next t) ∧ step s = .next s.idle))

/-- R414: the hardware keeps what the governor and what the limiter allow every link at one eighth of full rate or more, whatever either or a
program does: an invariant of every step. -/
def Obligations.StepKeepsCaps : Prop := ∀ s t : State, s.capsOk → step s = .next t → t.capsOk

/-! ## Statements of several parts -/

/-- R294 to R298: the vector integer instructions: with two sources, on pairs, and with an immediate. -/
def Obligations.IntegerArithmetic : Prop := Claims.IntegerVector ∧ Claims.IntegerPair ∧ Claims.IntegerImmediate

/-- R301 to R306, R308: the uniform instructions, and those that write UCOND. -/
def Obligations.UniformInstructions : Prop := Claims.UniformArithmetic ∧ Claims.UniformCondition

/-- R38: rounding keeps a code of its own format, and goes to a nearest one. -/
def Obligations.Rounding : Prop := Claims.RoundingKeepsCodes ∧ Claims.RoundingNearest

/-- R35, R318: minimum and maximum of two operands, and the float compares. -/
def Obligations.CompareMinimumMaximum : Prop := Claims.MinimumMaximum ∧ Claims.FloatCompare

/-- R312, R321, R323, R329 to R331: the instructions of the special-function and conversion queues issue, and their entries complete. -/
def Obligations.QueuedFunctions : Prop := Claims.SpecialFunctionIssue ∧ Claims.ConversionIssue ∧ Claims.QueueEntryCompletes

/-- R67, R68, R71, R161, R162, R181: the operand checks, the traps that an instruction raises by itself, and the layout of TINFO3. -/
def Obligations.Traps : Prop := Claims.OperandChecks ∧ Claims.RaisedTraps ∧ Claims.TrapInfoLayout

/-- R170, R172 to R174: branches, calls and returns. -/
def Obligations.Branching : Prop := Claims.Branches ∧ Claims.CallAndReturn

/-- R166, R171: brd and join. -/
def Obligations.Divergence : Prop := Claims.DivergentBranch ∧ Claims.Reconvergence

/-- R178, R180 to R183: what a handler does to return and with its held siblings. -/
def Obligations.Handlers : Prop := Claims.TrapReturn ∧ Claims.HandlerInstructionsOutside ∧ Claims.GroupInspection ∧ Claims.GroupRelease

/-- R243, R332, R336, R337: the address and the value of raw elements. -/
def Obligations.RawValues : Prop := Claims.RawAccess ∧ Claims.LoadValue

/-- R246, R336, R337, R402: ld and st issue. -/
def Obligations.LoadAndStoreIssue : Prop := Claims.LoadIssue ∧ Claims.StoreIssue ∧ Claims.ReleasePassed

/-- R221, R223, R245, R246, R337: loads return and stores are applied, line by line. -/
def Obligations.LoadAndStoreCompletion : Prop := Claims.LoadReturns ∧ Claims.StoreApplies

/-- R231 to R233, R341, R342: ld.hn, hnchk and the checks of watch lines. -/
def Obligations.HeadnoteLoads : Prop := Claims.HeadnoteLoad ∧ Claims.HeadnoteBytes ∧ Claims.HeadnoteChecks
end

