-- ==== Sys2Proof/Laws/Decode.lean ====
section
/-! SUPPORT. What the decoder's two-part result means: its well-formedness and its run are those of the instruction itself. -/

namespace Sys2Proof

/-- The check on what was read is the check on the instruction. -/
theorem Read.wf_eq (r : Read) : r.instr.wf = r.wf := by
  cases r with
  | now i => rfl
  | late l => cases l <;> rfl

/-- A read that passes the check is well formed. -/
theorem Decode.check_wf {r q : Read} (h : Decode.check r = .ok q) : q.instr.wf = true := by
  unfold Decode.check at h
  split at h
  · cases h; rw [Read.wf_eq]; assumption
  · cases h

/-- What a word reads as is well formed. -/
theorem readWord_wf {w : Nat} {r : Read} (h : readWord w = .ok r) : r.instr.wf = true := by
  unfold readWord at h
  split at h
  · exact Decode.check_wf h
  · cases h

/-- What bytes read as is well formed, and its length is two or four. -/
theorem readBytes_wf {bs : List Byte} {r : Read} {n : Nat} (h : readBytes bs = .ok (r, n)) :
    r.instr.wf = true ∧ (n = 2 ∨ n = 4) := by
  unfold readBytes at h
  split at h
  · rename_i b0 b1 rest
    by_cases e : b0.toNat % 2 = 0
    · simp only [e, if_true, readHalf, Except.map] at h
      split at h
      · cases h
      · rename_i q hq; cases h; exact ⟨Decode.check_wf hq, .inl rfl⟩
    · simp only [e, if_false] at h
      split at h
      · simp only [Except.map] at h
        split at h
        · cases h
        · rename_i q hq; cases h; exact ⟨readWord_wf hq, .inr rfl⟩
      · cases h
  · cases h

namespace Machine

/-- A late row runs as exec runs its instruction. -/
theorem Late.run_eq (l : Late) (s : State) : Late.run l s = exec l.instr s := by cases l <;> rfl

/-- What was read runs as exec runs it. -/
theorem runRead_ok (r : Read) (n : Nat) (raw : Word32) (s : State) : runRead (.ok (r, n)) raw s = exec r.instr s := by
  cases r with
  | now i => rfl
  | late l => exact Late.run_eq l s

/-- Bytes that are no instruction run as the illegal encoding. -/
theorem runRead_error (e : DecodeError) (raw : Word32) (s : State) :
    runRead (.error e) raw s = exec (.illegalEncoding raw) s := rfl

end Machine

end Sys2Proof
end

