-- ==== Sys2Proof/Laws/State.lean ====
section
/-! SUPPORT. One lemma for every field that an update of the state leaves as it was, so that no proof unfolds a record
update. -/

namespace Sys2Proof.Machine

@[simp] theorem State.putGroup_cur (s : State) (g : Group) : (s.putGroup g).cur = s.cur := rfl
@[simp] theorem State.putGroup_agenda (s : State) (g : Group) : (s.putGroup g).agenda = s.agenda := rfl
@[simp] theorem State.putGroup_rr (s : State) (g : Group) : (s.putGroup g).rr = s.rr := rfl
@[simp] theorem State.putGroup_freeCtr (s : State) (g : Group) : (s.putGroup g).freeCtr = s.freeCtr := rfl
@[simp] theorem State.putGroup_clocks (s : State) (g : Group) : (s.putGroup g).clocks = s.clocks := rfl
@[simp] theorem State.putGroup_ms (s : State) (g : Group) : (s.putGroup g).ms = s.ms := rfl
@[simp] theorem State.putGroup_eng (s : State) (g : Group) : (s.putGroup g).eng = s.eng := rfl
@[simp] theorem State.putGroup_fab (s : State) (g : Group) : (s.putGroup g).fab = s.fab := rfl
@[simp] theorem State.putGroup_mgmt (s : State) (g : Group) : (s.putGroup g).mgmt = s.mgmt := rfl
@[simp] theorem State.putGroup_sched_ctxs (s : State) (g : Group) : (s.putGroup g).sched.ctxs = s.sched.ctxs := rfl
@[simp] theorem State.putGroup_sched_queues (s : State) (g : Group) : (s.putGroup g).sched.queues = s.sched.queues := rfl
@[simp] theorem State.putGroup_sched_launches (s : State) (g : Group) : (s.putGroup g).sched.launches = s.sched.launches := rfl
@[simp] theorem State.putGroup_sched_units (s : State) (g : Group) : (s.putGroup g).sched.units = s.sched.units := rfl
@[simp] theorem State.putGroup_sched_wgs (s : State) (g : Group) : (s.putGroup g).sched.wgs = s.sched.wgs := rfl
@[simp] theorem State.putGroup_sched_parseSeq (s : State) (g : Group) : (s.putGroup g).sched.parseSeq = s.sched.parseSeq := rfl
@[simp] theorem State.putGroup_sched_placeSeq (s : State) (g : Group) : (s.putGroup g).sched.placeSeq = s.sched.placeSeq := rfl
@[simp] theorem State.putGroup_sched_unitSeq (s : State) (g : Group) : (s.putGroup g).sched.unitSeq = s.sched.unitSeq := rfl
@[simp] theorem State.putGroup_sched_genSeq (s : State) (g : Group) : (s.putGroup g).sched.genSeq = s.sched.genSeq := rfl
@[simp] theorem State.putGroup_sched_selectDue (s : State) (g : Group) : (s.putGroup g).sched.selectDue = s.sched.selectDue := rfl
@[simp] theorem State.putGroup_sched_turns (s : State) (g : Group) : (s.putGroup g).sched.turns = s.sched.turns := rfl

@[simp] theorem State.mapGroups_cur (s : State) (f : Group → Group) : (s.mapGroups f).cur = s.cur := rfl
@[simp] theorem State.mapGroups_agenda (s : State) (f : Group → Group) : (s.mapGroups f).agenda = s.agenda := rfl
@[simp] theorem State.mapGroups_rr (s : State) (f : Group → Group) : (s.mapGroups f).rr = s.rr := rfl
@[simp] theorem State.mapGroups_freeCtr (s : State) (f : Group → Group) : (s.mapGroups f).freeCtr = s.freeCtr := rfl
@[simp] theorem State.mapGroups_clocks (s : State) (f : Group → Group) : (s.mapGroups f).clocks = s.clocks := rfl
@[simp] theorem State.mapGroups_ms (s : State) (f : Group → Group) : (s.mapGroups f).ms = s.ms := rfl
@[simp] theorem State.mapGroups_eng (s : State) (f : Group → Group) : (s.mapGroups f).eng = s.eng := rfl
@[simp] theorem State.mapGroups_fab (s : State) (f : Group → Group) : (s.mapGroups f).fab = s.fab := rfl
@[simp] theorem State.mapGroups_mgmt (s : State) (f : Group → Group) : (s.mapGroups f).mgmt = s.mgmt := rfl
@[simp] theorem State.mapGroups_sched_ctxs (s : State) (f : Group → Group) : (s.mapGroups f).sched.ctxs = s.sched.ctxs := rfl
@[simp] theorem State.mapGroups_sched_queues (s : State) (f : Group → Group) : (s.mapGroups f).sched.queues = s.sched.queues := rfl
@[simp] theorem State.mapGroups_sched_launches (s : State) (f : Group → Group) : (s.mapGroups f).sched.launches = s.sched.launches := rfl
@[simp] theorem State.mapGroups_sched_units (s : State) (f : Group → Group) : (s.mapGroups f).sched.units = s.sched.units := rfl
@[simp] theorem State.mapGroups_sched_wgs (s : State) (f : Group → Group) : (s.mapGroups f).sched.wgs = s.sched.wgs := rfl
@[simp] theorem State.mapGroups_sched_parseSeq (s : State) (f : Group → Group) : (s.mapGroups f).sched.parseSeq = s.sched.parseSeq := rfl
@[simp] theorem State.mapGroups_sched_placeSeq (s : State) (f : Group → Group) : (s.mapGroups f).sched.placeSeq = s.sched.placeSeq := rfl
@[simp] theorem State.mapGroups_sched_unitSeq (s : State) (f : Group → Group) : (s.mapGroups f).sched.unitSeq = s.sched.unitSeq := rfl
@[simp] theorem State.mapGroups_sched_genSeq (s : State) (f : Group → Group) : (s.mapGroups f).sched.genSeq = s.sched.genSeq := rfl
@[simp] theorem State.mapGroups_sched_selectDue (s : State) (f : Group → Group) : (s.mapGroups f).sched.selectDue = s.sched.selectDue := rfl
@[simp] theorem State.mapGroups_sched_turns (s : State) (f : Group → Group) : (s.mapGroups f).sched.turns = s.sched.turns := rfl

@[simp] theorem State.putUnit_cur (s : State) (u : HUnit) : (s.putUnit u).cur = s.cur := rfl
@[simp] theorem State.putUnit_agenda (s : State) (u : HUnit) : (s.putUnit u).agenda = s.agenda := rfl
@[simp] theorem State.putUnit_rr (s : State) (u : HUnit) : (s.putUnit u).rr = s.rr := rfl
@[simp] theorem State.putUnit_freeCtr (s : State) (u : HUnit) : (s.putUnit u).freeCtr = s.freeCtr := rfl
@[simp] theorem State.putUnit_clocks (s : State) (u : HUnit) : (s.putUnit u).clocks = s.clocks := rfl
@[simp] theorem State.putUnit_ms (s : State) (u : HUnit) : (s.putUnit u).ms = s.ms := rfl
@[simp] theorem State.putUnit_eng (s : State) (u : HUnit) : (s.putUnit u).eng = s.eng := rfl
@[simp] theorem State.putUnit_fab (s : State) (u : HUnit) : (s.putUnit u).fab = s.fab := rfl
@[simp] theorem State.putUnit_mgmt (s : State) (u : HUnit) : (s.putUnit u).mgmt = s.mgmt := rfl
@[simp] theorem State.putUnit_sched_ctxs (s : State) (u : HUnit) : (s.putUnit u).sched.ctxs = s.sched.ctxs := rfl
@[simp] theorem State.putUnit_sched_queues (s : State) (u : HUnit) : (s.putUnit u).sched.queues = s.sched.queues := rfl
@[simp] theorem State.putUnit_sched_launches (s : State) (u : HUnit) : (s.putUnit u).sched.launches = s.sched.launches := rfl
@[simp] theorem State.putUnit_sched_wgs (s : State) (u : HUnit) : (s.putUnit u).sched.wgs = s.sched.wgs := rfl
@[simp] theorem State.putUnit_sched_groups (s : State) (u : HUnit) : (s.putUnit u).sched.groups = s.sched.groups := rfl
@[simp] theorem State.putUnit_sched_parseSeq (s : State) (u : HUnit) : (s.putUnit u).sched.parseSeq = s.sched.parseSeq := rfl
@[simp] theorem State.putUnit_sched_placeSeq (s : State) (u : HUnit) : (s.putUnit u).sched.placeSeq = s.sched.placeSeq := rfl
@[simp] theorem State.putUnit_sched_unitSeq (s : State) (u : HUnit) : (s.putUnit u).sched.unitSeq = s.sched.unitSeq := rfl
@[simp] theorem State.putUnit_sched_genSeq (s : State) (u : HUnit) : (s.putUnit u).sched.genSeq = s.sched.genSeq := rfl
@[simp] theorem State.putUnit_sched_selectDue (s : State) (u : HUnit) : (s.putUnit u).sched.selectDue = s.sched.selectDue := rfl
@[simp] theorem State.putUnit_sched_turns (s : State) (u : HUnit) : (s.putUnit u).sched.turns = s.sched.turns := rfl

@[simp] theorem State.putWg_cur (s : State) (w : Workgroup) : (s.putWg w).cur = s.cur := rfl
@[simp] theorem State.putWg_agenda (s : State) (w : Workgroup) : (s.putWg w).agenda = s.agenda := rfl
@[simp] theorem State.putWg_rr (s : State) (w : Workgroup) : (s.putWg w).rr = s.rr := rfl
@[simp] theorem State.putWg_freeCtr (s : State) (w : Workgroup) : (s.putWg w).freeCtr = s.freeCtr := rfl
@[simp] theorem State.putWg_clocks (s : State) (w : Workgroup) : (s.putWg w).clocks = s.clocks := rfl
@[simp] theorem State.putWg_ms (s : State) (w : Workgroup) : (s.putWg w).ms = s.ms := rfl
@[simp] theorem State.putWg_eng (s : State) (w : Workgroup) : (s.putWg w).eng = s.eng := rfl
@[simp] theorem State.putWg_fab (s : State) (w : Workgroup) : (s.putWg w).fab = s.fab := rfl
@[simp] theorem State.putWg_mgmt (s : State) (w : Workgroup) : (s.putWg w).mgmt = s.mgmt := rfl
@[simp] theorem State.putWg_sched_ctxs (s : State) (w : Workgroup) : (s.putWg w).sched.ctxs = s.sched.ctxs := rfl
@[simp] theorem State.putWg_sched_queues (s : State) (w : Workgroup) : (s.putWg w).sched.queues = s.sched.queues := rfl
@[simp] theorem State.putWg_sched_launches (s : State) (w : Workgroup) : (s.putWg w).sched.launches = s.sched.launches := rfl
@[simp] theorem State.putWg_sched_units (s : State) (w : Workgroup) : (s.putWg w).sched.units = s.sched.units := rfl
@[simp] theorem State.putWg_sched_groups (s : State) (w : Workgroup) : (s.putWg w).sched.groups = s.sched.groups := rfl
@[simp] theorem State.putWg_sched_parseSeq (s : State) (w : Workgroup) : (s.putWg w).sched.parseSeq = s.sched.parseSeq := rfl
@[simp] theorem State.putWg_sched_placeSeq (s : State) (w : Workgroup) : (s.putWg w).sched.placeSeq = s.sched.placeSeq := rfl
@[simp] theorem State.putWg_sched_unitSeq (s : State) (w : Workgroup) : (s.putWg w).sched.unitSeq = s.sched.unitSeq := rfl
@[simp] theorem State.putWg_sched_genSeq (s : State) (w : Workgroup) : (s.putWg w).sched.genSeq = s.sched.genSeq := rfl
@[simp] theorem State.putWg_sched_selectDue (s : State) (w : Workgroup) : (s.putWg w).sched.selectDue = s.sched.selectDue := rfl
@[simp] theorem State.putWg_sched_turns (s : State) (w : Workgroup) : (s.putWg w).sched.turns = s.sched.turns := rfl

@[simp] theorem State.putLaunch_cur (s : State) (l : Launch) : (s.putLaunch l).cur = s.cur := rfl
@[simp] theorem State.putLaunch_agenda (s : State) (l : Launch) : (s.putLaunch l).agenda = s.agenda := rfl
@[simp] theorem State.putLaunch_rr (s : State) (l : Launch) : (s.putLaunch l).rr = s.rr := rfl
@[simp] theorem State.putLaunch_freeCtr (s : State) (l : Launch) : (s.putLaunch l).freeCtr = s.freeCtr := rfl
@[simp] theorem State.putLaunch_clocks (s : State) (l : Launch) : (s.putLaunch l).clocks = s.clocks := rfl
@[simp] theorem State.putLaunch_ms (s : State) (l : Launch) : (s.putLaunch l).ms = s.ms := rfl
@[simp] theorem State.putLaunch_eng (s : State) (l : Launch) : (s.putLaunch l).eng = s.eng := rfl
@[simp] theorem State.putLaunch_fab (s : State) (l : Launch) : (s.putLaunch l).fab = s.fab := rfl
@[simp] theorem State.putLaunch_mgmt (s : State) (l : Launch) : (s.putLaunch l).mgmt = s.mgmt := rfl
@[simp] theorem State.putLaunch_sched_ctxs (s : State) (l : Launch) : (s.putLaunch l).sched.ctxs = s.sched.ctxs := rfl
@[simp] theorem State.putLaunch_sched_queues (s : State) (l : Launch) : (s.putLaunch l).sched.queues = s.sched.queues := rfl
@[simp] theorem State.putLaunch_sched_units (s : State) (l : Launch) : (s.putLaunch l).sched.units = s.sched.units := rfl
@[simp] theorem State.putLaunch_sched_wgs (s : State) (l : Launch) : (s.putLaunch l).sched.wgs = s.sched.wgs := rfl
@[simp] theorem State.putLaunch_sched_groups (s : State) (l : Launch) : (s.putLaunch l).sched.groups = s.sched.groups := rfl
@[simp] theorem State.putLaunch_sched_parseSeq (s : State) (l : Launch) : (s.putLaunch l).sched.parseSeq = s.sched.parseSeq := rfl
@[simp] theorem State.putLaunch_sched_placeSeq (s : State) (l : Launch) : (s.putLaunch l).sched.placeSeq = s.sched.placeSeq := rfl
@[simp] theorem State.putLaunch_sched_unitSeq (s : State) (l : Launch) : (s.putLaunch l).sched.unitSeq = s.sched.unitSeq := rfl
@[simp] theorem State.putLaunch_sched_genSeq (s : State) (l : Launch) : (s.putLaunch l).sched.genSeq = s.sched.genSeq := rfl
@[simp] theorem State.putLaunch_sched_selectDue (s : State) (l : Launch) : (s.putLaunch l).sched.selectDue = s.sched.selectDue := rfl
@[simp] theorem State.putLaunch_sched_turns (s : State) (l : Launch) : (s.putLaunch l).sched.turns = s.sched.turns := rfl

@[simp] theorem State.putQueue_cur (s : State) (q : Queue) : (s.putQueue q).cur = s.cur := rfl
@[simp] theorem State.putQueue_agenda (s : State) (q : Queue) : (s.putQueue q).agenda = s.agenda := rfl
@[simp] theorem State.putQueue_rr (s : State) (q : Queue) : (s.putQueue q).rr = s.rr := rfl
@[simp] theorem State.putQueue_freeCtr (s : State) (q : Queue) : (s.putQueue q).freeCtr = s.freeCtr := rfl
@[simp] theorem State.putQueue_clocks (s : State) (q : Queue) : (s.putQueue q).clocks = s.clocks := rfl
@[simp] theorem State.putQueue_ms (s : State) (q : Queue) : (s.putQueue q).ms = s.ms := rfl
@[simp] theorem State.putQueue_eng (s : State) (q : Queue) : (s.putQueue q).eng = s.eng := rfl
@[simp] theorem State.putQueue_fab (s : State) (q : Queue) : (s.putQueue q).fab = s.fab := rfl
@[simp] theorem State.putQueue_mgmt (s : State) (q : Queue) : (s.putQueue q).mgmt = s.mgmt := rfl
@[simp] theorem State.putQueue_sched_ctxs (s : State) (q : Queue) : (s.putQueue q).sched.ctxs = s.sched.ctxs := rfl
@[simp] theorem State.putQueue_sched_launches (s : State) (q : Queue) : (s.putQueue q).sched.launches = s.sched.launches := rfl
@[simp] theorem State.putQueue_sched_units (s : State) (q : Queue) : (s.putQueue q).sched.units = s.sched.units := rfl
@[simp] theorem State.putQueue_sched_wgs (s : State) (q : Queue) : (s.putQueue q).sched.wgs = s.sched.wgs := rfl
@[simp] theorem State.putQueue_sched_groups (s : State) (q : Queue) : (s.putQueue q).sched.groups = s.sched.groups := rfl
@[simp] theorem State.putQueue_sched_parseSeq (s : State) (q : Queue) : (s.putQueue q).sched.parseSeq = s.sched.parseSeq := rfl
@[simp] theorem State.putQueue_sched_placeSeq (s : State) (q : Queue) : (s.putQueue q).sched.placeSeq = s.sched.placeSeq := rfl
@[simp] theorem State.putQueue_sched_unitSeq (s : State) (q : Queue) : (s.putQueue q).sched.unitSeq = s.sched.unitSeq := rfl
@[simp] theorem State.putQueue_sched_genSeq (s : State) (q : Queue) : (s.putQueue q).sched.genSeq = s.sched.genSeq := rfl
@[simp] theorem State.putQueue_sched_selectDue (s : State) (q : Queue) : (s.putQueue q).sched.selectDue = s.sched.selectDue := rfl
@[simp] theorem State.putQueue_sched_turns (s : State) (q : Queue) : (s.putQueue q).sched.turns = s.sched.turns := rfl

@[simp] theorem State.putCtx_cur (s : State) (c : Context) : (s.putCtx c).cur = s.cur := rfl
@[simp] theorem State.putCtx_agenda (s : State) (c : Context) : (s.putCtx c).agenda = s.agenda := rfl
@[simp] theorem State.putCtx_rr (s : State) (c : Context) : (s.putCtx c).rr = s.rr := rfl
@[simp] theorem State.putCtx_freeCtr (s : State) (c : Context) : (s.putCtx c).freeCtr = s.freeCtr := rfl
@[simp] theorem State.putCtx_clocks (s : State) (c : Context) : (s.putCtx c).clocks = s.clocks := rfl
@[simp] theorem State.putCtx_ms (s : State) (c : Context) : (s.putCtx c).ms = s.ms := rfl
@[simp] theorem State.putCtx_eng (s : State) (c : Context) : (s.putCtx c).eng = s.eng := rfl
@[simp] theorem State.putCtx_fab (s : State) (c : Context) : (s.putCtx c).fab = s.fab := rfl
@[simp] theorem State.putCtx_mgmt (s : State) (c : Context) : (s.putCtx c).mgmt = s.mgmt := rfl
@[simp] theorem State.putCtx_sched_queues (s : State) (c : Context) : (s.putCtx c).sched.queues = s.sched.queues := rfl
@[simp] theorem State.putCtx_sched_launches (s : State) (c : Context) : (s.putCtx c).sched.launches = s.sched.launches := rfl
@[simp] theorem State.putCtx_sched_units (s : State) (c : Context) : (s.putCtx c).sched.units = s.sched.units := rfl
@[simp] theorem State.putCtx_sched_wgs (s : State) (c : Context) : (s.putCtx c).sched.wgs = s.sched.wgs := rfl
@[simp] theorem State.putCtx_sched_groups (s : State) (c : Context) : (s.putCtx c).sched.groups = s.sched.groups := rfl
@[simp] theorem State.putCtx_sched_parseSeq (s : State) (c : Context) : (s.putCtx c).sched.parseSeq = s.sched.parseSeq := rfl
@[simp] theorem State.putCtx_sched_placeSeq (s : State) (c : Context) : (s.putCtx c).sched.placeSeq = s.sched.placeSeq := rfl
@[simp] theorem State.putCtx_sched_unitSeq (s : State) (c : Context) : (s.putCtx c).sched.unitSeq = s.sched.unitSeq := rfl
@[simp] theorem State.putCtx_sched_genSeq (s : State) (c : Context) : (s.putCtx c).sched.genSeq = s.sched.genSeq := rfl
@[simp] theorem State.putCtx_sched_selectDue (s : State) (c : Context) : (s.putCtx c).sched.selectDue = s.sched.selectDue := rfl
@[simp] theorem State.putCtx_sched_turns (s : State) (c : Context) : (s.putCtx c).sched.turns = s.sched.turns := rfl

@[simp] theorem State.mapCtx_cur (s : State) (k : Nat) (f : Context → Context) : (s.mapCtx k f).cur = s.cur := rfl
@[simp] theorem State.mapCtx_agenda (s : State) (k : Nat) (f : Context → Context) : (s.mapCtx k f).agenda = s.agenda := rfl
@[simp] theorem State.mapCtx_rr (s : State) (k : Nat) (f : Context → Context) : (s.mapCtx k f).rr = s.rr := rfl
@[simp] theorem State.mapCtx_freeCtr (s : State) (k : Nat) (f : Context → Context) : (s.mapCtx k f).freeCtr = s.freeCtr := rfl
@[simp] theorem State.mapCtx_clocks (s : State) (k : Nat) (f : Context → Context) : (s.mapCtx k f).clocks = s.clocks := rfl
@[simp] theorem State.mapCtx_ms (s : State) (k : Nat) (f : Context → Context) : (s.mapCtx k f).ms = s.ms := rfl
@[simp] theorem State.mapCtx_eng (s : State) (k : Nat) (f : Context → Context) : (s.mapCtx k f).eng = s.eng := rfl
@[simp] theorem State.mapCtx_fab (s : State) (k : Nat) (f : Context → Context) : (s.mapCtx k f).fab = s.fab := rfl
@[simp] theorem State.mapCtx_mgmt (s : State) (k : Nat) (f : Context → Context) : (s.mapCtx k f).mgmt = s.mgmt := rfl
@[simp] theorem State.mapCtx_sched_queues (s : State) (k : Nat) (f : Context → Context) : (s.mapCtx k f).sched.queues = s.sched.queues := rfl
@[simp] theorem State.mapCtx_sched_launches (s : State) (k : Nat) (f : Context → Context) : (s.mapCtx k f).sched.launches = s.sched.launches := rfl
@[simp] theorem State.mapCtx_sched_units (s : State) (k : Nat) (f : Context → Context) : (s.mapCtx k f).sched.units = s.sched.units := rfl
@[simp] theorem State.mapCtx_sched_wgs (s : State) (k : Nat) (f : Context → Context) : (s.mapCtx k f).sched.wgs = s.sched.wgs := rfl
@[simp] theorem State.mapCtx_sched_groups (s : State) (k : Nat) (f : Context → Context) : (s.mapCtx k f).sched.groups = s.sched.groups := rfl
@[simp] theorem State.mapCtx_sched_parseSeq (s : State) (k : Nat) (f : Context → Context) : (s.mapCtx k f).sched.parseSeq = s.sched.parseSeq := rfl
@[simp] theorem State.mapCtx_sched_placeSeq (s : State) (k : Nat) (f : Context → Context) : (s.mapCtx k f).sched.placeSeq = s.sched.placeSeq := rfl
@[simp] theorem State.mapCtx_sched_unitSeq (s : State) (k : Nat) (f : Context → Context) : (s.mapCtx k f).sched.unitSeq = s.sched.unitSeq := rfl
@[simp] theorem State.mapCtx_sched_genSeq (s : State) (k : Nat) (f : Context → Context) : (s.mapCtx k f).sched.genSeq = s.sched.genSeq := rfl
@[simp] theorem State.mapCtx_sched_selectDue (s : State) (k : Nat) (f : Context → Context) : (s.mapCtx k f).sched.selectDue = s.sched.selectDue := rfl
@[simp] theorem State.mapCtx_sched_turns (s : State) (k : Nat) (f : Context → Context) : (s.mapCtx k f).sched.turns = s.sched.turns := rfl

@[simp] theorem State.endLaunch_cur (s : State) (k x y : Nat) : (s.endLaunch k x y).cur = s.cur := rfl
@[simp] theorem State.endLaunch_agenda (s : State) (k x y : Nat) : (s.endLaunch k x y).agenda = s.agenda := rfl
@[simp] theorem State.endLaunch_rr (s : State) (k x y : Nat) : (s.endLaunch k x y).rr = s.rr := rfl
@[simp] theorem State.endLaunch_freeCtr (s : State) (k x y : Nat) : (s.endLaunch k x y).freeCtr = s.freeCtr := rfl
@[simp] theorem State.endLaunch_clocks (s : State) (k x y : Nat) : (s.endLaunch k x y).clocks = s.clocks := rfl
@[simp] theorem State.endLaunch_ms (s : State) (k x y : Nat) : (s.endLaunch k x y).ms = s.ms := rfl
@[simp] theorem State.endLaunch_eng (s : State) (k x y : Nat) : (s.endLaunch k x y).eng = s.eng := rfl
@[simp] theorem State.endLaunch_fab (s : State) (k x y : Nat) : (s.endLaunch k x y).fab = s.fab := rfl
@[simp] theorem State.endLaunch_mgmt (s : State) (k x y : Nat) : (s.endLaunch k x y).mgmt = s.mgmt := rfl
@[simp] theorem State.endLaunch_sched_ctxs (s : State) (k x y : Nat) : (s.endLaunch k x y).sched.ctxs = s.sched.ctxs := rfl
@[simp] theorem State.endLaunch_sched_queues (s : State) (k x y : Nat) : (s.endLaunch k x y).sched.queues = s.sched.queues := rfl
@[simp] theorem State.endLaunch_sched_units (s : State) (k x y : Nat) : (s.endLaunch k x y).sched.units = s.sched.units := rfl
@[simp] theorem State.endLaunch_sched_wgs (s : State) (k x y : Nat) : (s.endLaunch k x y).sched.wgs = s.sched.wgs := rfl
@[simp] theorem State.endLaunch_sched_groups (s : State) (k x y : Nat) : (s.endLaunch k x y).sched.groups = s.sched.groups := rfl
@[simp] theorem State.endLaunch_sched_parseSeq (s : State) (k x y : Nat) : (s.endLaunch k x y).sched.parseSeq = s.sched.parseSeq := rfl
@[simp] theorem State.endLaunch_sched_placeSeq (s : State) (k x y : Nat) : (s.endLaunch k x y).sched.placeSeq = s.sched.placeSeq := rfl
@[simp] theorem State.endLaunch_sched_unitSeq (s : State) (k x y : Nat) : (s.endLaunch k x y).sched.unitSeq = s.sched.unitSeq := rfl
@[simp] theorem State.endLaunch_sched_genSeq (s : State) (k x y : Nat) : (s.endLaunch k x y).sched.genSeq = s.sched.genSeq := rfl
@[simp] theorem State.endLaunch_sched_selectDue (s : State) (k x y : Nat) : (s.endLaunch k x y).sched.selectDue = s.sched.selectDue := rfl
@[simp] theorem State.endLaunch_sched_turns (s : State) (k x y : Nat) : (s.endLaunch k x y).sched.turns = s.sched.turns := rfl

@[simp] theorem State.withMem_cur (s : State) (m : Memory) : (s.withMem m).cur = s.cur := rfl
@[simp] theorem State.withMem_agenda (s : State) (m : Memory) : (s.withMem m).agenda = s.agenda := rfl
@[simp] theorem State.withMem_rr (s : State) (m : Memory) : (s.withMem m).rr = s.rr := rfl
@[simp] theorem State.withMem_freeCtr (s : State) (m : Memory) : (s.withMem m).freeCtr = s.freeCtr := rfl
@[simp] theorem State.withMem_clocks (s : State) (m : Memory) : (s.withMem m).clocks = s.clocks := rfl
@[simp] theorem State.withMem_sched (s : State) (m : Memory) : (s.withMem m).sched = s.sched := rfl
@[simp] theorem State.withMem_eng (s : State) (m : Memory) : (s.withMem m).eng = s.eng := rfl
@[simp] theorem State.withMem_fab (s : State) (m : Memory) : (s.withMem m).fab = s.fab := rfl
@[simp] theorem State.withMem_mgmt (s : State) (m : Memory) : (s.withMem m).mgmt = s.mgmt := rfl
@[simp] theorem State.withMem_ms_sram (s : State) (m : Memory) : (s.withMem m).ms.sram = s.ms.sram := rfl
@[simp] theorem State.withMem_ms_barriers (s : State) (m : Memory) : (s.withMem m).ms.barriers = s.ms.barriers := rfl
@[simp] theorem State.withMem_ms_hostMem (s : State) (m : Memory) : (s.withMem m).ms.hostMem = s.ms.hostMem := rfl
@[simp] theorem State.withMem_ms_peerMem (s : State) (m : Memory) : (s.withMem m).ms.peerMem = s.ms.peerMem := rfl
@[simp] theorem State.withMem_ms_lines (s : State) (m : Memory) : (s.withMem m).ms.lines = s.ms.lines := rfl
@[simp] theorem State.withMem_ms_stamps (s : State) (m : Memory) : (s.withMem m).ms.stamps = s.ms.stamps := rfl
@[simp] theorem State.withMem_ms_regionNo (s : State) (m : Memory) : (s.withMem m).ms.regionNo = s.ms.regionNo := rfl
@[simp] theorem State.withMem_ms_partials (s : State) (m : Memory) : (s.withMem m).ms.partials = s.ms.partials := rfl
@[simp] theorem State.withMem_ms_pendings (s : State) (m : Memory) : (s.withMem m).ms.pendings = s.ms.pendings := rfl
@[simp] theorem State.withMem_ms_shadows (s : State) (m : Memory) : (s.withMem m).ms.shadows = s.ms.shadows := rfl
@[simp] theorem State.withMem_ms_shadowKills (s : State) (m : Memory) : (s.withMem m).ms.shadowKills = s.ms.shadowKills := rfl
@[simp] theorem State.withMem_ms_peerCopies (s : State) (m : Memory) : (s.withMem m).ms.peerCopies = s.ms.peerCopies := rfl
@[simp] theorem State.withMem_ms_hostLines (s : State) (m : Memory) : (s.withMem m).ms.hostLines = s.ms.hostLines := rfl
@[simp] theorem State.withMem_ms_backInv (s : State) (m : Memory) : (s.withMem m).ms.backInv = s.ms.backInv := rfl
@[simp] theorem State.withMem_ms_llcCounters (s : State) (m : Memory) : (s.withMem m).ms.llcCounters = s.ms.llcCounters := rfl
@[simp] theorem State.withMem_ms_tlbCore (s : State) (m : Memory) : (s.withMem m).ms.tlbCore = s.ms.tlbCore := rfl
@[simp] theorem State.withMem_ms_tlbDie (s : State) (m : Memory) : (s.withMem m).ms.tlbDie = s.ms.tlbDie := rfl
@[simp] theorem State.withMem_ms_walkCache (s : State) (m : Memory) : (s.withMem m).ms.walkCache = s.ms.walkCache := rfl
@[simp] theorem State.withMem_ms_pfes (s : State) (m : Memory) : (s.withMem m).ms.pfes = s.ms.pfes := rfl

@[simp] theorem State.devWrite_cur (s : State) (a : Nat) (bs : List Byte) : (s.devWrite a bs).cur = s.cur := rfl
@[simp] theorem State.devWrite_agenda (s : State) (a : Nat) (bs : List Byte) : (s.devWrite a bs).agenda = s.agenda := rfl
@[simp] theorem State.devWrite_rr (s : State) (a : Nat) (bs : List Byte) : (s.devWrite a bs).rr = s.rr := rfl
@[simp] theorem State.devWrite_freeCtr (s : State) (a : Nat) (bs : List Byte) : (s.devWrite a bs).freeCtr = s.freeCtr := rfl
@[simp] theorem State.devWrite_clocks (s : State) (a : Nat) (bs : List Byte) : (s.devWrite a bs).clocks = s.clocks := rfl
@[simp] theorem State.devWrite_sched (s : State) (a : Nat) (bs : List Byte) : (s.devWrite a bs).sched = s.sched := rfl
@[simp] theorem State.devWrite_eng (s : State) (a : Nat) (bs : List Byte) : (s.devWrite a bs).eng = s.eng := rfl
@[simp] theorem State.devWrite_fab (s : State) (a : Nat) (bs : List Byte) : (s.devWrite a bs).fab = s.fab := rfl
@[simp] theorem State.devWrite_mgmt (s : State) (a : Nat) (bs : List Byte) : (s.devWrite a bs).mgmt = s.mgmt := rfl
@[simp] theorem State.devWrite_ms_sram (s : State) (a : Nat) (bs : List Byte) : (s.devWrite a bs).ms.sram = s.ms.sram := rfl
@[simp] theorem State.devWrite_ms_barriers (s : State) (a : Nat) (bs : List Byte) : (s.devWrite a bs).ms.barriers = s.ms.barriers := rfl
@[simp] theorem State.devWrite_ms_hostMem (s : State) (a : Nat) (bs : List Byte) : (s.devWrite a bs).ms.hostMem = s.ms.hostMem := rfl
@[simp] theorem State.devWrite_ms_peerMem (s : State) (a : Nat) (bs : List Byte) : (s.devWrite a bs).ms.peerMem = s.ms.peerMem := rfl
@[simp] theorem State.devWrite_ms_lines (s : State) (a : Nat) (bs : List Byte) : (s.devWrite a bs).ms.lines = s.ms.lines := rfl
@[simp] theorem State.devWrite_ms_stamps (s : State) (a : Nat) (bs : List Byte) : (s.devWrite a bs).ms.stamps = s.ms.stamps := rfl
@[simp] theorem State.devWrite_ms_regionNo (s : State) (a : Nat) (bs : List Byte) : (s.devWrite a bs).ms.regionNo = s.ms.regionNo := rfl
@[simp] theorem State.devWrite_ms_partials (s : State) (a : Nat) (bs : List Byte) : (s.devWrite a bs).ms.partials = s.ms.partials := rfl
@[simp] theorem State.devWrite_ms_pendings (s : State) (a : Nat) (bs : List Byte) : (s.devWrite a bs).ms.pendings = s.ms.pendings := rfl
@[simp] theorem State.devWrite_ms_shadows (s : State) (a : Nat) (bs : List Byte) : (s.devWrite a bs).ms.shadows = s.ms.shadows := rfl
@[simp] theorem State.devWrite_ms_shadowKills (s : State) (a : Nat) (bs : List Byte) : (s.devWrite a bs).ms.shadowKills = s.ms.shadowKills := rfl
@[simp] theorem State.devWrite_ms_peerCopies (s : State) (a : Nat) (bs : List Byte) : (s.devWrite a bs).ms.peerCopies = s.ms.peerCopies := rfl
@[simp] theorem State.devWrite_ms_hostLines (s : State) (a : Nat) (bs : List Byte) : (s.devWrite a bs).ms.hostLines = s.ms.hostLines := rfl
@[simp] theorem State.devWrite_ms_backInv (s : State) (a : Nat) (bs : List Byte) : (s.devWrite a bs).ms.backInv = s.ms.backInv := rfl
@[simp] theorem State.devWrite_ms_llcCounters (s : State) (a : Nat) (bs : List Byte) : (s.devWrite a bs).ms.llcCounters = s.ms.llcCounters := rfl
@[simp] theorem State.devWrite_ms_tlbCore (s : State) (a : Nat) (bs : List Byte) : (s.devWrite a bs).ms.tlbCore = s.ms.tlbCore := rfl
@[simp] theorem State.devWrite_ms_tlbDie (s : State) (a : Nat) (bs : List Byte) : (s.devWrite a bs).ms.tlbDie = s.ms.tlbDie := rfl
@[simp] theorem State.devWrite_ms_walkCache (s : State) (a : Nat) (bs : List Byte) : (s.devWrite a bs).ms.walkCache = s.ms.walkCache := rfl
@[simp] theorem State.devWrite_ms_pfes (s : State) (a : Nat) (bs : List Byte) : (s.devWrite a bs).ms.pfes = s.ms.pfes := rfl

@[simp] theorem State.withSram_cur (s : State) (k : Nat) (m : Memory) : (s.withSram k m).cur = s.cur := rfl
@[simp] theorem State.withSram_agenda (s : State) (k : Nat) (m : Memory) : (s.withSram k m).agenda = s.agenda := rfl
@[simp] theorem State.withSram_rr (s : State) (k : Nat) (m : Memory) : (s.withSram k m).rr = s.rr := rfl
@[simp] theorem State.withSram_freeCtr (s : State) (k : Nat) (m : Memory) : (s.withSram k m).freeCtr = s.freeCtr := rfl
@[simp] theorem State.withSram_clocks (s : State) (k : Nat) (m : Memory) : (s.withSram k m).clocks = s.clocks := rfl
@[simp] theorem State.withSram_sched (s : State) (k : Nat) (m : Memory) : (s.withSram k m).sched = s.sched := rfl
@[simp] theorem State.withSram_eng (s : State) (k : Nat) (m : Memory) : (s.withSram k m).eng = s.eng := rfl
@[simp] theorem State.withSram_fab (s : State) (k : Nat) (m : Memory) : (s.withSram k m).fab = s.fab := rfl
@[simp] theorem State.withSram_mgmt (s : State) (k : Nat) (m : Memory) : (s.withSram k m).mgmt = s.mgmt := rfl
@[simp] theorem State.withSram_ms_mem (s : State) (k : Nat) (m : Memory) : (s.withSram k m).ms.mem = s.ms.mem := rfl
@[simp] theorem State.withSram_ms_barriers (s : State) (k : Nat) (m : Memory) : (s.withSram k m).ms.barriers = s.ms.barriers := rfl
@[simp] theorem State.withSram_ms_hostMem (s : State) (k : Nat) (m : Memory) : (s.withSram k m).ms.hostMem = s.ms.hostMem := rfl
@[simp] theorem State.withSram_ms_peerMem (s : State) (k : Nat) (m : Memory) : (s.withSram k m).ms.peerMem = s.ms.peerMem := rfl
@[simp] theorem State.withSram_ms_lines (s : State) (k : Nat) (m : Memory) : (s.withSram k m).ms.lines = s.ms.lines := rfl
@[simp] theorem State.withSram_ms_stamps (s : State) (k : Nat) (m : Memory) : (s.withSram k m).ms.stamps = s.ms.stamps := rfl
@[simp] theorem State.withSram_ms_regionNo (s : State) (k : Nat) (m : Memory) : (s.withSram k m).ms.regionNo = s.ms.regionNo := rfl
@[simp] theorem State.withSram_ms_partials (s : State) (k : Nat) (m : Memory) : (s.withSram k m).ms.partials = s.ms.partials := rfl
@[simp] theorem State.withSram_ms_pendings (s : State) (k : Nat) (m : Memory) : (s.withSram k m).ms.pendings = s.ms.pendings := rfl
@[simp] theorem State.withSram_ms_shadows (s : State) (k : Nat) (m : Memory) : (s.withSram k m).ms.shadows = s.ms.shadows := rfl
@[simp] theorem State.withSram_ms_shadowKills (s : State) (k : Nat) (m : Memory) : (s.withSram k m).ms.shadowKills = s.ms.shadowKills := rfl
@[simp] theorem State.withSram_ms_peerCopies (s : State) (k : Nat) (m : Memory) : (s.withSram k m).ms.peerCopies = s.ms.peerCopies := rfl
@[simp] theorem State.withSram_ms_hostLines (s : State) (k : Nat) (m : Memory) : (s.withSram k m).ms.hostLines = s.ms.hostLines := rfl
@[simp] theorem State.withSram_ms_backInv (s : State) (k : Nat) (m : Memory) : (s.withSram k m).ms.backInv = s.ms.backInv := rfl
@[simp] theorem State.withSram_ms_llcCounters (s : State) (k : Nat) (m : Memory) : (s.withSram k m).ms.llcCounters = s.ms.llcCounters := rfl
@[simp] theorem State.withSram_ms_tlbCore (s : State) (k : Nat) (m : Memory) : (s.withSram k m).ms.tlbCore = s.ms.tlbCore := rfl
@[simp] theorem State.withSram_ms_tlbDie (s : State) (k : Nat) (m : Memory) : (s.withSram k m).ms.tlbDie = s.ms.tlbDie := rfl
@[simp] theorem State.withSram_ms_walkCache (s : State) (k : Nat) (m : Memory) : (s.withSram k m).ms.walkCache = s.ms.walkCache := rfl
@[simp] theorem State.withSram_ms_pfes (s : State) (k : Nat) (m : Memory) : (s.withSram k m).ms.pfes = s.ms.pfes := rfl

@[simp] theorem State.sramWrite_cur (s : State) (k a : Nat) (bs : List Byte) : (s.sramWrite k a bs).cur = s.cur := rfl
@[simp] theorem State.sramWrite_agenda (s : State) (k a : Nat) (bs : List Byte) : (s.sramWrite k a bs).agenda = s.agenda := rfl
@[simp] theorem State.sramWrite_rr (s : State) (k a : Nat) (bs : List Byte) : (s.sramWrite k a bs).rr = s.rr := rfl
@[simp] theorem State.sramWrite_freeCtr (s : State) (k a : Nat) (bs : List Byte) : (s.sramWrite k a bs).freeCtr = s.freeCtr := rfl
@[simp] theorem State.sramWrite_clocks (s : State) (k a : Nat) (bs : List Byte) : (s.sramWrite k a bs).clocks = s.clocks := rfl
@[simp] theorem State.sramWrite_sched (s : State) (k a : Nat) (bs : List Byte) : (s.sramWrite k a bs).sched = s.sched := rfl
@[simp] theorem State.sramWrite_eng (s : State) (k a : Nat) (bs : List Byte) : (s.sramWrite k a bs).eng = s.eng := rfl
@[simp] theorem State.sramWrite_fab (s : State) (k a : Nat) (bs : List Byte) : (s.sramWrite k a bs).fab = s.fab := rfl
@[simp] theorem State.sramWrite_mgmt (s : State) (k a : Nat) (bs : List Byte) : (s.sramWrite k a bs).mgmt = s.mgmt := rfl
@[simp] theorem State.sramWrite_ms_mem (s : State) (k a : Nat) (bs : List Byte) : (s.sramWrite k a bs).ms.mem = s.ms.mem := rfl
@[simp] theorem State.sramWrite_ms_barriers (s : State) (k a : Nat) (bs : List Byte) : (s.sramWrite k a bs).ms.barriers = s.ms.barriers := rfl
@[simp] theorem State.sramWrite_ms_hostMem (s : State) (k a : Nat) (bs : List Byte) : (s.sramWrite k a bs).ms.hostMem = s.ms.hostMem := rfl
@[simp] theorem State.sramWrite_ms_peerMem (s : State) (k a : Nat) (bs : List Byte) : (s.sramWrite k a bs).ms.peerMem = s.ms.peerMem := rfl
@[simp] theorem State.sramWrite_ms_lines (s : State) (k a : Nat) (bs : List Byte) : (s.sramWrite k a bs).ms.lines = s.ms.lines := rfl
@[simp] theorem State.sramWrite_ms_stamps (s : State) (k a : Nat) (bs : List Byte) : (s.sramWrite k a bs).ms.stamps = s.ms.stamps := rfl
@[simp] theorem State.sramWrite_ms_regionNo (s : State) (k a : Nat) (bs : List Byte) : (s.sramWrite k a bs).ms.regionNo = s.ms.regionNo := rfl
@[simp] theorem State.sramWrite_ms_partials (s : State) (k a : Nat) (bs : List Byte) : (s.sramWrite k a bs).ms.partials = s.ms.partials := rfl
@[simp] theorem State.sramWrite_ms_pendings (s : State) (k a : Nat) (bs : List Byte) : (s.sramWrite k a bs).ms.pendings = s.ms.pendings := rfl
@[simp] theorem State.sramWrite_ms_shadows (s : State) (k a : Nat) (bs : List Byte) : (s.sramWrite k a bs).ms.shadows = s.ms.shadows := rfl
@[simp] theorem State.sramWrite_ms_shadowKills (s : State) (k a : Nat) (bs : List Byte) : (s.sramWrite k a bs).ms.shadowKills = s.ms.shadowKills := rfl
@[simp] theorem State.sramWrite_ms_peerCopies (s : State) (k a : Nat) (bs : List Byte) : (s.sramWrite k a bs).ms.peerCopies = s.ms.peerCopies := rfl
@[simp] theorem State.sramWrite_ms_hostLines (s : State) (k a : Nat) (bs : List Byte) : (s.sramWrite k a bs).ms.hostLines = s.ms.hostLines := rfl
@[simp] theorem State.sramWrite_ms_backInv (s : State) (k a : Nat) (bs : List Byte) : (s.sramWrite k a bs).ms.backInv = s.ms.backInv := rfl
@[simp] theorem State.sramWrite_ms_llcCounters (s : State) (k a : Nat) (bs : List Byte) : (s.sramWrite k a bs).ms.llcCounters = s.ms.llcCounters := rfl
@[simp] theorem State.sramWrite_ms_tlbCore (s : State) (k a : Nat) (bs : List Byte) : (s.sramWrite k a bs).ms.tlbCore = s.ms.tlbCore := rfl
@[simp] theorem State.sramWrite_ms_tlbDie (s : State) (k a : Nat) (bs : List Byte) : (s.sramWrite k a bs).ms.tlbDie = s.ms.tlbDie := rfl
@[simp] theorem State.sramWrite_ms_walkCache (s : State) (k a : Nat) (bs : List Byte) : (s.sramWrite k a bs).ms.walkCache = s.ms.walkCache := rfl
@[simp] theorem State.sramWrite_ms_pfes (s : State) (k a : Nat) (bs : List Byte) : (s.sramWrite k a bs).ms.pfes = s.ms.pfes := rfl

@[simp] theorem State.hostWrite_cur (s : State) (p a : Nat) (bs : List Byte) : (s.hostWrite p a bs).cur = s.cur := rfl
@[simp] theorem State.hostWrite_agenda (s : State) (p a : Nat) (bs : List Byte) : (s.hostWrite p a bs).agenda = s.agenda := rfl
@[simp] theorem State.hostWrite_rr (s : State) (p a : Nat) (bs : List Byte) : (s.hostWrite p a bs).rr = s.rr := rfl
@[simp] theorem State.hostWrite_freeCtr (s : State) (p a : Nat) (bs : List Byte) : (s.hostWrite p a bs).freeCtr = s.freeCtr := rfl
@[simp] theorem State.hostWrite_clocks (s : State) (p a : Nat) (bs : List Byte) : (s.hostWrite p a bs).clocks = s.clocks := rfl
@[simp] theorem State.hostWrite_sched (s : State) (p a : Nat) (bs : List Byte) : (s.hostWrite p a bs).sched = s.sched := rfl
@[simp] theorem State.hostWrite_eng (s : State) (p a : Nat) (bs : List Byte) : (s.hostWrite p a bs).eng = s.eng := rfl
@[simp] theorem State.hostWrite_fab (s : State) (p a : Nat) (bs : List Byte) : (s.hostWrite p a bs).fab = s.fab := rfl
@[simp] theorem State.hostWrite_mgmt (s : State) (p a : Nat) (bs : List Byte) : (s.hostWrite p a bs).mgmt = s.mgmt := rfl
@[simp] theorem State.hostWrite_ms_mem (s : State) (p a : Nat) (bs : List Byte) : (s.hostWrite p a bs).ms.mem = s.ms.mem := rfl
@[simp] theorem State.hostWrite_ms_sram (s : State) (p a : Nat) (bs : List Byte) : (s.hostWrite p a bs).ms.sram = s.ms.sram := rfl
@[simp] theorem State.hostWrite_ms_barriers (s : State) (p a : Nat) (bs : List Byte) : (s.hostWrite p a bs).ms.barriers = s.ms.barriers := rfl
@[simp] theorem State.hostWrite_ms_peerMem (s : State) (p a : Nat) (bs : List Byte) : (s.hostWrite p a bs).ms.peerMem = s.ms.peerMem := rfl
@[simp] theorem State.hostWrite_ms_lines (s : State) (p a : Nat) (bs : List Byte) : (s.hostWrite p a bs).ms.lines = s.ms.lines := rfl
@[simp] theorem State.hostWrite_ms_stamps (s : State) (p a : Nat) (bs : List Byte) : (s.hostWrite p a bs).ms.stamps = s.ms.stamps := rfl
@[simp] theorem State.hostWrite_ms_regionNo (s : State) (p a : Nat) (bs : List Byte) : (s.hostWrite p a bs).ms.regionNo = s.ms.regionNo := rfl
@[simp] theorem State.hostWrite_ms_partials (s : State) (p a : Nat) (bs : List Byte) : (s.hostWrite p a bs).ms.partials = s.ms.partials := rfl
@[simp] theorem State.hostWrite_ms_pendings (s : State) (p a : Nat) (bs : List Byte) : (s.hostWrite p a bs).ms.pendings = s.ms.pendings := rfl
@[simp] theorem State.hostWrite_ms_shadows (s : State) (p a : Nat) (bs : List Byte) : (s.hostWrite p a bs).ms.shadows = s.ms.shadows := rfl
@[simp] theorem State.hostWrite_ms_shadowKills (s : State) (p a : Nat) (bs : List Byte) : (s.hostWrite p a bs).ms.shadowKills = s.ms.shadowKills := rfl
@[simp] theorem State.hostWrite_ms_peerCopies (s : State) (p a : Nat) (bs : List Byte) : (s.hostWrite p a bs).ms.peerCopies = s.ms.peerCopies := rfl
@[simp] theorem State.hostWrite_ms_hostLines (s : State) (p a : Nat) (bs : List Byte) : (s.hostWrite p a bs).ms.hostLines = s.ms.hostLines := rfl
@[simp] theorem State.hostWrite_ms_backInv (s : State) (p a : Nat) (bs : List Byte) : (s.hostWrite p a bs).ms.backInv = s.ms.backInv := rfl
@[simp] theorem State.hostWrite_ms_llcCounters (s : State) (p a : Nat) (bs : List Byte) : (s.hostWrite p a bs).ms.llcCounters = s.ms.llcCounters := rfl
@[simp] theorem State.hostWrite_ms_tlbCore (s : State) (p a : Nat) (bs : List Byte) : (s.hostWrite p a bs).ms.tlbCore = s.ms.tlbCore := rfl
@[simp] theorem State.hostWrite_ms_tlbDie (s : State) (p a : Nat) (bs : List Byte) : (s.hostWrite p a bs).ms.tlbDie = s.ms.tlbDie := rfl
@[simp] theorem State.hostWrite_ms_walkCache (s : State) (p a : Nat) (bs : List Byte) : (s.hostWrite p a bs).ms.walkCache = s.ms.walkCache := rfl
@[simp] theorem State.hostWrite_ms_pfes (s : State) (p a : Nat) (bs : List Byte) : (s.hostWrite p a bs).ms.pfes = s.ms.pfes := rfl

@[simp] theorem State.peerWrite_cur (s : State) (p a : Nat) (bs : List Byte) : (s.peerWrite p a bs).cur = s.cur := rfl
@[simp] theorem State.peerWrite_agenda (s : State) (p a : Nat) (bs : List Byte) : (s.peerWrite p a bs).agenda = s.agenda := rfl
@[simp] theorem State.peerWrite_rr (s : State) (p a : Nat) (bs : List Byte) : (s.peerWrite p a bs).rr = s.rr := rfl
@[simp] theorem State.peerWrite_freeCtr (s : State) (p a : Nat) (bs : List Byte) : (s.peerWrite p a bs).freeCtr = s.freeCtr := rfl
@[simp] theorem State.peerWrite_clocks (s : State) (p a : Nat) (bs : List Byte) : (s.peerWrite p a bs).clocks = s.clocks := rfl
@[simp] theorem State.peerWrite_sched (s : State) (p a : Nat) (bs : List Byte) : (s.peerWrite p a bs).sched = s.sched := rfl
@[simp] theorem State.peerWrite_eng (s : State) (p a : Nat) (bs : List Byte) : (s.peerWrite p a bs).eng = s.eng := rfl
@[simp] theorem State.peerWrite_fab (s : State) (p a : Nat) (bs : List Byte) : (s.peerWrite p a bs).fab = s.fab := rfl
@[simp] theorem State.peerWrite_mgmt (s : State) (p a : Nat) (bs : List Byte) : (s.peerWrite p a bs).mgmt = s.mgmt := rfl
@[simp] theorem State.peerWrite_ms_mem (s : State) (p a : Nat) (bs : List Byte) : (s.peerWrite p a bs).ms.mem = s.ms.mem := rfl
@[simp] theorem State.peerWrite_ms_sram (s : State) (p a : Nat) (bs : List Byte) : (s.peerWrite p a bs).ms.sram = s.ms.sram := rfl
@[simp] theorem State.peerWrite_ms_barriers (s : State) (p a : Nat) (bs : List Byte) : (s.peerWrite p a bs).ms.barriers = s.ms.barriers := rfl
@[simp] theorem State.peerWrite_ms_hostMem (s : State) (p a : Nat) (bs : List Byte) : (s.peerWrite p a bs).ms.hostMem = s.ms.hostMem := rfl
@[simp] theorem State.peerWrite_ms_lines (s : State) (p a : Nat) (bs : List Byte) : (s.peerWrite p a bs).ms.lines = s.ms.lines := rfl
@[simp] theorem State.peerWrite_ms_stamps (s : State) (p a : Nat) (bs : List Byte) : (s.peerWrite p a bs).ms.stamps = s.ms.stamps := rfl
@[simp] theorem State.peerWrite_ms_regionNo (s : State) (p a : Nat) (bs : List Byte) : (s.peerWrite p a bs).ms.regionNo = s.ms.regionNo := rfl
@[simp] theorem State.peerWrite_ms_partials (s : State) (p a : Nat) (bs : List Byte) : (s.peerWrite p a bs).ms.partials = s.ms.partials := rfl
@[simp] theorem State.peerWrite_ms_pendings (s : State) (p a : Nat) (bs : List Byte) : (s.peerWrite p a bs).ms.pendings = s.ms.pendings := rfl
@[simp] theorem State.peerWrite_ms_shadows (s : State) (p a : Nat) (bs : List Byte) : (s.peerWrite p a bs).ms.shadows = s.ms.shadows := rfl
@[simp] theorem State.peerWrite_ms_shadowKills (s : State) (p a : Nat) (bs : List Byte) : (s.peerWrite p a bs).ms.shadowKills = s.ms.shadowKills := rfl
@[simp] theorem State.peerWrite_ms_peerCopies (s : State) (p a : Nat) (bs : List Byte) : (s.peerWrite p a bs).ms.peerCopies = s.ms.peerCopies := rfl
@[simp] theorem State.peerWrite_ms_hostLines (s : State) (p a : Nat) (bs : List Byte) : (s.peerWrite p a bs).ms.hostLines = s.ms.hostLines := rfl
@[simp] theorem State.peerWrite_ms_backInv (s : State) (p a : Nat) (bs : List Byte) : (s.peerWrite p a bs).ms.backInv = s.ms.backInv := rfl
@[simp] theorem State.peerWrite_ms_llcCounters (s : State) (p a : Nat) (bs : List Byte) : (s.peerWrite p a bs).ms.llcCounters = s.ms.llcCounters := rfl
@[simp] theorem State.peerWrite_ms_tlbCore (s : State) (p a : Nat) (bs : List Byte) : (s.peerWrite p a bs).ms.tlbCore = s.ms.tlbCore := rfl
@[simp] theorem State.peerWrite_ms_tlbDie (s : State) (p a : Nat) (bs : List Byte) : (s.peerWrite p a bs).ms.tlbDie = s.ms.tlbDie := rfl
@[simp] theorem State.peerWrite_ms_walkCache (s : State) (p a : Nat) (bs : List Byte) : (s.peerWrite p a bs).ms.walkCache = s.ms.walkCache := rfl
@[simp] theorem State.peerWrite_ms_pfes (s : State) (p a : Nat) (bs : List Byte) : (s.peerWrite p a bs).ms.pfes = s.ms.pfes := rfl

@[simp] theorem State.closeRegion_cur (s : State) (k j : Nat) : (s.closeRegion k j).cur = s.cur := rfl
@[simp] theorem State.closeRegion_agenda (s : State) (k j : Nat) : (s.closeRegion k j).agenda = s.agenda := rfl
@[simp] theorem State.closeRegion_rr (s : State) (k j : Nat) : (s.closeRegion k j).rr = s.rr := rfl
@[simp] theorem State.closeRegion_freeCtr (s : State) (k j : Nat) : (s.closeRegion k j).freeCtr = s.freeCtr := rfl
@[simp] theorem State.closeRegion_clocks (s : State) (k j : Nat) : (s.closeRegion k j).clocks = s.clocks := rfl
@[simp] theorem State.closeRegion_sched (s : State) (k j : Nat) : (s.closeRegion k j).sched = s.sched := rfl
@[simp] theorem State.closeRegion_eng (s : State) (k j : Nat) : (s.closeRegion k j).eng = s.eng := rfl
@[simp] theorem State.closeRegion_fab (s : State) (k j : Nat) : (s.closeRegion k j).fab = s.fab := rfl
@[simp] theorem State.closeRegion_mgmt (s : State) (k j : Nat) : (s.closeRegion k j).mgmt = s.mgmt := rfl
@[simp] theorem State.closeRegion_ms_mem (s : State) (k j : Nat) : (s.closeRegion k j).ms.mem = s.ms.mem := rfl
@[simp] theorem State.closeRegion_ms_sram (s : State) (k j : Nat) : (s.closeRegion k j).ms.sram = s.ms.sram := rfl
@[simp] theorem State.closeRegion_ms_barriers (s : State) (k j : Nat) : (s.closeRegion k j).ms.barriers = s.ms.barriers := rfl
@[simp] theorem State.closeRegion_ms_hostMem (s : State) (k j : Nat) : (s.closeRegion k j).ms.hostMem = s.ms.hostMem := rfl
@[simp] theorem State.closeRegion_ms_peerMem (s : State) (k j : Nat) : (s.closeRegion k j).ms.peerMem = s.ms.peerMem := rfl
@[simp] theorem State.closeRegion_ms_lines (s : State) (k j : Nat) : (s.closeRegion k j).ms.lines = s.ms.lines := rfl
@[simp] theorem State.closeRegion_ms_stamps (s : State) (k j : Nat) : (s.closeRegion k j).ms.stamps = s.ms.stamps := rfl
@[simp] theorem State.closeRegion_ms_partials (s : State) (k j : Nat) : (s.closeRegion k j).ms.partials = s.ms.partials := rfl
@[simp] theorem State.closeRegion_ms_pendings (s : State) (k j : Nat) : (s.closeRegion k j).ms.pendings = s.ms.pendings := rfl
@[simp] theorem State.closeRegion_ms_shadows (s : State) (k j : Nat) : (s.closeRegion k j).ms.shadows = s.ms.shadows := rfl
@[simp] theorem State.closeRegion_ms_shadowKills (s : State) (k j : Nat) : (s.closeRegion k j).ms.shadowKills = s.ms.shadowKills := rfl
@[simp] theorem State.closeRegion_ms_peerCopies (s : State) (k j : Nat) : (s.closeRegion k j).ms.peerCopies = s.ms.peerCopies := rfl
@[simp] theorem State.closeRegion_ms_hostLines (s : State) (k j : Nat) : (s.closeRegion k j).ms.hostLines = s.ms.hostLines := rfl
@[simp] theorem State.closeRegion_ms_backInv (s : State) (k j : Nat) : (s.closeRegion k j).ms.backInv = s.ms.backInv := rfl
@[simp] theorem State.closeRegion_ms_llcCounters (s : State) (k j : Nat) : (s.closeRegion k j).ms.llcCounters = s.ms.llcCounters := rfl
@[simp] theorem State.closeRegion_ms_tlbCore (s : State) (k j : Nat) : (s.closeRegion k j).ms.tlbCore = s.ms.tlbCore := rfl
@[simp] theorem State.closeRegion_ms_tlbDie (s : State) (k j : Nat) : (s.closeRegion k j).ms.tlbDie = s.ms.tlbDie := rfl
@[simp] theorem State.closeRegion_ms_walkCache (s : State) (k j : Nat) : (s.closeRegion k j).ms.walkCache = s.ms.walkCache := rfl
@[simp] theorem State.closeRegion_ms_pfes (s : State) (k j : Nat) : (s.closeRegion k j).ms.pfes = s.ms.pfes := rfl

@[simp] theorem State.raiseMsix_cur (s : State) (p v : Nat) : (s.raiseMsix p v).cur = s.cur := rfl
@[simp] theorem State.raiseMsix_agenda (s : State) (p v : Nat) : (s.raiseMsix p v).agenda = s.agenda := rfl
@[simp] theorem State.raiseMsix_rr (s : State) (p v : Nat) : (s.raiseMsix p v).rr = s.rr := rfl
@[simp] theorem State.raiseMsix_freeCtr (s : State) (p v : Nat) : (s.raiseMsix p v).freeCtr = s.freeCtr := rfl
@[simp] theorem State.raiseMsix_clocks (s : State) (p v : Nat) : (s.raiseMsix p v).clocks = s.clocks := rfl
@[simp] theorem State.raiseMsix_sched (s : State) (p v : Nat) : (s.raiseMsix p v).sched = s.sched := rfl
@[simp] theorem State.raiseMsix_ms (s : State) (p v : Nat) : (s.raiseMsix p v).ms = s.ms := rfl
@[simp] theorem State.raiseMsix_eng (s : State) (p v : Nat) : (s.raiseMsix p v).eng = s.eng := rfl
@[simp] theorem State.raiseMsix_fab (s : State) (p v : Nat) : (s.raiseMsix p v).fab = s.fab := rfl
@[simp] theorem State.raiseMsix_mgmt_devState (s : State) (p v : Nat) : (s.raiseMsix p v).mgmt.devState = s.mgmt.devState := rfl
@[simp] theorem State.raiseMsix_mgmt_fwSlot (s : State) (p v : Nat) : (s.raiseMsix p v).mgmt.fwSlot = s.mgmt.fwSlot := rfl
@[simp] theorem State.raiseMsix_mgmt_fwNext (s : State) (p v : Nat) : (s.raiseMsix p v).mgmt.fwNext = s.mgmt.fwNext := rfl
@[simp] theorem State.raiseMsix_mgmt_fwErr (s : State) (p v : Nat) : (s.raiseMsix p v).mgmt.fwErr = s.mgmt.fwErr := rfl
@[simp] theorem State.raiseMsix_mgmt_ports (s : State) (p v : Nat) : (s.raiseMsix p v).mgmt.ports = s.mgmt.ports := rfl
@[simp] theorem State.raiseMsix_mgmt_cmds (s : State) (p v : Nat) : (s.raiseMsix p v).mgmt.cmds = s.mgmt.cmds := rfl
@[simp] theorem State.raiseMsix_mgmt_attQueue (s : State) (p v : Nat) : (s.raiseMsix p v).mgmt.attQueue = s.mgmt.attQueue := rfl
@[simp] theorem State.raiseMsix_mgmt_errLog (s : State) (p v : Nat) : (s.raiseMsix p v).mgmt.errLog = s.mgmt.errLog := rfl
@[simp] theorem State.raiseMsix_mgmt_errProd (s : State) (p v : Nat) : (s.raiseMsix p v).mgmt.errProd = s.mgmt.errProd := rfl
@[simp] theorem State.raiseMsix_mgmt_errCons (s : State) (p v : Nat) : (s.raiseMsix p v).mgmt.errCons = s.mgmt.errCons := rfl
@[simp] theorem State.raiseMsix_mgmt_errLost (s : State) (p v : Nat) : (s.raiseMsix p v).mgmt.errLost = s.mgmt.errLost := rfl
@[simp] theorem State.raiseMsix_mgmt_errSeq (s : State) (p v : Nat) : (s.raiseMsix p v).mgmt.errSeq = s.mgmt.errSeq := rfl
@[simp] theorem State.raiseMsix_mgmt_polReq (s : State) (p v : Nat) : (s.raiseMsix p v).mgmt.polReq = s.mgmt.polReq := rfl
@[simp] theorem State.raiseMsix_mgmt_fwStage (s : State) (p v : Nat) : (s.raiseMsix p v).mgmt.fwStage = s.mgmt.fwStage := rfl
@[simp] theorem State.raiseMsix_mgmt_flash0 (s : State) (p v : Nat) : (s.raiseMsix p v).mgmt.flash0 = s.mgmt.flash0 := rfl
@[simp] theorem State.raiseMsix_mgmt_flash1 (s : State) (p v : Nat) : (s.raiseMsix p v).mgmt.flash1 = s.mgmt.flash1 := rfl
@[simp] theorem State.raiseMsix_mgmt_fwImage (s : State) (p v : Nat) : (s.raiseMsix p v).mgmt.fwImage = s.mgmt.fwImage := rfl
@[simp] theorem State.raiseMsix_mgmt_bootCount (s : State) (p v : Nat) : (s.raiseMsix p v).mgmt.bootCount = s.mgmt.bootCount := rfl
@[simp] theorem State.raiseMsix_mgmt_watchdog (s : State) (p v : Nat) : (s.raiseMsix p v).mgmt.watchdog = s.mgmt.watchdog := rfl
@[simp] theorem State.raiseMsix_mgmt_govMe (s : State) (p v : Nat) : (s.raiseMsix p v).mgmt.govMe = s.mgmt.govMe := rfl
@[simp] theorem State.raiseMsix_mgmt_govLink (s : State) (p v : Nat) : (s.raiseMsix p v).mgmt.govLink = s.mgmt.govLink := rfl
@[simp] theorem State.raiseMsix_mgmt_govActions (s : State) (p v : Nat) : (s.raiseMsix p v).mgmt.govActions = s.mgmt.govActions := rfl
@[simp] theorem State.raiseMsix_mgmt_govCap (s : State) (p v : Nat) : (s.raiseMsix p v).mgmt.govCap = s.mgmt.govCap := rfl
@[simp] theorem State.raiseMsix_mgmt_meThrottle (s : State) (p v : Nat) : (s.raiseMsix p v).mgmt.meThrottle = s.mgmt.meThrottle := rfl
@[simp] theorem State.raiseMsix_mgmt_hostReply (s : State) (p v : Nat) : (s.raiseMsix p v).mgmt.hostReply = s.mgmt.hostReply := rfl
@[simp] theorem State.raiseMsix_mgmt_hostPoison (s : State) (p v : Nat) : (s.raiseMsix p v).mgmt.hostPoison = s.mgmt.hostPoison := rfl
@[simp] theorem State.raiseMsix_mgmt_peerReply (s : State) (p v : Nat) : (s.raiseMsix p v).mgmt.peerReply = s.mgmt.peerReply := rfl

@[simp] theorem State.tick_cur (s : State) (k : Clock) (n : Nat) : (s.tick k n).cur = s.cur := by unfold State.tick; split <;> rfl
@[simp] theorem State.tick_agenda (s : State) (k : Clock) (n : Nat) : (s.tick k n).agenda = s.agenda := by unfold State.tick; split <;> rfl
@[simp] theorem State.tick_rr (s : State) (k : Clock) (n : Nat) : (s.tick k n).rr = s.rr := by unfold State.tick; split <;> rfl
@[simp] theorem State.tick_freeCtr (s : State) (k : Clock) (n : Nat) : (s.tick k n).freeCtr = s.freeCtr := by unfold State.tick; split <;> rfl
@[simp] theorem State.tick_sched (s : State) (k : Clock) (n : Nat) : (s.tick k n).sched = s.sched := by unfold State.tick; split <;> rfl
@[simp] theorem State.tick_ms (s : State) (k : Clock) (n : Nat) : (s.tick k n).ms = s.ms := by unfold State.tick; split <;> rfl
@[simp] theorem State.tick_eng (s : State) (k : Clock) (n : Nat) : (s.tick k n).eng = s.eng := by unfold State.tick; split <;> rfl
@[simp] theorem State.tick_fab (s : State) (k : Clock) (n : Nat) : (s.tick k n).fab = s.fab := by unfold State.tick; split <;> rfl
@[simp] theorem State.tick_mgmt (s : State) (k : Clock) (n : Nat) : (s.tick k n).mgmt = s.mgmt := by unfold State.tick; split <;> rfl

end Sys2Proof.Machine
end

