-- ==== Sys2Proof/Laws/Group.lean ====
section
/-! SUPPORT. One lemma for every field that an update of a group leaves as it was. -/

namespace Sys2Proof.Machine

@[simp] theorem Group.setV_unit (g : Group) (r : Nat) (m : Mask) (f : Nat → Word32) : (g.setV r m f).unit = g.unit := rfl
@[simp] theorem Group.setV_wg (g : Group) (r : Nat) (m : Mask) (f : Nat → Word32) : (g.setV r m f).wg = g.wg := rfl
@[simp] theorem Group.setV_gi (g : Group) (r : Nat) (m : Mask) (f : Nat → Word32) : (g.setV r m f).gi = g.gi := rfl
@[simp] theorem Group.setV_core (g : Group) (r : Nat) (m : Mask) (f : Nat → Word32) : (g.setV r m f).core = g.core := rfl
@[simp] theorem Group.setV_slot (g : Group) (r : Nat) (m : Mask) (f : Nat → Word32) : (g.setV r m f).slot = g.slot := rfl
@[simp] theorem Group.setV_st (g : Group) (r : Nat) (m : Mask) (f : Nat → Word32) : (g.setV r m f).st = g.st := rfl
@[simp] theorem Group.setV_prevSt (g : Group) (r : Nat) (m : Mask) (f : Nat → Word32) : (g.setV r m f).prevSt = g.prevSt := rfl
@[simp] theorem Group.setV_saved (g : Group) (r : Nat) (m : Mask) (f : Nat → Word32) : (g.setV r m f).saved = g.saved := rfl
@[simp] theorem Group.setV_slot0 (g : Group) (r : Nat) (m : Mask) (f : Nat → Word32) : (g.setV r m f).slot0 = g.slot0 := rfl
@[simp] theorem Group.setV_slot1 (g : Group) (r : Nat) (m : Mask) (f : Nat → Word32) : (g.setV r m f).slot1 = g.slot1 := rfl
@[simp] theorem Group.setV_stack (g : Group) (r : Nat) (m : Mask) (f : Nat → Word32) : (g.setV r m f).stack = g.stack := rfl
@[simp] theorem Group.setV_hdl (g : Group) (r : Nat) (m : Mask) (f : Nat → Word32) : (g.setV r m f).hdl = g.hdl := rfl
@[simp] theorem Group.setV_exited (g : Group) (r : Nat) (m : Mask) (f : Nat → Word32) : (g.setV r m f).exited = g.exited := rfl
@[simp] theorem Group.setV_sregs (g : Group) (r : Nat) (m : Mask) (f : Nat → Word32) : (g.setV r m f).sregs = g.sregs := rfl
@[simp] theorem Group.setV_pregs (g : Group) (r : Nat) (m : Mask) (f : Nat → Word32) : (g.setV r m f).pregs = g.pregs := rfl
@[simp] theorem Group.setV_flags (g : Group) (r : Nat) (m : Mask) (f : Nat → Word32) : (g.setV r m f).flags = g.flags := rfl
@[simp] theorem Group.setV_cause (g : Group) (r : Nat) (m : Mask) (f : Nat → Word32) : (g.setV r m f).cause = g.cause := rfl
@[simp] theorem Group.setV_trappc (g : Group) (r : Nat) (m : Mask) (f : Nat → Word32) : (g.setV r m f).trappc = g.trappc := rfl
@[simp] theorem Group.setV_tinfo0 (g : Group) (r : Nat) (m : Mask) (f : Nat → Word32) : (g.setV r m f).tinfo0 = g.tinfo0 := rfl
@[simp] theorem Group.setV_tinfo1 (g : Group) (r : Nat) (m : Mask) (f : Nat → Word32) : (g.setV r m f).tinfo1 = g.tinfo1 := rfl
@[simp] theorem Group.setV_tinfo2 (g : Group) (r : Nat) (m : Mask) (f : Nat → Word32) : (g.setV r m f).tinfo2 = g.tinfo2 := rfl
@[simp] theorem Group.setV_tinfo3 (g : Group) (r : Nat) (m : Mask) (f : Nat → Word32) : (g.setV r m f).tinfo3 = g.tinfo3 := rfl
@[simp] theorem Group.setV_ucond (g : Group) (r : Nat) (m : Mask) (f : Nat → Word32) : (g.setV r m f).ucond = g.ucond := rfl
@[simp] theorem Group.setV_batch (g : Group) (r : Nat) (m : Mask) (f : Nat → Word32) : (g.setV r m f).batch = g.batch := rfl
@[simp] theorem Group.setV_mmxcnt (g : Group) (r : Nat) (m : Mask) (f : Nat → Word32) : (g.setV r m f).mmxcnt = g.mmxcnt := rfl
@[simp] theorem Group.setV_cprog (g : Group) (r : Nat) (m : Mask) (f : Nat → Word32) : (g.setV r m f).cprog = g.cprog := rfl
@[simp] theorem Group.setV_keys (g : Group) (r : Nat) (m : Mask) (f : Nat → Word32) : (g.setV r m f).keys = g.keys := rfl
@[simp] theorem Group.setV_watch (g : Group) (r : Nat) (m : Mask) (f : Nat → Word32) : (g.setV r m f).watch = g.watch := rfl
@[simp] theorem Group.setV_lastp1 (g : Group) (r : Nat) (m : Mask) (f : Nat → Word32) : (g.setV r m f).lastp1 = g.lastp1 := rfl
@[simp] theorem Group.setV_loads (g : Group) (r : Nat) (m : Mask) (f : Nat → Word32) : (g.setV r m f).loads = g.loads := rfl
@[simp] theorem Group.setV_stores (g : Group) (r : Nat) (m : Mask) (f : Nat → Word32) : (g.setV r m f).stores = g.stores := rfl
@[simp] theorem Group.setV_atoms (g : Group) (r : Nat) (m : Mask) (f : Nat → Word32) : (g.setV r m f).atoms = g.atoms := rfl
@[simp] theorem Group.setV_sent (g : Group) (r : Nat) (m : Mask) (f : Nat → Word32) : (g.setV r m f).sent = g.sent := rfl
@[simp] theorem Group.setV_lost (g : Group) (r : Nat) (m : Mask) (f : Nat → Word32) : (g.setV r m f).lost = g.lost := rfl
@[simp] theorem Group.setV_lateTrap (g : Group) (r : Nat) (m : Mask) (f : Nat → Word32) : (g.setV r m f).lateTrap = g.lateTrap := rfl
@[simp] theorem Group.setV_meq (g : Group) (r : Nat) (m : Mask) (f : Nat → Word32) : (g.setV r m f).meq = g.meq := rfl
@[simp] theorem Group.setV_waitCount (g : Group) (r : Nat) (m : Mask) (f : Nat → Word32) : (g.setV r m f).waitCount = g.waitCount := rfl
@[simp] theorem Group.setV_age (g : Group) (r : Nat) (m : Mask) (f : Nat → Word32) : (g.setV r m f).age = g.age := rfl
@[simp] theorem Group.setV_retired (g : Group) (r : Nat) (m : Mask) (f : Nat → Word32) : (g.setV r m f).retired = g.retired := rfl
@[simp] theorem Group.setV_spill (g : Group) (r : Nat) (m : Mask) (f : Nat → Word32) : (g.setV r m f).spill = g.spill := rfl
@[simp] theorem Group.setV_pendTrap (g : Group) (r : Nat) (m : Mask) (f : Nat → Word32) : (g.setV r m f).pendTrap = g.pendTrap := rfl
@[simp] theorem Group.setV_preemptReq (g : Group) (r : Nat) (m : Mask) (f : Nat → Word32) : (g.setV r m f).preemptReq = g.preemptReq := rfl
@[simp] theorem Group.setV_flush (g : Group) (r : Nat) (m : Mask) (f : Nat → Word32) : (g.setV r m f).flush = g.flush := rfl
@[simp] theorem Group.setV_released (g : Group) (r : Nat) (m : Mask) (f : Nat → Word32) : (g.setV r m f).released = g.released := rfl
@[simp] theorem Group.setV_regroup (g : Group) (r : Nat) (m : Mask) (f : Nat → Word32) : (g.setV r m f).regroup = g.regroup := rfl
@[simp] theorem Group.setV_blocked (g : Group) (r : Nat) (m : Mask) (f : Nat → Word32) : (g.setV r m f).blocked = g.blocked := rfl
@[simp] theorem Group.setV_seq (g : Group) (r : Nat) (m : Mask) (f : Nat → Word32) : (g.setV r m f).seq = g.seq := rfl

@[simp] theorem Group.setV64_unit (g : Group) (r : Nat) (m : Mask) (f : Nat → Word64) : (g.setV64 r m f).unit = g.unit := rfl
@[simp] theorem Group.setV64_wg (g : Group) (r : Nat) (m : Mask) (f : Nat → Word64) : (g.setV64 r m f).wg = g.wg := rfl
@[simp] theorem Group.setV64_gi (g : Group) (r : Nat) (m : Mask) (f : Nat → Word64) : (g.setV64 r m f).gi = g.gi := rfl
@[simp] theorem Group.setV64_core (g : Group) (r : Nat) (m : Mask) (f : Nat → Word64) : (g.setV64 r m f).core = g.core := rfl
@[simp] theorem Group.setV64_slot (g : Group) (r : Nat) (m : Mask) (f : Nat → Word64) : (g.setV64 r m f).slot = g.slot := rfl
@[simp] theorem Group.setV64_st (g : Group) (r : Nat) (m : Mask) (f : Nat → Word64) : (g.setV64 r m f).st = g.st := rfl
@[simp] theorem Group.setV64_prevSt (g : Group) (r : Nat) (m : Mask) (f : Nat → Word64) : (g.setV64 r m f).prevSt = g.prevSt := rfl
@[simp] theorem Group.setV64_saved (g : Group) (r : Nat) (m : Mask) (f : Nat → Word64) : (g.setV64 r m f).saved = g.saved := rfl
@[simp] theorem Group.setV64_slot0 (g : Group) (r : Nat) (m : Mask) (f : Nat → Word64) : (g.setV64 r m f).slot0 = g.slot0 := rfl
@[simp] theorem Group.setV64_slot1 (g : Group) (r : Nat) (m : Mask) (f : Nat → Word64) : (g.setV64 r m f).slot1 = g.slot1 := rfl
@[simp] theorem Group.setV64_stack (g : Group) (r : Nat) (m : Mask) (f : Nat → Word64) : (g.setV64 r m f).stack = g.stack := rfl
@[simp] theorem Group.setV64_hdl (g : Group) (r : Nat) (m : Mask) (f : Nat → Word64) : (g.setV64 r m f).hdl = g.hdl := rfl
@[simp] theorem Group.setV64_exited (g : Group) (r : Nat) (m : Mask) (f : Nat → Word64) : (g.setV64 r m f).exited = g.exited := rfl
@[simp] theorem Group.setV64_sregs (g : Group) (r : Nat) (m : Mask) (f : Nat → Word64) : (g.setV64 r m f).sregs = g.sregs := rfl
@[simp] theorem Group.setV64_pregs (g : Group) (r : Nat) (m : Mask) (f : Nat → Word64) : (g.setV64 r m f).pregs = g.pregs := rfl
@[simp] theorem Group.setV64_flags (g : Group) (r : Nat) (m : Mask) (f : Nat → Word64) : (g.setV64 r m f).flags = g.flags := rfl
@[simp] theorem Group.setV64_cause (g : Group) (r : Nat) (m : Mask) (f : Nat → Word64) : (g.setV64 r m f).cause = g.cause := rfl
@[simp] theorem Group.setV64_trappc (g : Group) (r : Nat) (m : Mask) (f : Nat → Word64) : (g.setV64 r m f).trappc = g.trappc := rfl
@[simp] theorem Group.setV64_tinfo0 (g : Group) (r : Nat) (m : Mask) (f : Nat → Word64) : (g.setV64 r m f).tinfo0 = g.tinfo0 := rfl
@[simp] theorem Group.setV64_tinfo1 (g : Group) (r : Nat) (m : Mask) (f : Nat → Word64) : (g.setV64 r m f).tinfo1 = g.tinfo1 := rfl
@[simp] theorem Group.setV64_tinfo2 (g : Group) (r : Nat) (m : Mask) (f : Nat → Word64) : (g.setV64 r m f).tinfo2 = g.tinfo2 := rfl
@[simp] theorem Group.setV64_tinfo3 (g : Group) (r : Nat) (m : Mask) (f : Nat → Word64) : (g.setV64 r m f).tinfo3 = g.tinfo3 := rfl
@[simp] theorem Group.setV64_ucond (g : Group) (r : Nat) (m : Mask) (f : Nat → Word64) : (g.setV64 r m f).ucond = g.ucond := rfl
@[simp] theorem Group.setV64_batch (g : Group) (r : Nat) (m : Mask) (f : Nat → Word64) : (g.setV64 r m f).batch = g.batch := rfl
@[simp] theorem Group.setV64_mmxcnt (g : Group) (r : Nat) (m : Mask) (f : Nat → Word64) : (g.setV64 r m f).mmxcnt = g.mmxcnt := rfl
@[simp] theorem Group.setV64_cprog (g : Group) (r : Nat) (m : Mask) (f : Nat → Word64) : (g.setV64 r m f).cprog = g.cprog := rfl
@[simp] theorem Group.setV64_keys (g : Group) (r : Nat) (m : Mask) (f : Nat → Word64) : (g.setV64 r m f).keys = g.keys := rfl
@[simp] theorem Group.setV64_watch (g : Group) (r : Nat) (m : Mask) (f : Nat → Word64) : (g.setV64 r m f).watch = g.watch := rfl
@[simp] theorem Group.setV64_lastp1 (g : Group) (r : Nat) (m : Mask) (f : Nat → Word64) : (g.setV64 r m f).lastp1 = g.lastp1 := rfl
@[simp] theorem Group.setV64_loads (g : Group) (r : Nat) (m : Mask) (f : Nat → Word64) : (g.setV64 r m f).loads = g.loads := rfl
@[simp] theorem Group.setV64_stores (g : Group) (r : Nat) (m : Mask) (f : Nat → Word64) : (g.setV64 r m f).stores = g.stores := rfl
@[simp] theorem Group.setV64_atoms (g : Group) (r : Nat) (m : Mask) (f : Nat → Word64) : (g.setV64 r m f).atoms = g.atoms := rfl
@[simp] theorem Group.setV64_sent (g : Group) (r : Nat) (m : Mask) (f : Nat → Word64) : (g.setV64 r m f).sent = g.sent := rfl
@[simp] theorem Group.setV64_lost (g : Group) (r : Nat) (m : Mask) (f : Nat → Word64) : (g.setV64 r m f).lost = g.lost := rfl
@[simp] theorem Group.setV64_lateTrap (g : Group) (r : Nat) (m : Mask) (f : Nat → Word64) : (g.setV64 r m f).lateTrap = g.lateTrap := rfl
@[simp] theorem Group.setV64_meq (g : Group) (r : Nat) (m : Mask) (f : Nat → Word64) : (g.setV64 r m f).meq = g.meq := rfl
@[simp] theorem Group.setV64_waitCount (g : Group) (r : Nat) (m : Mask) (f : Nat → Word64) : (g.setV64 r m f).waitCount = g.waitCount := rfl
@[simp] theorem Group.setV64_age (g : Group) (r : Nat) (m : Mask) (f : Nat → Word64) : (g.setV64 r m f).age = g.age := rfl
@[simp] theorem Group.setV64_retired (g : Group) (r : Nat) (m : Mask) (f : Nat → Word64) : (g.setV64 r m f).retired = g.retired := rfl
@[simp] theorem Group.setV64_spill (g : Group) (r : Nat) (m : Mask) (f : Nat → Word64) : (g.setV64 r m f).spill = g.spill := rfl
@[simp] theorem Group.setV64_pendTrap (g : Group) (r : Nat) (m : Mask) (f : Nat → Word64) : (g.setV64 r m f).pendTrap = g.pendTrap := rfl
@[simp] theorem Group.setV64_preemptReq (g : Group) (r : Nat) (m : Mask) (f : Nat → Word64) : (g.setV64 r m f).preemptReq = g.preemptReq := rfl
@[simp] theorem Group.setV64_flush (g : Group) (r : Nat) (m : Mask) (f : Nat → Word64) : (g.setV64 r m f).flush = g.flush := rfl
@[simp] theorem Group.setV64_released (g : Group) (r : Nat) (m : Mask) (f : Nat → Word64) : (g.setV64 r m f).released = g.released := rfl
@[simp] theorem Group.setV64_regroup (g : Group) (r : Nat) (m : Mask) (f : Nat → Word64) : (g.setV64 r m f).regroup = g.regroup := rfl
@[simp] theorem Group.setV64_blocked (g : Group) (r : Nat) (m : Mask) (f : Nat → Word64) : (g.setV64 r m f).blocked = g.blocked := rfl
@[simp] theorem Group.setV64_seq (g : Group) (r : Nat) (m : Mask) (f : Nat → Word64) : (g.setV64 r m f).seq = g.seq := rfl

@[simp] theorem Group.setS_unit (g : Group) (r : Nat) (x : Word64) : (g.setS r x).unit = g.unit := rfl
@[simp] theorem Group.setS_wg (g : Group) (r : Nat) (x : Word64) : (g.setS r x).wg = g.wg := rfl
@[simp] theorem Group.setS_gi (g : Group) (r : Nat) (x : Word64) : (g.setS r x).gi = g.gi := rfl
@[simp] theorem Group.setS_core (g : Group) (r : Nat) (x : Word64) : (g.setS r x).core = g.core := rfl
@[simp] theorem Group.setS_slot (g : Group) (r : Nat) (x : Word64) : (g.setS r x).slot = g.slot := rfl
@[simp] theorem Group.setS_st (g : Group) (r : Nat) (x : Word64) : (g.setS r x).st = g.st := rfl
@[simp] theorem Group.setS_prevSt (g : Group) (r : Nat) (x : Word64) : (g.setS r x).prevSt = g.prevSt := rfl
@[simp] theorem Group.setS_saved (g : Group) (r : Nat) (x : Word64) : (g.setS r x).saved = g.saved := rfl
@[simp] theorem Group.setS_slot0 (g : Group) (r : Nat) (x : Word64) : (g.setS r x).slot0 = g.slot0 := rfl
@[simp] theorem Group.setS_slot1 (g : Group) (r : Nat) (x : Word64) : (g.setS r x).slot1 = g.slot1 := rfl
@[simp] theorem Group.setS_stack (g : Group) (r : Nat) (x : Word64) : (g.setS r x).stack = g.stack := rfl
@[simp] theorem Group.setS_hdl (g : Group) (r : Nat) (x : Word64) : (g.setS r x).hdl = g.hdl := rfl
@[simp] theorem Group.setS_exited (g : Group) (r : Nat) (x : Word64) : (g.setS r x).exited = g.exited := rfl
@[simp] theorem Group.setS_vregs (g : Group) (r : Nat) (x : Word64) : (g.setS r x).vregs = g.vregs := rfl
@[simp] theorem Group.setS_pregs (g : Group) (r : Nat) (x : Word64) : (g.setS r x).pregs = g.pregs := rfl
@[simp] theorem Group.setS_flags (g : Group) (r : Nat) (x : Word64) : (g.setS r x).flags = g.flags := rfl
@[simp] theorem Group.setS_cause (g : Group) (r : Nat) (x : Word64) : (g.setS r x).cause = g.cause := rfl
@[simp] theorem Group.setS_trappc (g : Group) (r : Nat) (x : Word64) : (g.setS r x).trappc = g.trappc := rfl
@[simp] theorem Group.setS_tinfo0 (g : Group) (r : Nat) (x : Word64) : (g.setS r x).tinfo0 = g.tinfo0 := rfl
@[simp] theorem Group.setS_tinfo1 (g : Group) (r : Nat) (x : Word64) : (g.setS r x).tinfo1 = g.tinfo1 := rfl
@[simp] theorem Group.setS_tinfo2 (g : Group) (r : Nat) (x : Word64) : (g.setS r x).tinfo2 = g.tinfo2 := rfl
@[simp] theorem Group.setS_tinfo3 (g : Group) (r : Nat) (x : Word64) : (g.setS r x).tinfo3 = g.tinfo3 := rfl
@[simp] theorem Group.setS_ucond (g : Group) (r : Nat) (x : Word64) : (g.setS r x).ucond = g.ucond := rfl
@[simp] theorem Group.setS_batch (g : Group) (r : Nat) (x : Word64) : (g.setS r x).batch = g.batch := rfl
@[simp] theorem Group.setS_mmxcnt (g : Group) (r : Nat) (x : Word64) : (g.setS r x).mmxcnt = g.mmxcnt := rfl
@[simp] theorem Group.setS_cprog (g : Group) (r : Nat) (x : Word64) : (g.setS r x).cprog = g.cprog := rfl
@[simp] theorem Group.setS_keys (g : Group) (r : Nat) (x : Word64) : (g.setS r x).keys = g.keys := rfl
@[simp] theorem Group.setS_watch (g : Group) (r : Nat) (x : Word64) : (g.setS r x).watch = g.watch := rfl
@[simp] theorem Group.setS_lastp1 (g : Group) (r : Nat) (x : Word64) : (g.setS r x).lastp1 = g.lastp1 := rfl
@[simp] theorem Group.setS_loads (g : Group) (r : Nat) (x : Word64) : (g.setS r x).loads = g.loads := rfl
@[simp] theorem Group.setS_stores (g : Group) (r : Nat) (x : Word64) : (g.setS r x).stores = g.stores := rfl
@[simp] theorem Group.setS_atoms (g : Group) (r : Nat) (x : Word64) : (g.setS r x).atoms = g.atoms := rfl
@[simp] theorem Group.setS_sent (g : Group) (r : Nat) (x : Word64) : (g.setS r x).sent = g.sent := rfl
@[simp] theorem Group.setS_lost (g : Group) (r : Nat) (x : Word64) : (g.setS r x).lost = g.lost := rfl
@[simp] theorem Group.setS_lateTrap (g : Group) (r : Nat) (x : Word64) : (g.setS r x).lateTrap = g.lateTrap := rfl
@[simp] theorem Group.setS_meq (g : Group) (r : Nat) (x : Word64) : (g.setS r x).meq = g.meq := rfl
@[simp] theorem Group.setS_waitCount (g : Group) (r : Nat) (x : Word64) : (g.setS r x).waitCount = g.waitCount := rfl
@[simp] theorem Group.setS_age (g : Group) (r : Nat) (x : Word64) : (g.setS r x).age = g.age := rfl
@[simp] theorem Group.setS_retired (g : Group) (r : Nat) (x : Word64) : (g.setS r x).retired = g.retired := rfl
@[simp] theorem Group.setS_spill (g : Group) (r : Nat) (x : Word64) : (g.setS r x).spill = g.spill := rfl
@[simp] theorem Group.setS_pendTrap (g : Group) (r : Nat) (x : Word64) : (g.setS r x).pendTrap = g.pendTrap := rfl
@[simp] theorem Group.setS_preemptReq (g : Group) (r : Nat) (x : Word64) : (g.setS r x).preemptReq = g.preemptReq := rfl
@[simp] theorem Group.setS_flush (g : Group) (r : Nat) (x : Word64) : (g.setS r x).flush = g.flush := rfl
@[simp] theorem Group.setS_released (g : Group) (r : Nat) (x : Word64) : (g.setS r x).released = g.released := rfl
@[simp] theorem Group.setS_regroup (g : Group) (r : Nat) (x : Word64) : (g.setS r x).regroup = g.regroup := rfl
@[simp] theorem Group.setS_blocked (g : Group) (r : Nat) (x : Word64) : (g.setS r x).blocked = g.blocked := rfl
@[simp] theorem Group.setS_seq (g : Group) (r : Nat) (x : Word64) : (g.setS r x).seq = g.seq := rfl

@[simp] theorem Group.setP_unit (g : Group) (r : Nat) (m x : Mask) : (g.setP r m x).unit = g.unit := rfl
@[simp] theorem Group.setP_wg (g : Group) (r : Nat) (m x : Mask) : (g.setP r m x).wg = g.wg := rfl
@[simp] theorem Group.setP_gi (g : Group) (r : Nat) (m x : Mask) : (g.setP r m x).gi = g.gi := rfl
@[simp] theorem Group.setP_core (g : Group) (r : Nat) (m x : Mask) : (g.setP r m x).core = g.core := rfl
@[simp] theorem Group.setP_slot (g : Group) (r : Nat) (m x : Mask) : (g.setP r m x).slot = g.slot := rfl
@[simp] theorem Group.setP_st (g : Group) (r : Nat) (m x : Mask) : (g.setP r m x).st = g.st := rfl
@[simp] theorem Group.setP_prevSt (g : Group) (r : Nat) (m x : Mask) : (g.setP r m x).prevSt = g.prevSt := rfl
@[simp] theorem Group.setP_saved (g : Group) (r : Nat) (m x : Mask) : (g.setP r m x).saved = g.saved := rfl
@[simp] theorem Group.setP_slot0 (g : Group) (r : Nat) (m x : Mask) : (g.setP r m x).slot0 = g.slot0 := rfl
@[simp] theorem Group.setP_slot1 (g : Group) (r : Nat) (m x : Mask) : (g.setP r m x).slot1 = g.slot1 := rfl
@[simp] theorem Group.setP_stack (g : Group) (r : Nat) (m x : Mask) : (g.setP r m x).stack = g.stack := rfl
@[simp] theorem Group.setP_hdl (g : Group) (r : Nat) (m x : Mask) : (g.setP r m x).hdl = g.hdl := rfl
@[simp] theorem Group.setP_exited (g : Group) (r : Nat) (m x : Mask) : (g.setP r m x).exited = g.exited := rfl
@[simp] theorem Group.setP_vregs (g : Group) (r : Nat) (m x : Mask) : (g.setP r m x).vregs = g.vregs := rfl
@[simp] theorem Group.setP_sregs (g : Group) (r : Nat) (m x : Mask) : (g.setP r m x).sregs = g.sregs := rfl
@[simp] theorem Group.setP_flags (g : Group) (r : Nat) (m x : Mask) : (g.setP r m x).flags = g.flags := rfl
@[simp] theorem Group.setP_cause (g : Group) (r : Nat) (m x : Mask) : (g.setP r m x).cause = g.cause := rfl
@[simp] theorem Group.setP_trappc (g : Group) (r : Nat) (m x : Mask) : (g.setP r m x).trappc = g.trappc := rfl
@[simp] theorem Group.setP_tinfo0 (g : Group) (r : Nat) (m x : Mask) : (g.setP r m x).tinfo0 = g.tinfo0 := rfl
@[simp] theorem Group.setP_tinfo1 (g : Group) (r : Nat) (m x : Mask) : (g.setP r m x).tinfo1 = g.tinfo1 := rfl
@[simp] theorem Group.setP_tinfo2 (g : Group) (r : Nat) (m x : Mask) : (g.setP r m x).tinfo2 = g.tinfo2 := rfl
@[simp] theorem Group.setP_tinfo3 (g : Group) (r : Nat) (m x : Mask) : (g.setP r m x).tinfo3 = g.tinfo3 := rfl
@[simp] theorem Group.setP_ucond (g : Group) (r : Nat) (m x : Mask) : (g.setP r m x).ucond = g.ucond := rfl
@[simp] theorem Group.setP_batch (g : Group) (r : Nat) (m x : Mask) : (g.setP r m x).batch = g.batch := rfl
@[simp] theorem Group.setP_mmxcnt (g : Group) (r : Nat) (m x : Mask) : (g.setP r m x).mmxcnt = g.mmxcnt := rfl
@[simp] theorem Group.setP_cprog (g : Group) (r : Nat) (m x : Mask) : (g.setP r m x).cprog = g.cprog := rfl
@[simp] theorem Group.setP_keys (g : Group) (r : Nat) (m x : Mask) : (g.setP r m x).keys = g.keys := rfl
@[simp] theorem Group.setP_watch (g : Group) (r : Nat) (m x : Mask) : (g.setP r m x).watch = g.watch := rfl
@[simp] theorem Group.setP_lastp1 (g : Group) (r : Nat) (m x : Mask) : (g.setP r m x).lastp1 = g.lastp1 := rfl
@[simp] theorem Group.setP_loads (g : Group) (r : Nat) (m x : Mask) : (g.setP r m x).loads = g.loads := rfl
@[simp] theorem Group.setP_stores (g : Group) (r : Nat) (m x : Mask) : (g.setP r m x).stores = g.stores := rfl
@[simp] theorem Group.setP_atoms (g : Group) (r : Nat) (m x : Mask) : (g.setP r m x).atoms = g.atoms := rfl
@[simp] theorem Group.setP_sent (g : Group) (r : Nat) (m x : Mask) : (g.setP r m x).sent = g.sent := rfl
@[simp] theorem Group.setP_lost (g : Group) (r : Nat) (m x : Mask) : (g.setP r m x).lost = g.lost := rfl
@[simp] theorem Group.setP_lateTrap (g : Group) (r : Nat) (m x : Mask) : (g.setP r m x).lateTrap = g.lateTrap := rfl
@[simp] theorem Group.setP_meq (g : Group) (r : Nat) (m x : Mask) : (g.setP r m x).meq = g.meq := rfl
@[simp] theorem Group.setP_waitCount (g : Group) (r : Nat) (m x : Mask) : (g.setP r m x).waitCount = g.waitCount := rfl
@[simp] theorem Group.setP_age (g : Group) (r : Nat) (m x : Mask) : (g.setP r m x).age = g.age := rfl
@[simp] theorem Group.setP_retired (g : Group) (r : Nat) (m x : Mask) : (g.setP r m x).retired = g.retired := rfl
@[simp] theorem Group.setP_spill (g : Group) (r : Nat) (m x : Mask) : (g.setP r m x).spill = g.spill := rfl
@[simp] theorem Group.setP_pendTrap (g : Group) (r : Nat) (m x : Mask) : (g.setP r m x).pendTrap = g.pendTrap := rfl
@[simp] theorem Group.setP_preemptReq (g : Group) (r : Nat) (m x : Mask) : (g.setP r m x).preemptReq = g.preemptReq := rfl
@[simp] theorem Group.setP_flush (g : Group) (r : Nat) (m x : Mask) : (g.setP r m x).flush = g.flush := rfl
@[simp] theorem Group.setP_released (g : Group) (r : Nat) (m x : Mask) : (g.setP r m x).released = g.released := rfl
@[simp] theorem Group.setP_regroup (g : Group) (r : Nat) (m x : Mask) : (g.setP r m x).regroup = g.regroup := rfl
@[simp] theorem Group.setP_blocked (g : Group) (r : Nat) (m x : Mask) : (g.setP r m x).blocked = g.blocked := rfl
@[simp] theorem Group.setP_seq (g : Group) (r : Nat) (m x : Mask) : (g.setP r m x).seq = g.seq := rfl

@[simp] theorem Group.orFlags_unit (g : Group) (f : Flags) : (g.orFlags f).unit = g.unit := rfl
@[simp] theorem Group.orFlags_wg (g : Group) (f : Flags) : (g.orFlags f).wg = g.wg := rfl
@[simp] theorem Group.orFlags_gi (g : Group) (f : Flags) : (g.orFlags f).gi = g.gi := rfl
@[simp] theorem Group.orFlags_core (g : Group) (f : Flags) : (g.orFlags f).core = g.core := rfl
@[simp] theorem Group.orFlags_slot (g : Group) (f : Flags) : (g.orFlags f).slot = g.slot := rfl
@[simp] theorem Group.orFlags_st (g : Group) (f : Flags) : (g.orFlags f).st = g.st := rfl
@[simp] theorem Group.orFlags_prevSt (g : Group) (f : Flags) : (g.orFlags f).prevSt = g.prevSt := rfl
@[simp] theorem Group.orFlags_saved (g : Group) (f : Flags) : (g.orFlags f).saved = g.saved := rfl
@[simp] theorem Group.orFlags_slot0 (g : Group) (f : Flags) : (g.orFlags f).slot0 = g.slot0 := rfl
@[simp] theorem Group.orFlags_slot1 (g : Group) (f : Flags) : (g.orFlags f).slot1 = g.slot1 := rfl
@[simp] theorem Group.orFlags_stack (g : Group) (f : Flags) : (g.orFlags f).stack = g.stack := rfl
@[simp] theorem Group.orFlags_hdl (g : Group) (f : Flags) : (g.orFlags f).hdl = g.hdl := rfl
@[simp] theorem Group.orFlags_exited (g : Group) (f : Flags) : (g.orFlags f).exited = g.exited := rfl
@[simp] theorem Group.orFlags_vregs (g : Group) (f : Flags) : (g.orFlags f).vregs = g.vregs := rfl
@[simp] theorem Group.orFlags_sregs (g : Group) (f : Flags) : (g.orFlags f).sregs = g.sregs := rfl
@[simp] theorem Group.orFlags_pregs (g : Group) (f : Flags) : (g.orFlags f).pregs = g.pregs := rfl
@[simp] theorem Group.orFlags_cause (g : Group) (f : Flags) : (g.orFlags f).cause = g.cause := rfl
@[simp] theorem Group.orFlags_trappc (g : Group) (f : Flags) : (g.orFlags f).trappc = g.trappc := rfl
@[simp] theorem Group.orFlags_tinfo0 (g : Group) (f : Flags) : (g.orFlags f).tinfo0 = g.tinfo0 := rfl
@[simp] theorem Group.orFlags_tinfo1 (g : Group) (f : Flags) : (g.orFlags f).tinfo1 = g.tinfo1 := rfl
@[simp] theorem Group.orFlags_tinfo2 (g : Group) (f : Flags) : (g.orFlags f).tinfo2 = g.tinfo2 := rfl
@[simp] theorem Group.orFlags_tinfo3 (g : Group) (f : Flags) : (g.orFlags f).tinfo3 = g.tinfo3 := rfl
@[simp] theorem Group.orFlags_ucond (g : Group) (f : Flags) : (g.orFlags f).ucond = g.ucond := rfl
@[simp] theorem Group.orFlags_batch (g : Group) (f : Flags) : (g.orFlags f).batch = g.batch := rfl
@[simp] theorem Group.orFlags_mmxcnt (g : Group) (f : Flags) : (g.orFlags f).mmxcnt = g.mmxcnt := rfl
@[simp] theorem Group.orFlags_cprog (g : Group) (f : Flags) : (g.orFlags f).cprog = g.cprog := rfl
@[simp] theorem Group.orFlags_keys (g : Group) (f : Flags) : (g.orFlags f).keys = g.keys := rfl
@[simp] theorem Group.orFlags_watch (g : Group) (f : Flags) : (g.orFlags f).watch = g.watch := rfl
@[simp] theorem Group.orFlags_lastp1 (g : Group) (f : Flags) : (g.orFlags f).lastp1 = g.lastp1 := rfl
@[simp] theorem Group.orFlags_loads (g : Group) (f : Flags) : (g.orFlags f).loads = g.loads := rfl
@[simp] theorem Group.orFlags_stores (g : Group) (f : Flags) : (g.orFlags f).stores = g.stores := rfl
@[simp] theorem Group.orFlags_atoms (g : Group) (f : Flags) : (g.orFlags f).atoms = g.atoms := rfl
@[simp] theorem Group.orFlags_sent (g : Group) (f : Flags) : (g.orFlags f).sent = g.sent := rfl
@[simp] theorem Group.orFlags_lost (g : Group) (f : Flags) : (g.orFlags f).lost = g.lost := rfl
@[simp] theorem Group.orFlags_lateTrap (g : Group) (f : Flags) : (g.orFlags f).lateTrap = g.lateTrap := rfl
@[simp] theorem Group.orFlags_meq (g : Group) (f : Flags) : (g.orFlags f).meq = g.meq := rfl
@[simp] theorem Group.orFlags_waitCount (g : Group) (f : Flags) : (g.orFlags f).waitCount = g.waitCount := rfl
@[simp] theorem Group.orFlags_age (g : Group) (f : Flags) : (g.orFlags f).age = g.age := rfl
@[simp] theorem Group.orFlags_retired (g : Group) (f : Flags) : (g.orFlags f).retired = g.retired := rfl
@[simp] theorem Group.orFlags_spill (g : Group) (f : Flags) : (g.orFlags f).spill = g.spill := rfl
@[simp] theorem Group.orFlags_pendTrap (g : Group) (f : Flags) : (g.orFlags f).pendTrap = g.pendTrap := rfl
@[simp] theorem Group.orFlags_preemptReq (g : Group) (f : Flags) : (g.orFlags f).preemptReq = g.preemptReq := rfl
@[simp] theorem Group.orFlags_flush (g : Group) (f : Flags) : (g.orFlags f).flush = g.flush := rfl
@[simp] theorem Group.orFlags_released (g : Group) (f : Flags) : (g.orFlags f).released = g.released := rfl
@[simp] theorem Group.orFlags_regroup (g : Group) (f : Flags) : (g.orFlags f).regroup = g.regroup := rfl
@[simp] theorem Group.orFlags_blocked (g : Group) (f : Flags) : (g.orFlags f).blocked = g.blocked := rfl
@[simp] theorem Group.orFlags_seq (g : Group) (f : Flags) : (g.orFlags f).seq = g.seq := rfl

/-- A PC slot replaced, field by field. -/
theorem Group.setPcSlot_def (g : Group) (i : Nat) (p : PcSlot) :
    g.setPcSlot i p = { g with slot0 := if i = 0 then p else g.slot0, slot1 := if i = 1 then p else g.slot1,
                               hdl := if 2 ≤ i then g.hdl.map (fun h => { h with slot := p }) else g.hdl } := by
  unfold Group.setPcSlot
  match i with
  | 0 => rfl
  | 1 => rfl
  | n + 2 =>
    cases h : g.hdl with
    | some x => simp
    | none =>
      have : g = { g with hdl := none } := by rw [← h]
      simpa using this

/-- A PC slot by number. -/
theorem Group.pcSlot_def (g : Group) (i : Nat) :
    g.pcSlot i = if i = 0 then g.slot0 else if i = 1 then g.slot1 else (g.hdl.map (·.slot)).getD PcSlot.empty := by
  unfold Group.pcSlot
  match i with
  | 0 => rfl
  | 1 => rfl
  | n + 2 => cases g.hdl <;> simp

/-- The stamp of an issue, field by field. -/
theorem Group.stamp_def (g : Group) (i : Nat) :
    g.stamp i = { g.setPcSlot i { g.pcSlot i with last := g.retired + 1 } with
      retired := g.retired + 1, waitCount := 0,
      hdl := (g.setPcSlot i { g.pcSlot i with last := g.retired + 1 }).hdl.map (fun h => { h with retired := h.retired + 1 }) } := by
  unfold Group.stamp
  cases h : (g.setPcSlot i { g.pcSlot i with last := g.retired + 1 }).hdl <;> simp [h]

/-- A PC slot replaced changes the slots and the handler's frame alone. -/
theorem Group.setPcSlot_eq (g : Group) (i : Nat) (p : PcSlot) :
    g.setPcSlot i p = { g with slot0 := (g.setPcSlot i p).slot0, slot1 := (g.setPcSlot i p).slot1, hdl := (g.setPcSlot i p).hdl } := by
  unfold Group.setPcSlot
  split
  · rfl
  · rfl
  · split
    · rfl
    · rfl

@[simp] theorem Group.setPcSlot_unit (g : Group) (i : Nat) (p : PcSlot) : (g.setPcSlot i p).unit = g.unit := by rw [Group.setPcSlot_eq]
@[simp] theorem Group.setPcSlot_wg (g : Group) (i : Nat) (p : PcSlot) : (g.setPcSlot i p).wg = g.wg := by rw [Group.setPcSlot_eq]
@[simp] theorem Group.setPcSlot_gi (g : Group) (i : Nat) (p : PcSlot) : (g.setPcSlot i p).gi = g.gi := by rw [Group.setPcSlot_eq]
@[simp] theorem Group.setPcSlot_core (g : Group) (i : Nat) (p : PcSlot) : (g.setPcSlot i p).core = g.core := by rw [Group.setPcSlot_eq]
@[simp] theorem Group.setPcSlot_slot (g : Group) (i : Nat) (p : PcSlot) : (g.setPcSlot i p).slot = g.slot := by rw [Group.setPcSlot_eq]
@[simp] theorem Group.setPcSlot_st (g : Group) (i : Nat) (p : PcSlot) : (g.setPcSlot i p).st = g.st := by rw [Group.setPcSlot_eq]
@[simp] theorem Group.setPcSlot_prevSt (g : Group) (i : Nat) (p : PcSlot) : (g.setPcSlot i p).prevSt = g.prevSt := by rw [Group.setPcSlot_eq]
@[simp] theorem Group.setPcSlot_saved (g : Group) (i : Nat) (p : PcSlot) : (g.setPcSlot i p).saved = g.saved := by rw [Group.setPcSlot_eq]
@[simp] theorem Group.setPcSlot_stack (g : Group) (i : Nat) (p : PcSlot) : (g.setPcSlot i p).stack = g.stack := by rw [Group.setPcSlot_eq]
@[simp] theorem Group.setPcSlot_exited (g : Group) (i : Nat) (p : PcSlot) : (g.setPcSlot i p).exited = g.exited := by rw [Group.setPcSlot_eq]
@[simp] theorem Group.setPcSlot_vregs (g : Group) (i : Nat) (p : PcSlot) : (g.setPcSlot i p).vregs = g.vregs := by rw [Group.setPcSlot_eq]
@[simp] theorem Group.setPcSlot_sregs (g : Group) (i : Nat) (p : PcSlot) : (g.setPcSlot i p).sregs = g.sregs := by rw [Group.setPcSlot_eq]
@[simp] theorem Group.setPcSlot_pregs (g : Group) (i : Nat) (p : PcSlot) : (g.setPcSlot i p).pregs = g.pregs := by rw [Group.setPcSlot_eq]
@[simp] theorem Group.setPcSlot_flags (g : Group) (i : Nat) (p : PcSlot) : (g.setPcSlot i p).flags = g.flags := by rw [Group.setPcSlot_eq]
@[simp] theorem Group.setPcSlot_cause (g : Group) (i : Nat) (p : PcSlot) : (g.setPcSlot i p).cause = g.cause := by rw [Group.setPcSlot_eq]
@[simp] theorem Group.setPcSlot_trappc (g : Group) (i : Nat) (p : PcSlot) : (g.setPcSlot i p).trappc = g.trappc := by rw [Group.setPcSlot_eq]
@[simp] theorem Group.setPcSlot_tinfo0 (g : Group) (i : Nat) (p : PcSlot) : (g.setPcSlot i p).tinfo0 = g.tinfo0 := by rw [Group.setPcSlot_eq]
@[simp] theorem Group.setPcSlot_tinfo1 (g : Group) (i : Nat) (p : PcSlot) : (g.setPcSlot i p).tinfo1 = g.tinfo1 := by rw [Group.setPcSlot_eq]
@[simp] theorem Group.setPcSlot_tinfo2 (g : Group) (i : Nat) (p : PcSlot) : (g.setPcSlot i p).tinfo2 = g.tinfo2 := by rw [Group.setPcSlot_eq]
@[simp] theorem Group.setPcSlot_tinfo3 (g : Group) (i : Nat) (p : PcSlot) : (g.setPcSlot i p).tinfo3 = g.tinfo3 := by rw [Group.setPcSlot_eq]
@[simp] theorem Group.setPcSlot_ucond (g : Group) (i : Nat) (p : PcSlot) : (g.setPcSlot i p).ucond = g.ucond := by rw [Group.setPcSlot_eq]
@[simp] theorem Group.setPcSlot_batch (g : Group) (i : Nat) (p : PcSlot) : (g.setPcSlot i p).batch = g.batch := by rw [Group.setPcSlot_eq]
@[simp] theorem Group.setPcSlot_mmxcnt (g : Group) (i : Nat) (p : PcSlot) : (g.setPcSlot i p).mmxcnt = g.mmxcnt := by rw [Group.setPcSlot_eq]
@[simp] theorem Group.setPcSlot_cprog (g : Group) (i : Nat) (p : PcSlot) : (g.setPcSlot i p).cprog = g.cprog := by rw [Group.setPcSlot_eq]
@[simp] theorem Group.setPcSlot_keys (g : Group) (i : Nat) (p : PcSlot) : (g.setPcSlot i p).keys = g.keys := by rw [Group.setPcSlot_eq]
@[simp] theorem Group.setPcSlot_watch (g : Group) (i : Nat) (p : PcSlot) : (g.setPcSlot i p).watch = g.watch := by rw [Group.setPcSlot_eq]
@[simp] theorem Group.setPcSlot_lastp1 (g : Group) (i : Nat) (p : PcSlot) : (g.setPcSlot i p).lastp1 = g.lastp1 := by rw [Group.setPcSlot_eq]
@[simp] theorem Group.setPcSlot_loads (g : Group) (i : Nat) (p : PcSlot) : (g.setPcSlot i p).loads = g.loads := by rw [Group.setPcSlot_eq]
@[simp] theorem Group.setPcSlot_stores (g : Group) (i : Nat) (p : PcSlot) : (g.setPcSlot i p).stores = g.stores := by rw [Group.setPcSlot_eq]
@[simp] theorem Group.setPcSlot_atoms (g : Group) (i : Nat) (p : PcSlot) : (g.setPcSlot i p).atoms = g.atoms := by rw [Group.setPcSlot_eq]
@[simp] theorem Group.setPcSlot_sent (g : Group) (i : Nat) (p : PcSlot) : (g.setPcSlot i p).sent = g.sent := by rw [Group.setPcSlot_eq]
@[simp] theorem Group.setPcSlot_lost (g : Group) (i : Nat) (p : PcSlot) : (g.setPcSlot i p).lost = g.lost := by rw [Group.setPcSlot_eq]
@[simp] theorem Group.setPcSlot_lateTrap (g : Group) (i : Nat) (p : PcSlot) : (g.setPcSlot i p).lateTrap = g.lateTrap := by rw [Group.setPcSlot_eq]
@[simp] theorem Group.setPcSlot_meq (g : Group) (i : Nat) (p : PcSlot) : (g.setPcSlot i p).meq = g.meq := by rw [Group.setPcSlot_eq]
@[simp] theorem Group.setPcSlot_waitCount (g : Group) (i : Nat) (p : PcSlot) : (g.setPcSlot i p).waitCount = g.waitCount := by rw [Group.setPcSlot_eq]
@[simp] theorem Group.setPcSlot_age (g : Group) (i : Nat) (p : PcSlot) : (g.setPcSlot i p).age = g.age := by rw [Group.setPcSlot_eq]
@[simp] theorem Group.setPcSlot_retired (g : Group) (i : Nat) (p : PcSlot) : (g.setPcSlot i p).retired = g.retired := by rw [Group.setPcSlot_eq]
@[simp] theorem Group.setPcSlot_spill (g : Group) (i : Nat) (p : PcSlot) : (g.setPcSlot i p).spill = g.spill := by rw [Group.setPcSlot_eq]
@[simp] theorem Group.setPcSlot_pendTrap (g : Group) (i : Nat) (p : PcSlot) : (g.setPcSlot i p).pendTrap = g.pendTrap := by rw [Group.setPcSlot_eq]
@[simp] theorem Group.setPcSlot_preemptReq (g : Group) (i : Nat) (p : PcSlot) : (g.setPcSlot i p).preemptReq = g.preemptReq := by rw [Group.setPcSlot_eq]
@[simp] theorem Group.setPcSlot_flush (g : Group) (i : Nat) (p : PcSlot) : (g.setPcSlot i p).flush = g.flush := by rw [Group.setPcSlot_eq]
@[simp] theorem Group.setPcSlot_released (g : Group) (i : Nat) (p : PcSlot) : (g.setPcSlot i p).released = g.released := by rw [Group.setPcSlot_eq]
@[simp] theorem Group.setPcSlot_regroup (g : Group) (i : Nat) (p : PcSlot) : (g.setPcSlot i p).regroup = g.regroup := by rw [Group.setPcSlot_eq]
@[simp] theorem Group.setPcSlot_blocked (g : Group) (i : Nat) (p : PcSlot) : (g.setPcSlot i p).blocked = g.blocked := by rw [Group.setPcSlot_eq]
@[simp] theorem Group.setPcSlot_seq (g : Group) (i : Nat) (p : PcSlot) : (g.setPcSlot i p).seq = g.seq := by rw [Group.setPcSlot_eq]

@[simp] theorem Group.advance_unit (g : Group) (i n : Nat) : (g.advance i n).unit = g.unit := by simp [Group.advance]
@[simp] theorem Group.advance_wg (g : Group) (i n : Nat) : (g.advance i n).wg = g.wg := by simp [Group.advance]
@[simp] theorem Group.advance_gi (g : Group) (i n : Nat) : (g.advance i n).gi = g.gi := by simp [Group.advance]
@[simp] theorem Group.advance_core (g : Group) (i n : Nat) : (g.advance i n).core = g.core := by simp [Group.advance]
@[simp] theorem Group.advance_slot (g : Group) (i n : Nat) : (g.advance i n).slot = g.slot := by simp [Group.advance]
@[simp] theorem Group.advance_st (g : Group) (i n : Nat) : (g.advance i n).st = g.st := by simp [Group.advance]
@[simp] theorem Group.advance_prevSt (g : Group) (i n : Nat) : (g.advance i n).prevSt = g.prevSt := by simp [Group.advance]
@[simp] theorem Group.advance_saved (g : Group) (i n : Nat) : (g.advance i n).saved = g.saved := by simp [Group.advance]
@[simp] theorem Group.advance_stack (g : Group) (i n : Nat) : (g.advance i n).stack = g.stack := by simp [Group.advance]
@[simp] theorem Group.advance_exited (g : Group) (i n : Nat) : (g.advance i n).exited = g.exited := by simp [Group.advance]
@[simp] theorem Group.advance_vregs (g : Group) (i n : Nat) : (g.advance i n).vregs = g.vregs := by simp [Group.advance]
@[simp] theorem Group.advance_sregs (g : Group) (i n : Nat) : (g.advance i n).sregs = g.sregs := by simp [Group.advance]
@[simp] theorem Group.advance_pregs (g : Group) (i n : Nat) : (g.advance i n).pregs = g.pregs := by simp [Group.advance]
@[simp] theorem Group.advance_flags (g : Group) (i n : Nat) : (g.advance i n).flags = g.flags := by simp [Group.advance]
@[simp] theorem Group.advance_cause (g : Group) (i n : Nat) : (g.advance i n).cause = g.cause := by simp [Group.advance]
@[simp] theorem Group.advance_trappc (g : Group) (i n : Nat) : (g.advance i n).trappc = g.trappc := by simp [Group.advance]
@[simp] theorem Group.advance_tinfo0 (g : Group) (i n : Nat) : (g.advance i n).tinfo0 = g.tinfo0 := by simp [Group.advance]
@[simp] theorem Group.advance_tinfo1 (g : Group) (i n : Nat) : (g.advance i n).tinfo1 = g.tinfo1 := by simp [Group.advance]
@[simp] theorem Group.advance_tinfo2 (g : Group) (i n : Nat) : (g.advance i n).tinfo2 = g.tinfo2 := by simp [Group.advance]
@[simp] theorem Group.advance_tinfo3 (g : Group) (i n : Nat) : (g.advance i n).tinfo3 = g.tinfo3 := by simp [Group.advance]
@[simp] theorem Group.advance_ucond (g : Group) (i n : Nat) : (g.advance i n).ucond = g.ucond := by simp [Group.advance]
@[simp] theorem Group.advance_batch (g : Group) (i n : Nat) : (g.advance i n).batch = g.batch := by simp [Group.advance]
@[simp] theorem Group.advance_mmxcnt (g : Group) (i n : Nat) : (g.advance i n).mmxcnt = g.mmxcnt := by simp [Group.advance]
@[simp] theorem Group.advance_cprog (g : Group) (i n : Nat) : (g.advance i n).cprog = g.cprog := by simp [Group.advance]
@[simp] theorem Group.advance_keys (g : Group) (i n : Nat) : (g.advance i n).keys = g.keys := by simp [Group.advance]
@[simp] theorem Group.advance_watch (g : Group) (i n : Nat) : (g.advance i n).watch = g.watch := by simp [Group.advance]
@[simp] theorem Group.advance_lastp1 (g : Group) (i n : Nat) : (g.advance i n).lastp1 = g.lastp1 := by simp [Group.advance]
@[simp] theorem Group.advance_loads (g : Group) (i n : Nat) : (g.advance i n).loads = g.loads := by simp [Group.advance]
@[simp] theorem Group.advance_stores (g : Group) (i n : Nat) : (g.advance i n).stores = g.stores := by simp [Group.advance]
@[simp] theorem Group.advance_atoms (g : Group) (i n : Nat) : (g.advance i n).atoms = g.atoms := by simp [Group.advance]
@[simp] theorem Group.advance_sent (g : Group) (i n : Nat) : (g.advance i n).sent = g.sent := by simp [Group.advance]
@[simp] theorem Group.advance_lost (g : Group) (i n : Nat) : (g.advance i n).lost = g.lost := by simp [Group.advance]
@[simp] theorem Group.advance_lateTrap (g : Group) (i n : Nat) : (g.advance i n).lateTrap = g.lateTrap := by simp [Group.advance]
@[simp] theorem Group.advance_meq (g : Group) (i n : Nat) : (g.advance i n).meq = g.meq := by simp [Group.advance]
@[simp] theorem Group.advance_waitCount (g : Group) (i n : Nat) : (g.advance i n).waitCount = g.waitCount := by simp [Group.advance]
@[simp] theorem Group.advance_age (g : Group) (i n : Nat) : (g.advance i n).age = g.age := by simp [Group.advance]
@[simp] theorem Group.advance_retired (g : Group) (i n : Nat) : (g.advance i n).retired = g.retired := by simp [Group.advance]
@[simp] theorem Group.advance_spill (g : Group) (i n : Nat) : (g.advance i n).spill = g.spill := by simp [Group.advance]
@[simp] theorem Group.advance_pendTrap (g : Group) (i n : Nat) : (g.advance i n).pendTrap = g.pendTrap := by simp [Group.advance]
@[simp] theorem Group.advance_preemptReq (g : Group) (i n : Nat) : (g.advance i n).preemptReq = g.preemptReq := by simp [Group.advance]
@[simp] theorem Group.advance_flush (g : Group) (i n : Nat) : (g.advance i n).flush = g.flush := by simp [Group.advance]
@[simp] theorem Group.advance_released (g : Group) (i n : Nat) : (g.advance i n).released = g.released := by simp [Group.advance]
@[simp] theorem Group.advance_regroup (g : Group) (i n : Nat) : (g.advance i n).regroup = g.regroup := by simp [Group.advance]
@[simp] theorem Group.advance_blocked (g : Group) (i n : Nat) : (g.advance i n).blocked = g.blocked := by simp [Group.advance]
@[simp] theorem Group.advance_seq (g : Group) (i n : Nat) : (g.advance i n).seq = g.seq := by simp [Group.advance]

@[simp] theorem Group.jump_unit (g : Group) (i n : Nat) : (g.jump i n).unit = g.unit := by simp [Group.jump]
@[simp] theorem Group.jump_wg (g : Group) (i n : Nat) : (g.jump i n).wg = g.wg := by simp [Group.jump]
@[simp] theorem Group.jump_gi (g : Group) (i n : Nat) : (g.jump i n).gi = g.gi := by simp [Group.jump]
@[simp] theorem Group.jump_core (g : Group) (i n : Nat) : (g.jump i n).core = g.core := by simp [Group.jump]
@[simp] theorem Group.jump_slot (g : Group) (i n : Nat) : (g.jump i n).slot = g.slot := by simp [Group.jump]
@[simp] theorem Group.jump_st (g : Group) (i n : Nat) : (g.jump i n).st = g.st := by simp [Group.jump]
@[simp] theorem Group.jump_prevSt (g : Group) (i n : Nat) : (g.jump i n).prevSt = g.prevSt := by simp [Group.jump]
@[simp] theorem Group.jump_saved (g : Group) (i n : Nat) : (g.jump i n).saved = g.saved := by simp [Group.jump]
@[simp] theorem Group.jump_stack (g : Group) (i n : Nat) : (g.jump i n).stack = g.stack := by simp [Group.jump]
@[simp] theorem Group.jump_exited (g : Group) (i n : Nat) : (g.jump i n).exited = g.exited := by simp [Group.jump]
@[simp] theorem Group.jump_vregs (g : Group) (i n : Nat) : (g.jump i n).vregs = g.vregs := by simp [Group.jump]
@[simp] theorem Group.jump_sregs (g : Group) (i n : Nat) : (g.jump i n).sregs = g.sregs := by simp [Group.jump]
@[simp] theorem Group.jump_pregs (g : Group) (i n : Nat) : (g.jump i n).pregs = g.pregs := by simp [Group.jump]
@[simp] theorem Group.jump_flags (g : Group) (i n : Nat) : (g.jump i n).flags = g.flags := by simp [Group.jump]
@[simp] theorem Group.jump_cause (g : Group) (i n : Nat) : (g.jump i n).cause = g.cause := by simp [Group.jump]
@[simp] theorem Group.jump_trappc (g : Group) (i n : Nat) : (g.jump i n).trappc = g.trappc := by simp [Group.jump]
@[simp] theorem Group.jump_tinfo0 (g : Group) (i n : Nat) : (g.jump i n).tinfo0 = g.tinfo0 := by simp [Group.jump]
@[simp] theorem Group.jump_tinfo1 (g : Group) (i n : Nat) : (g.jump i n).tinfo1 = g.tinfo1 := by simp [Group.jump]
@[simp] theorem Group.jump_tinfo2 (g : Group) (i n : Nat) : (g.jump i n).tinfo2 = g.tinfo2 := by simp [Group.jump]
@[simp] theorem Group.jump_tinfo3 (g : Group) (i n : Nat) : (g.jump i n).tinfo3 = g.tinfo3 := by simp [Group.jump]
@[simp] theorem Group.jump_ucond (g : Group) (i n : Nat) : (g.jump i n).ucond = g.ucond := by simp [Group.jump]
@[simp] theorem Group.jump_batch (g : Group) (i n : Nat) : (g.jump i n).batch = g.batch := by simp [Group.jump]
@[simp] theorem Group.jump_mmxcnt (g : Group) (i n : Nat) : (g.jump i n).mmxcnt = g.mmxcnt := by simp [Group.jump]
@[simp] theorem Group.jump_cprog (g : Group) (i n : Nat) : (g.jump i n).cprog = g.cprog := by simp [Group.jump]
@[simp] theorem Group.jump_keys (g : Group) (i n : Nat) : (g.jump i n).keys = g.keys := by simp [Group.jump]
@[simp] theorem Group.jump_watch (g : Group) (i n : Nat) : (g.jump i n).watch = g.watch := by simp [Group.jump]
@[simp] theorem Group.jump_lastp1 (g : Group) (i n : Nat) : (g.jump i n).lastp1 = g.lastp1 := by simp [Group.jump]
@[simp] theorem Group.jump_loads (g : Group) (i n : Nat) : (g.jump i n).loads = g.loads := by simp [Group.jump]
@[simp] theorem Group.jump_stores (g : Group) (i n : Nat) : (g.jump i n).stores = g.stores := by simp [Group.jump]
@[simp] theorem Group.jump_atoms (g : Group) (i n : Nat) : (g.jump i n).atoms = g.atoms := by simp [Group.jump]
@[simp] theorem Group.jump_sent (g : Group) (i n : Nat) : (g.jump i n).sent = g.sent := by simp [Group.jump]
@[simp] theorem Group.jump_lost (g : Group) (i n : Nat) : (g.jump i n).lost = g.lost := by simp [Group.jump]
@[simp] theorem Group.jump_lateTrap (g : Group) (i n : Nat) : (g.jump i n).lateTrap = g.lateTrap := by simp [Group.jump]
@[simp] theorem Group.jump_meq (g : Group) (i n : Nat) : (g.jump i n).meq = g.meq := by simp [Group.jump]
@[simp] theorem Group.jump_waitCount (g : Group) (i n : Nat) : (g.jump i n).waitCount = g.waitCount := by simp [Group.jump]
@[simp] theorem Group.jump_age (g : Group) (i n : Nat) : (g.jump i n).age = g.age := by simp [Group.jump]
@[simp] theorem Group.jump_retired (g : Group) (i n : Nat) : (g.jump i n).retired = g.retired := by simp [Group.jump]
@[simp] theorem Group.jump_spill (g : Group) (i n : Nat) : (g.jump i n).spill = g.spill := by simp [Group.jump]
@[simp] theorem Group.jump_pendTrap (g : Group) (i n : Nat) : (g.jump i n).pendTrap = g.pendTrap := by simp [Group.jump]
@[simp] theorem Group.jump_preemptReq (g : Group) (i n : Nat) : (g.jump i n).preemptReq = g.preemptReq := by simp [Group.jump]
@[simp] theorem Group.jump_flush (g : Group) (i n : Nat) : (g.jump i n).flush = g.flush := by simp [Group.jump]
@[simp] theorem Group.jump_released (g : Group) (i n : Nat) : (g.jump i n).released = g.released := by simp [Group.jump]
@[simp] theorem Group.jump_regroup (g : Group) (i n : Nat) : (g.jump i n).regroup = g.regroup := by simp [Group.jump]
@[simp] theorem Group.jump_blocked (g : Group) (i n : Nat) : (g.jump i n).blocked = g.blocked := by simp [Group.jump]
@[simp] theorem Group.jump_seq (g : Group) (i n : Nat) : (g.jump i n).seq = g.seq := by simp [Group.jump]

@[simp] theorem Group.stamp_unit (g : Group) (i : Nat) : (g.stamp i).unit = g.unit := by simp [Group.stamp]
@[simp] theorem Group.stamp_wg (g : Group) (i : Nat) : (g.stamp i).wg = g.wg := by simp [Group.stamp]
@[simp] theorem Group.stamp_gi (g : Group) (i : Nat) : (g.stamp i).gi = g.gi := by simp [Group.stamp]
@[simp] theorem Group.stamp_core (g : Group) (i : Nat) : (g.stamp i).core = g.core := by simp [Group.stamp]
@[simp] theorem Group.stamp_slot (g : Group) (i : Nat) : (g.stamp i).slot = g.slot := by simp [Group.stamp]
@[simp] theorem Group.stamp_st (g : Group) (i : Nat) : (g.stamp i).st = g.st := by simp [Group.stamp]
@[simp] theorem Group.stamp_prevSt (g : Group) (i : Nat) : (g.stamp i).prevSt = g.prevSt := by simp [Group.stamp]
@[simp] theorem Group.stamp_saved (g : Group) (i : Nat) : (g.stamp i).saved = g.saved := by simp [Group.stamp]
@[simp] theorem Group.stamp_stack (g : Group) (i : Nat) : (g.stamp i).stack = g.stack := by simp [Group.stamp]
@[simp] theorem Group.stamp_exited (g : Group) (i : Nat) : (g.stamp i).exited = g.exited := by simp [Group.stamp]
@[simp] theorem Group.stamp_vregs (g : Group) (i : Nat) : (g.stamp i).vregs = g.vregs := by simp [Group.stamp]
@[simp] theorem Group.stamp_sregs (g : Group) (i : Nat) : (g.stamp i).sregs = g.sregs := by simp [Group.stamp]
@[simp] theorem Group.stamp_pregs (g : Group) (i : Nat) : (g.stamp i).pregs = g.pregs := by simp [Group.stamp]
@[simp] theorem Group.stamp_flags (g : Group) (i : Nat) : (g.stamp i).flags = g.flags := by simp [Group.stamp]
@[simp] theorem Group.stamp_cause (g : Group) (i : Nat) : (g.stamp i).cause = g.cause := by simp [Group.stamp]
@[simp] theorem Group.stamp_trappc (g : Group) (i : Nat) : (g.stamp i).trappc = g.trappc := by simp [Group.stamp]
@[simp] theorem Group.stamp_tinfo0 (g : Group) (i : Nat) : (g.stamp i).tinfo0 = g.tinfo0 := by simp [Group.stamp]
@[simp] theorem Group.stamp_tinfo1 (g : Group) (i : Nat) : (g.stamp i).tinfo1 = g.tinfo1 := by simp [Group.stamp]
@[simp] theorem Group.stamp_tinfo2 (g : Group) (i : Nat) : (g.stamp i).tinfo2 = g.tinfo2 := by simp [Group.stamp]
@[simp] theorem Group.stamp_tinfo3 (g : Group) (i : Nat) : (g.stamp i).tinfo3 = g.tinfo3 := by simp [Group.stamp]
@[simp] theorem Group.stamp_ucond (g : Group) (i : Nat) : (g.stamp i).ucond = g.ucond := by simp [Group.stamp]
@[simp] theorem Group.stamp_batch (g : Group) (i : Nat) : (g.stamp i).batch = g.batch := by simp [Group.stamp]
@[simp] theorem Group.stamp_mmxcnt (g : Group) (i : Nat) : (g.stamp i).mmxcnt = g.mmxcnt := by simp [Group.stamp]
@[simp] theorem Group.stamp_cprog (g : Group) (i : Nat) : (g.stamp i).cprog = g.cprog := by simp [Group.stamp]
@[simp] theorem Group.stamp_keys (g : Group) (i : Nat) : (g.stamp i).keys = g.keys := by simp [Group.stamp]
@[simp] theorem Group.stamp_watch (g : Group) (i : Nat) : (g.stamp i).watch = g.watch := by simp [Group.stamp]
@[simp] theorem Group.stamp_lastp1 (g : Group) (i : Nat) : (g.stamp i).lastp1 = g.lastp1 := by simp [Group.stamp]
@[simp] theorem Group.stamp_loads (g : Group) (i : Nat) : (g.stamp i).loads = g.loads := by simp [Group.stamp]
@[simp] theorem Group.stamp_stores (g : Group) (i : Nat) : (g.stamp i).stores = g.stores := by simp [Group.stamp]
@[simp] theorem Group.stamp_atoms (g : Group) (i : Nat) : (g.stamp i).atoms = g.atoms := by simp [Group.stamp]
@[simp] theorem Group.stamp_sent (g : Group) (i : Nat) : (g.stamp i).sent = g.sent := by simp [Group.stamp]
@[simp] theorem Group.stamp_lost (g : Group) (i : Nat) : (g.stamp i).lost = g.lost := by simp [Group.stamp]
@[simp] theorem Group.stamp_lateTrap (g : Group) (i : Nat) : (g.stamp i).lateTrap = g.lateTrap := by simp [Group.stamp]
@[simp] theorem Group.stamp_meq (g : Group) (i : Nat) : (g.stamp i).meq = g.meq := by simp [Group.stamp]
@[simp] theorem Group.stamp_age (g : Group) (i : Nat) : (g.stamp i).age = g.age := by simp [Group.stamp]
@[simp] theorem Group.stamp_spill (g : Group) (i : Nat) : (g.stamp i).spill = g.spill := by simp [Group.stamp]
@[simp] theorem Group.stamp_pendTrap (g : Group) (i : Nat) : (g.stamp i).pendTrap = g.pendTrap := by simp [Group.stamp]
@[simp] theorem Group.stamp_preemptReq (g : Group) (i : Nat) : (g.stamp i).preemptReq = g.preemptReq := by simp [Group.stamp]
@[simp] theorem Group.stamp_flush (g : Group) (i : Nat) : (g.stamp i).flush = g.flush := by simp [Group.stamp]
@[simp] theorem Group.stamp_released (g : Group) (i : Nat) : (g.stamp i).released = g.released := by simp [Group.stamp]
@[simp] theorem Group.stamp_regroup (g : Group) (i : Nat) : (g.stamp i).regroup = g.regroup := by simp [Group.stamp]
@[simp] theorem Group.stamp_blocked (g : Group) (i : Nat) : (g.stamp i).blocked = g.blocked := by simp [Group.stamp]
@[simp] theorem Group.stamp_seq (g : Group) (i : Nat) : (g.stamp i).seq = g.seq := by simp [Group.stamp]

end Sys2Proof.Machine
end

