-- ==== Sys2Proof/Laws/Issue.lean ====
section
/-! SUPPORT. What finding, replacing and issuing a group gives: the spec lemmas of group?, putGroup, issuing, runInstr,
conclude and retire, and what the writes to registers do. -/

namespace Sys2Proof.Machine

/-! ## Groups in the state -/

/-- A group found by core and slot stands there. -/
theorem State.group?_some {s : State} {k j : Nat} {g : Group} (h : s.group? k j = some g) : g.core = k ∧ g.slot = j := by
  have := List.find?_some h
  simpa using this

theorem find?_putGroup (gs : List Group) (g : Group) (k j : Nat) :
    (gs.map (fun h => if h.core == g.core && h.slot == g.slot then g else h)).find? (fun h => h.core == k && h.slot == j) =
      if k = g.core ∧ j = g.slot then (gs.find? (fun h => h.core == k && h.slot == j)).map (fun _ => g)
      else gs.find? (fun h => h.core == k && h.slot == j) := by
  induction gs with
  | nil => simp
  | cons h gs ih =>
    simp only [List.map_cons, List.find?_cons, ih]
    by_cases hg : h.core = g.core ∧ h.slot = g.slot
    · obtain ⟨h1, h2⟩ := hg
      by_cases hk : g.core = k ∧ g.slot = j
      · obtain ⟨rfl, rfl⟩ := hk
        simp [h1, h2]
      · have hk' : ¬(k = g.core ∧ j = g.slot) := fun e => hk ⟨e.1.symm, e.2.symm⟩
        have e1 : (g.core == k && g.slot == j) = false := by
          simp only [Bool.and_eq_false_iff, beq_eq_false_iff_ne]
          by_cases hc : g.core = k
          · exact .inr (fun hj => hk ⟨hc, hj⟩)
          · exact .inl hc
        simp only [h1, h2, e1, hk']
        simp [e1]
    · have e2 : (h.core == g.core && h.slot == g.slot) = false := by
        simp only [Bool.and_eq_false_iff, beq_eq_false_iff_ne]
        by_cases hc : h.core = g.core
        · exact .inr (fun hj => hg ⟨hc, hj⟩)
        · exact .inl hc
      simp only [e2]
      by_cases hk : k = g.core ∧ j = g.slot
      · obtain ⟨rfl, rfl⟩ := hk
        simp [e2]
      · simp only [hk, if_false]
        simp

/-- A group after one is replaced: the new one in its place, every other as before. -/
theorem State.group?_putGroup (s : State) (g : Group) (k j : Nat) :
    (s.putGroup g).group? k j = if k = g.core ∧ j = g.slot then (s.group? k j).map (fun _ => g) else s.group? k j :=
  find?_putGroup s.sched.groups g k j

/-- A group replaced where one stands. -/
theorem State.group?_putGroup_same {s : State} {k j : Nat} {h g : Group} (hs : s.group? k j = some h) (hk : g.core = k)
    (hj : g.slot = j) : (s.putGroup g).group? k j = some g := by
  rw [State.group?_putGroup, if_pos ⟨hk.symm, hj.symm⟩, hs]; rfl

/-- A group in another place. -/
theorem State.group?_putGroup_other {s : State} {k j : Nat} {g : Group} (h : ¬(k = g.core ∧ j = g.slot)) :
    (s.putGroup g).group? k j = s.group? k j := by
  rw [State.group?_putGroup, if_neg h]

/-- Groups are found by the list of groups alone. -/
theorem State.group?_congr {s t : State} (h : t.sched.groups = s.sched.groups) (k j : Nat) : t.group? k j = s.group? k j := by
  unfold State.group?; rw [h]

/-! ## The issuing group -/

/-- A group woken from WAIT differs in its state alone. -/
theorem Group.awake_eq (g : Group) : g.awake = { g with st := g.awake.st } := by
  unfold Group.awake; split <;> rfl

@[simp] theorem Group.awake_core (g : Group) : g.awake.core = g.core := by rw [Group.awake_eq]
@[simp] theorem Group.awake_slot (g : Group) : g.awake.slot = g.slot := by rw [Group.awake_eq]
@[simp] theorem Group.awake_unit (g : Group) : g.awake.unit = g.unit := by rw [Group.awake_eq]
@[simp] theorem Group.awake_wg (g : Group) : g.awake.wg = g.wg := by rw [Group.awake_eq]

/-- What issuing finds: the group that State.cur names, with its unit and launch, in a state in which it may issue. -/
theorem State.issuing_spec {s : State} {c : Iss} (h : s.issuing = some c) :
    ∃ r g, s.cur = some r ∧ s.group? r.core r.slot = some g ∧ s.unit? g.unit = some c.u ∧ s.launch? c.u.launch = some c.l ∧
      c = { st := s, g := g.awake, which := r.pcSlot, ps := g.pcSlot r.pcSlot, u := c.u, l := c.l, raw := r.raw, len := r.len,
            waiting := g.inWait } ∧
      s.mgmt.devState = .ready ∧ g.awake.mayIssue r.pcSlot = true ∧ c.u.st = .running ∧ c.u.saved = false ∧
      s.regionOpen c.l.ctx c.l.region = true ∧ s.preemptStops g = false := by
  unfold State.issuing at h
  cases hr : s.cur with
  | none => simp [hr] at h
  | some r =>
    cases hg : s.group? r.core r.slot with
    | none => simp [hr, hg] at h
    | some g =>
      cases hu : s.unit? g.unit with
      | none => simp [hr, hg, hu] at h
      | some u =>
        cases hl : s.launch? u.launch with
        | none => simp [hr, hg, hu, hl] at h
        | some l =>
          simp only [hr, hg, hu, hl, Option.ite_none_right_eq_some, Option.some.injEq] at h
          obtain ⟨hc, rfl⟩ := h
          simp only [Bool.and_eq_true, beq_iff_eq, Bool.not_eq_true'] at hc
          exact ⟨r, g, rfl, hg, hu, hl, rfl, hc.1.1.1.1.1.1.1, hc.1.1.1.1.1.1.2, hc.1.1.1.1.2, hc.1.1.1.2, hc.1.1.2, hc.2⟩

/-- The state that the issuing group sees is the state. -/
theorem State.issuing_st {s : State} {c : Iss} (h : s.issuing = some c) : c.st = s := by
  obtain ⟨r, g, -, -, -, -, hc, -⟩ := State.issuing_spec h; rw [hc]

/-- The issuing group stands in the state, woken. -/
theorem State.issuing_group {s : State} {c : Iss} (h : s.issuing = some c) :
    ∃ g, s.group? c.g.core c.g.slot = some g ∧ c.g = g.awake := by
  obtain ⟨r, g, -, hg, -, -, hc, -⟩ := State.issuing_spec h
  have := State.group?_some hg
  refine ⟨g, ?_, by rw [hc]⟩
  rw [hc]; simp [this.1, this.2, hg]

/-- A group outside a handler writes no frame before it issues. -/
theorem Iss.handlerFirst_none {c : Iss} (h : c.g.hdl = none) : c.handlerFirst = none := by
  simp only [Iss.handlerFirst, Iss.frameFirst, h, Option.orElse]

/-- No late trap comes first where none is kept. -/
theorem Iss.lateFirst_none {c : Iss} (h : c.g.lateTrap = none) : c.lateFirst = none := by simp only [Iss.lateFirst, h]

/-- An acquire that no group owes changes nothing. -/
theorem Iss.acquired_none {c : Iss} (h : c.g.acquire = none) : c.acquired = c := by simp only [Iss.acquired, h]

/-- An instruction that passes the checks and clears the scoreboard executes: nothing comes before one of a group that owes no
frame, no release, no late trap; the acquire of a group's first instruction comes first. -/
theorem runInstr_ready {s : State} {c : Iss} {ops : List Opnd} (body : Iss → Eff) (hs : s.issuing = some c)
    (hh : c.handlerFirst = none) (hr : c.g.relFence = none) (hl : c.g.lateTrap = none) (hc : checkOperands c ops = none)
    (hb : c.clears ops = true) : runInstr s ops body = c.acquired.conclude (body c.acquired) := by
  unfold runInstr; rw [hs]; simp [hh, hr, Iss.lateFirst_none hl, hc, hb]

/-- An instruction whose operands fail a check traps. -/
theorem runInstr_trap {s : State} {c : Iss} {ops : List Opnd} {t : TrapInfo} (body : Iss → Eff) (hs : s.issuing = some c)
    (hh : c.handlerFirst = none) (hr : c.g.relFence = none) (hl : c.g.lateTrap = none) (hc : checkOperands c ops = some t) :
    runInstr s ops body = c.acquired.conclude (.trap t) := by
  unfold runInstr; rw [hs]; simp [hh, hr, Iss.lateFirst_none hl, hc]

/-- No instruction issues where no group does. -/
theorem runInstr_none {s : State} {ops : List Opnd} (body : Iss → Eff) (hs : s.issuing = none) :
    runInstr s ops body = .refused .noIssuingGroup := by
  unfold runInstr; rw [hs]

/-! ## What a completed instruction leaves -/

/-- The parts of the state that retirement does not touch. -/
theorem Iss.retireOver_frame (c : Iss) (s : State) :
    (c.retireOver s).ms = s.ms ∧ (c.retireOver s).eng = s.eng ∧ (c.retireOver s).fab = s.fab ∧ (c.retireOver s).mgmt = s.mgmt ∧
      (c.retireOver s).agenda = s.agenda ∧ (c.retireOver s).rr = s.rr ∧ (c.retireOver s).freeCtr = s.freeCtr ∧
      (c.retireOver s).cur = none ∧ (c.retireOver s).sched.groups = s.sched.groups ∧
      (c.retireOver s).sched.queues = s.sched.queues ∧ (c.retireOver s).sched.launches = s.sched.launches ∧
      (c.retireOver s).sched.units = s.sched.units := by
  unfold Iss.retireOver
  simp only [State.tick_ms, State.tick_eng, State.tick_fab, State.tick_mgmt, State.tick_agenda, State.tick_rr, State.tick_freeCtr,
    State.tick_cur, State.tick_sched, State.mapCtx_ms, State.mapCtx_eng, State.mapCtx_fab, State.mapCtx_mgmt, State.mapCtx_agenda,
    State.mapCtx_rr, State.mapCtx_freeCtr, State.mapCtx_cur, State.mapCtx_sched_groups, State.mapCtx_sched_queues,
    State.mapCtx_sched_launches, State.mapCtx_sched_units]
  split
  · split <;> simp
  · simp

/-- The parts of the state that counting the instruction does not touch. -/
theorem Iss.stampIn_frame (c : Iss) (s : State) :
    (c.stampIn s).ms = s.ms ∧ (c.stampIn s).eng = s.eng ∧ (c.stampIn s).fab = s.fab ∧ (c.stampIn s).mgmt = s.mgmt ∧
      (c.stampIn s).agenda = s.agenda ∧ (c.stampIn s).rr = s.rr ∧ (c.stampIn s).freeCtr = s.freeCtr ∧
      (c.stampIn s).sched.queues = s.sched.queues ∧ (c.stampIn s).sched.launches = s.sched.launches ∧
      (c.stampIn s).sched.units = s.sched.units := by
  unfold Iss.stampIn
  split
  · split <;> simp
  · simp

/-- The groups that retirement finds. -/
@[simp] theorem Iss.retireOver_group? (c : Iss) (s : State) (k j : Nat) : (c.retireOver s).group? k j = s.group? k j :=
  State.group?_congr (c.retireOver_frame s).2.2.2.2.2.2.2.2.1 k j

/-- The issuing group after it has completed an instruction. -/
theorem Iss.retire_group {c : Iss} {s : State} {g : Group} (h : s.group? c.g.core c.g.slot = some g) (hu : g.unit = c.g.unit) :
    (c.retire s).group? c.g.core c.g.slot = some (g.stamp c.which) := by
  have hg := State.group?_some h
  unfold Iss.retire
  rw [Iss.retireOver_group?]
  unfold Iss.stampIn
  rw [h]
  simp only [hu, beq_self_eq_true, if_true]
  exact State.group?_putGroup_same h (by simp [hg.1]) (by simp [hg.2])

/-- Every other group after an instruction has completed. -/
theorem Iss.retire_group_other {c : Iss} {s : State} {k j : Nat} (h : ¬(k = c.g.core ∧ j = c.g.slot)) :
    (c.retire s).group? k j = s.group? k j := by
  unfold Iss.retire
  rw [Iss.retireOver_group?]
  unfold Iss.stampIn
  split
  · next g hg =>
    have := State.group?_some hg
    split
    · exact State.group?_putGroup_other (by simp [this.1, this.2]; intro a b; exact h ⟨a, b⟩)
    · rfl
  · rfl

/-- A completed instruction that puts one group back: the next state, its issuing group, and all that is as before. -/
theorem Iss.conclude_done {s : State} {c : Iss} {g : Group} (hs : s.issuing = some c) (hcore : g.core = c.g.core)
    (hslot : g.slot = c.g.slot) (hunit : g.unit = c.g.unit) :
    ∃ t, c.conclude (.done (c.st.putGroup g)) = .next t ∧ t.group? c.g.core c.g.slot = some (g.stamp c.which) ∧
      t.ms = s.ms ∧ t.eng = s.eng ∧ t.fab = s.fab ∧ t.mgmt = s.mgmt ∧
      (∀ k j, ¬(k = c.g.core ∧ j = c.g.slot) → t.group? k j = s.group? k j) ∧
      t.sched.queues = s.sched.queues ∧ t.sched.launches = s.sched.launches ∧ t.sched.units = s.sched.units ∧ t.cur = none := by
  obtain ⟨h, hh, -⟩ := State.issuing_group hs
  have hst := State.issuing_st hs
  refine ⟨_, rfl, ?_, ?_⟩
  · refine Iss.retire_group ?_ hunit
    rw [hst]; exact State.group?_putGroup_same hh hcore hslot
  · have hr := c.retireOver_frame (c.stampIn (c.st.putGroup g))
    have hi := c.stampIn_frame (c.st.putGroup g)
    have hg : ∀ k j, ¬(k = c.g.core ∧ j = c.g.slot) → (c.retire (c.st.putGroup g)).group? k j = s.group? k j := by
      intro k j hkj
      rw [Iss.retire_group_other hkj, State.group?_putGroup_other (by rw [hcore, hslot]; exact hkj), hst]
    simp only [State.putGroup_ms, State.putGroup_eng, State.putGroup_fab, State.putGroup_mgmt, State.putGroup_sched_queues,
      State.putGroup_sched_launches, State.putGroup_sched_units, hst] at hi hr hg
    unfold Iss.retire at hg ⊢
    simp only [hst]
    obtain ⟨h1, h2, h3, h4, -, -, -, h5, -, h6, h7, h8⟩ := hr
    obtain ⟨i1, i2, i3, i4, -, -, -, i6, i7, i8⟩ := hi
    exact ⟨h1.trans i1, h2.trans i2, h3.trans i3, h4.trans i4, hg, h6.trans i6, h7.trans i7, h8.trans i8, h5⟩

end Sys2Proof.Machine
end

