-- ==== Sys2Proof/Laws/Memory.lean ====
section
/-! SUPPORT. Byte memories: every write keeps the canonical form, a read gives what was written last, and equal reads of
canonical memories mean equal memories. -/

namespace Sys2Proof.Machine

@[simp] theorem Memory.read_nil (a : Nat) : Memory.read [] a = 0 := rfl

/-- The byte of the first entry. -/
theorem Memory.read_cons_same (k : Nat) (y : Byte) (m : Memory) : Memory.read ((k, y) :: m) k = y := if_pos rfl

/-- A byte that is not the first entry's. -/
theorem Memory.read_cons_other {k b : Nat} (y : Byte) (m : Memory) (h : k ≠ b) : Memory.read ((k, y) :: m) b = Memory.read m b :=
  if_neg h

/-- An address below every entry is not listed. -/
theorem Memory.read_below (m : Memory) (j : Nat) (h : ∀ c ∈ m, j < c.1) : Memory.read m j = 0 := by
  induction m with
  | nil => rfl
  | cons c m ih =>
    have := h c (List.mem_cons_self ..)
    rw [Memory.read_cons_other _ _ (by omega)]
    exact ih (fun d hd => h d (List.mem_cons_of_mem _ hd))

/-- The rest of a canonical memory is canonical, and lies above its first entry. -/
theorem Memory.wf_tail {c : Host.Cell} {m : Memory} (h : Memory.wf (c :: m)) : Memory.wf m ∧ ∀ d ∈ m, c.1 < d.1 :=
  ⟨⟨(List.pairwise_cons.1 h.1).2, fun d hd => h.2 d (List.mem_cons_of_mem _ hd)⟩, (List.pairwise_cons.1 h.1).1⟩

/-- An erased address reads zero, every other one as before. -/
theorem Memory.read_erase (m : Memory) (a b : Nat) : (m.erase a).read b = if b = a then 0 else m.read b := by
  induction m with
  | nil => simp [Memory.erase]
  | cons c m ih =>
    obtain ⟨k, y⟩ := c
    unfold Memory.erase at ih ⊢
    by_cases hk : k = a
    · subst hk
      rw [List.filter_cons_of_neg (by simp), ih]
      split
      · rfl
      · next hb => rw [read_cons_other _ _ (Ne.symm hb)]
    · rw [List.filter_cons_of_pos (by simp [hk])]
      by_cases hb : k = b
      · subst hb; rw [read_cons_same, if_neg hk, read_cons_same]
      · rw [read_cons_other _ _ hb, ih, read_cons_other _ _ hb]

/-- A read after a write of one byte. -/
theorem Memory.read_write (m : Memory) (a b : Nat) (x : Byte) : (m.write a x).read b = if b = a then x else m.read b := by
  induction m with
  | nil =>
    unfold Memory.write
    split
    · next hx => subst hx; split <;> rfl
    · split
      · next h => subst h; exact read_cons_same ..
      · next h => exact read_cons_other _ _ (Ne.symm h)
  | cons c m ih =>
    obtain ⟨k, y⟩ := c
    unfold Memory.write
    split
    · next hka =>
      subst hka
      split
      · next hx =>
        subst hx
        rw [read_erase]
        split
        · rfl
        · next hb => exact (read_cons_other _ _ (Ne.symm hb)).symm
      · split
        · next hb => subst hb; exact read_cons_same ..
        · next hb => rw [read_cons_other _ _ (Ne.symm hb), read_cons_other _ _ (Ne.symm hb)]
    · next hka =>
      split
      · split
        · next hx =>
          subst hx
          by_cases hkb : k = b
          · subst hkb; rw [read_cons_same, if_neg hka, read_cons_same]
          · rw [read_cons_other _ _ hkb, read_erase, read_cons_other _ _ hkb]
        · split
          · next hb => subst hb; exact read_cons_same ..
          · next hb => exact read_cons_other _ _ (Ne.symm hb)
      · by_cases hkb : k = b
        · subst hkb; rw [read_cons_same, if_neg hka, read_cons_same]
        · rw [read_cons_other _ _ hkb, ih, read_cons_other _ _ hkb]

/-- What is listed after an erasure was listed. -/
theorem Memory.mem_erase {m : Memory} {a : Nat} {c : Host.Cell} (h : c ∈ m.erase a) : c ∈ m := (List.mem_filter.1 h).1

/-- Every entry after a write was listed or is the one written. -/
theorem Memory.mem_write {m : Memory} {a : Nat} {x : Byte} {c : Host.Cell} (h : c ∈ m.write a x) :
    c ∈ m ∨ (c = (a, x) ∧ x ≠ 0) := by
  induction m with
  | nil =>
    unfold Memory.write at h
    split at h
    · exact absurd h (by simp)
    · next hx => exact .inr ⟨by simpa using h, hx⟩
  | cons d m ih =>
    obtain ⟨k, y⟩ := d
    unfold Memory.write at h
    split at h
    · split at h
      · exact .inl (List.mem_cons_of_mem _ (mem_erase h))
      · next hx =>
        rcases List.mem_cons.1 h with h | h
        · exact .inr ⟨h, hx⟩
        · exact .inl (List.mem_cons_of_mem _ h)
    · split at h
      · split at h
        · rcases List.mem_cons.1 h with h | h
          · exact .inl (by rw [h]; exact List.mem_cons_self ..)
          · exact .inl (List.mem_cons_of_mem _ (mem_erase h))
        · next hx =>
          rcases List.mem_cons.1 h with h | h
          · exact .inr ⟨h, hx⟩
          · exact .inl h
      · rcases List.mem_cons.1 h with h | h
        · exact .inl (by rw [h]; exact List.mem_cons_self ..)
        · rcases ih h with h | h
          · exact .inl (List.mem_cons_of_mem _ h)
          · exact .inr h

/-- A write of one byte keeps the canonical form. -/
theorem Memory.write_wf {m : Memory} (hw : m.wf) (a : Nat) (x : Byte) : (m.write a x).wf := by
  refine ⟨?_, fun c hc => ?_⟩
  · induction m with
    | nil =>
      unfold Memory.write
      split <;> simp
    | cons d m ih =>
      obtain ⟨k, y⟩ := d
      obtain ⟨hm, hlt⟩ := Memory.wf_tail hw
      unfold Memory.write
      split
      · next hk =>
        subst hk
        split
        · exact hm.1.filter _
        · exact List.pairwise_cons.2 ⟨hlt, hm.1⟩
      · next hk =>
        split
        · next hak =>
          split
          · exact List.pairwise_cons.2 ⟨fun e he => hlt e (mem_erase he), hm.1.filter _⟩
          · refine List.pairwise_cons.2 ⟨fun e he => ?_, hw.1⟩
            rcases List.mem_cons.1 he with he | he
            · subst he; exact hak
            · exact Nat.lt_trans hak (hlt e he)
        · next hak =>
          refine List.pairwise_cons.2 ⟨fun e he => ?_, ih hm⟩
          rcases Memory.mem_write he with he | he
          · exact hlt e he
          · simp only [he.1]; omega
  · rcases Memory.mem_write hc with h | h
    · exact hw.2 c h
    · rw [h.1]; exact h.2

/-- Writing a list of bytes keeps the canonical form. -/
theorem Memory.writeN_wf {m : Memory} (hw : m.wf) (a : Nat) (bs : List Byte) : (m.writeN a bs).wf := by
  induction bs generalizing m a with
  | nil => exact hw
  | cons b bs ih => exact ih (Memory.write_wf hw a b) (a + 1)

/-- Writing a number keeps the canonical form. -/
theorem Memory.writeLE_wf {m : Memory} (hw : m.wf) (a n x : Nat) : (m.writeLE a n x).wf := Memory.writeN_wf hw a _

/-- Clearing bytes keeps the canonical form. -/
theorem Memory.clear_wf {m : Memory} (hw : m.wf) (a n : Nat) : (m.clear a n).wf :=
  ⟨hw.1.filter _, fun c hc => hw.2 c (List.mem_filter.1 hc).1⟩

/-- A read outside the bytes written reads what was there. -/
theorem Memory.read_writeN_other (m : Memory) (a b : Nat) (bs : List Byte) (h : b < a ∨ a + bs.length ≤ b) :
    (m.writeN a bs).read b = m.read b := by
  induction bs generalizing m a with
  | nil => rfl
  | cons x bs ih =>
    simp only [Memory.writeN, List.length_cons] at h ⊢
    rw [ih (m.write a x) (a + 1) (by omega), Memory.read_write m a b x, if_neg (by omega)]

/-- A read of a byte just written. -/
theorem Memory.read_writeN_same (m : Memory) (a i : Nat) (bs : List Byte) (h : i < bs.length) :
    (m.writeN a bs).read (a + i) = bs.getD i 0 := by
  induction bs generalizing m a i with
  | nil => simp at h
  | cons x bs ih =>
    cases i with
    | zero =>
      simp only [Memory.writeN, Nat.add_zero, List.getD_cons_zero]
      rw [Memory.read_writeN_other (m.write a x) (a + 1) a bs (.inl (by omega)), Memory.read_write m a a x, if_pos rfl]
    | succ i =>
      simp only [Memory.writeN, List.getD_cons_succ]
      rw [show a + (i + 1) = a + 1 + i by omega, ih (m.write a x) (a + 1) i (by simpa using h)]

/-- The bytes just written, read together. -/
theorem Memory.readN_writeN (m : Memory) (a : Nat) (bs : List Byte) : (m.writeN a bs).readN a bs.length = bs := by
  have key : ∀ (ys : List Byte) (m' : Memory) (b : Nat),
      (∀ i, i < ys.length → m'.read (b + i) = ys.getD i 0) → m'.readN b ys.length = ys := by
    intro ys
    induction ys with
    | nil => intros; rfl
    | cons y ys ih =>
      intro m' b h
      simp only [List.length_cons, Memory.readN]
      rw [show m'.read b = y by simpa using h 0 (by simp)]
      rw [ih m' (b + 1) (fun i hi => by have := h (i + 1) (by simpa using hi); simpa [Nat.add_assoc, Nat.add_comm 1] using this)]
  exact key bs _ a (fun i hi => Memory.read_writeN_same m a i bs hi)

/-- An address that a canonical memory lists does not read zero, one that it does not list does. -/
theorem Memory.read_of_mem {m : Memory} (hw : m.wf) {a : Nat} {x : Byte} (h : (a, x) ∈ m) : m.read a = x := by
  induction m with
  | nil => simp at h
  | cons d m ih =>
    obtain ⟨k, y⟩ := d
    have hlt := (List.pairwise_cons.1 hw.1).1
    rcases List.mem_cons.1 h with h | h
    · cases h; simp [Memory.read]
    · have := hlt _ h
      simp only [Memory.read]
      rw [if_neg (by dsimp at this; omega)]
      exact ih ⟨(List.pairwise_cons.1 hw.1).2, fun c hc => hw.2 c (List.mem_cons_of_mem _ hc)⟩ h

/-! ## Association lists -/

theorem lookupD_assign {α : Type} (d : α) (l : List (Nat × α)) (a b : Nat) (v : α) :
    lookupD d (assign l a v) b = if b = a then v else lookupD d l b := by
  induction l with
  | nil =>
    by_cases h : b = a
    · simp [assign, lookupD, h]
    · simp [assign, lookupD, h, Ne.symm h]
  | cons c l ih =>
    obtain ⟨k, w⟩ := c
    simp only [assign]
    split
    · next hk =>
      subst hk
      by_cases h : b = k
      · simp [lookupD, h]
      · simp [lookupD, h, Ne.symm h]
    · next hk =>
      simp only [lookupD]
      rw [ih]
      by_cases h : b = a
      · subst h; simp [hk]
      · simp [h]

/-- Every entry after an entry is set is an old one or the new one. -/
theorem mem_assign {α : Type} {l : List (Nat × α)} {a : Nat} {v : α} {c : Nat × α} (h : c ∈ assign l a v) :
    c ∈ l ∨ c = (a, v) := by
  induction l with
  | nil => exact .inr (by simpa [assign] using h)
  | cons d l ih =>
    obtain ⟨k, w⟩ := d
    simp only [assign] at h
    split at h
    · rcases List.mem_cons.1 h with h | h
      · exact .inr h
      · exact .inl (List.mem_cons_of_mem _ h)
    · rcases List.mem_cons.1 h with h | h
      · exact .inl (by rw [h]; exact List.mem_cons_self ..)
      · rcases ih h with h | h
        · exact .inl (List.mem_cons_of_mem _ h)
        · exact .inr h

/-- A default or an entry of the list. -/
theorem lookupD_wf {l : List (Nat × Memory)} (h : ∀ x ∈ l, x.2.wf) (a : Nat) : Memory.wf (lookupD [] l a) := by
  induction l with
  | nil => exact ⟨List.Pairwise.nil, by simp [lookupD]⟩
  | cons c l ih =>
    obtain ⟨k, v⟩ := c
    simp only [lookupD]
    split
    · exact h (k, v) (List.mem_cons_self ..)
    · exact ih (fun x hx => h x (List.mem_cons_of_mem _ hx))

end Sys2Proof.Machine
end

