-- ==== Sys2Proof/Laws/Serve.lean ====
section
/-! SUPPORT. What a write at the serving copies, a snoop and a gate leave as it was. -/

namespace Sys2Proof.Machine

/-- Line records that a write touches leave all else. -/
theorem State.putLines_frame (f : State → Nat → LineRec) (xs : List Nat) (s : State) :
    (xs.foldl (fun s n => s.putLine (f s n)) s).ms.mem = s.ms.mem ∧ (xs.foldl (fun s n => s.putLine (f s n)) s).sched = s.sched ∧
      (xs.foldl (fun s n => s.putLine (f s n)) s).eng = s.eng ∧ (xs.foldl (fun s n => s.putLine (f s n)) s).fab = s.fab ∧
      (xs.foldl (fun s n => s.putLine (f s n)) s).mgmt = s.mgmt ∧ (xs.foldl (fun s n => s.putLine (f s n)) s).cur = s.cur := by
  induction xs generalizing s with
  | nil => exact ⟨rfl, rfl, rfl, rfl, rfl, rfl⟩
  | cons x xs ih => exact ih (s.putLine (f s x))

/-- A write of the device to its own memory: the bytes, the records of their lines, nothing else. -/
theorem State.serveWrite_frame (s : State) (a : Nat) (bs : List Byte) :
    (s.serveWrite a bs).ms.mem = s.ms.mem.writeN a bs ∧ (s.serveWrite a bs).sched = s.sched ∧ (s.serveWrite a bs).eng = s.eng ∧
      (s.serveWrite a bs).fab = s.fab ∧ (s.serveWrite a bs).mgmt = s.mgmt ∧ (s.serveWrite a bs).cur = s.cur :=
  State.putLines_frame _ _ (s.devWrite a bs)

/-- A snoop is on its way: nothing else has changed. -/
theorem State.snoop_frame (s : State) (l : Nat) (high : Bool) (port : Nat) :
    (s.snoop l high port).ms.mem = s.ms.mem ∧ (s.snoop l high port).sched = s.sched ∧ (s.snoop l high port).eng = s.eng ∧
      (s.snoop l high port).fab = s.fab ∧ (s.snoop l high port).mgmt = s.mgmt ∧ (s.snoop l high port).cur = s.cur := by
  unfold State.snoop
  split <;> exact ⟨rfl, rfl, rfl, rfl, rfl, rfl⟩

/-- What an access of the device to its own memory must wait for first changes no byte and no group. -/
theorem State.devGate_frame {s t : State} {a n : Nat} (h : s.devGate a n = some t) :
    t.ms.mem = s.ms.mem ∧ t.sched = s.sched ∧ t.eng = s.eng ∧ t.fab = s.fab ∧ t.mgmt = s.mgmt ∧ t.cur = s.cur := by
  unfold State.devGate at h
  split at h
  · cases h; exact ⟨rfl, rfl, rfl, rfl, rfl, rfl⟩
  · unfold State.hostGate at h
    split at h
    · cases h
    · cases h; exact s.snoop_frame _ _ _

/-- Whether an access must wait depends on the lines and on the shadow kills alone. -/
theorem State.devGate_congr {s t : State} (h1 : t.ms.lines = s.ms.lines) (h2 : t.ms.shadowKills = s.ms.shadowKills) (a n : Nat) :
    (t.devGate a n).isNone = (s.devGate a n).isNone := by
  have hf : t.llcFull = s.llcFull := by funext k; unfold State.llcFull State.llcRecords State.line; rw [h1]
  have hr : t.recordWaits a n = s.recordWaits a n := by unfold State.recordWaits State.killPending; rw [h2, hf]
  have hh : t.heldHalf a n = s.heldHalf a n := by unfold State.heldHalf; rw [h1]
  simp only [State.devGate, hr, State.hostGate, hh]
  split
  · rfl
  · split <;> rfl

end Sys2Proof.Machine
end

