-- ==== Sys2Proof/Laws/Trap.lean ====
section
/-! SUPPORT. What taking an exception does (State.takeTrap): the one lemma about trap entry, and the small lemmas about its
parts. -/

namespace Sys2Proof.Machine

/-! ## Parts -/

/-- A group that leaves a barrier touches scratch alone. -/
theorem State.leaveBar_frame (s : State) (g : Group) :
    (s.leaveBar g).ms.mem = s.ms.mem ∧ (s.leaveBar g).ms.lines = s.ms.lines ∧ (s.leaveBar g).ms.shadowKills = s.ms.shadowKills ∧
      (s.leaveBar g).sched = s.sched ∧ (s.leaveBar g).eng = s.eng ∧ (s.leaveBar g).fab = s.fab ∧
      (s.leaveBar g).mgmt = s.mgmt ∧ (s.leaveBar g).cur = s.cur := by
  unfold State.leaveBar
  split <;> simp

/-- Several groups that leave their barriers touch scratch alone. -/
theorem State.leaveBars_frame (gs : List Group) (s : State) :
    (gs.foldl (fun s h => s.leaveBar h) s).ms.mem = s.ms.mem ∧ (gs.foldl (fun s h => s.leaveBar h) s).ms.lines = s.ms.lines ∧
      (gs.foldl (fun s h => s.leaveBar h) s).ms.shadowKills = s.ms.shadowKills ∧
      (gs.foldl (fun s h => s.leaveBar h) s).sched = s.sched ∧
      (gs.foldl (fun s h => s.leaveBar h) s).eng = s.eng ∧ (gs.foldl (fun s h => s.leaveBar h) s).fab = s.fab ∧
      (gs.foldl (fun s h => s.leaveBar h) s).mgmt = s.mgmt ∧ (gs.foldl (fun s h => s.leaveBar h) s).cur = s.cur := by
  induction gs generalizing s with
  | nil => exact ⟨rfl, rfl, rfl, rfl, rfl, rfl, rfl, rfl⟩
  | cons g gs ih =>
    have h1 := ih (s.leaveBar g)
    obtain ⟨a1, a2, a3, a4, a5, a6, a7, a8⟩ := s.leaveBar_frame g
    simp only [List.foldl_cons]
    rw [a1, a2, a3, a4, a5, a6, a7, a8] at h1
    exact h1

/-- Holding a group changes its state and the state it returns to alone. -/
theorem Group.hold_eq (g : Group) : g.hold = { g with st := g.hold.st, prevSt := g.hold.prevSt } := by
  unfold Group.hold
  split <;> rfl

/-- A group that is held is HELD, or it has ended. -/
theorem Group.hold_st (g : Group) : g.hold.st = .held ∨ ∃ b, g.hold.st = .ended b := by
  unfold Group.hold
  split
  · next b h => exact .inr ⟨b, h⟩
  · next h => exact .inl h
  all_goals exact .inl rfl

/-- A group changed in place, core and slot kept. -/
theorem State.group?_mapGroups (s : State) (f : Group → Group) (hf : ∀ g, (f g).core = g.core ∧ (f g).slot = g.slot) (k j : Nat) :
    (s.mapGroups f).group? k j = (s.group? k j).map f := by
  unfold State.group? State.mapGroups
  simp only
  generalize s.sched.groups = gs
  induction gs with
  | nil => rfl
  | cons g gs ih =>
    simp only [List.map_cons, List.find?_cons, hf g]
    split
    · rfl
    · exact ih

/-- The bytes of a number, n of them. -/
theorem length_leBytes (n x : Nat) : (leBytes n x).length = n := by
  induction n generalizing x with
  | zero => rfl
  | succ n ih => simp [leBytes, ih]

/-- The trap frame has 96 bytes (R165). -/
theorem Group.length_trapFrame (g : Group) : g.trapFrame.length = 96 := by
  simp [Group.trapFrame, length_leBytes, List.range, List.range.loop]

/-- Device memory after a write. -/
theorem State.devWrite_mem (s : State) (a : Nat) (bs : List Byte) : (s.devWrite a bs).ms.mem = s.ms.mem.writeN a bs := rfl

@[simp] theorem Group.enterHandler_core (g : Group) (pc : Nat) (b f : Bool) : (g.enterHandler pc b f).core = g.core := rfl
@[simp] theorem Group.enterHandler_slot (g : Group) (pc : Nat) (b f : Bool) : (g.enterHandler pc b f).slot = g.slot := rfl
@[simp] theorem Group.enterHandler_gi (g : Group) (pc : Nat) (b f : Bool) : (g.enterHandler pc b f).gi = g.gi := rfl

/-! ## The handler's start -/

/-- The siblings of a group that enters HANDLER are held. -/
theorem State.startHandler_siblings (s : State) (g : Group) (pc : Nat) :
    ∀ y ∈ (s.startHandler g pc false).sched.groups, y.unit = g.unit → y.wg = g.wg → y.gi ≠ g.gi → y.slot < 32 →
      y.st = .held ∨ ∃ b, y.st = .ended b := by
  intro y hy hu hw hi hs
  have key : ∀ {t : State} {e : Group}, y ∈ (t.putGroup e).sched.groups → e.gi = g.gi →
      t.sched.groups = (s.sched.groups.map (fun h =>
        if (h.unit == g.unit && h.wg == g.wg && h.gi != g.gi && !h.isGhost) = true then h.hold else h)) →
      y.st = .held ∨ ∃ b, y.st = .ended b := by
    intro t e hy he ht
    obtain ⟨x, hx, hxy⟩ := List.mem_map.1 hy
    split at hxy
    · rw [← hxy] at hi; exact absurd he hi
    · rw [ht] at hx
      obtain ⟨z, -, hz⟩ := List.mem_map.1 hx
      rw [hxy] at hz
      split at hz
      · rw [← hz]; exact z.hold_st
      · next hc =>
        rw [hz] at hc
        refine absurd ?_ hc
        simp [hu, hw, hi, Group.isGhost]
        omega
  obtain ⟨-, -, -, f, -⟩ := State.leaveBars_frame ((s.wgGroups g.unit g.wg).filter (fun h => h.gi != g.gi)) s
  simp only [State.startHandler, Bool.false_eq_true, if_false] at hy
  split at hy
  · next t ht =>
    refine key hy rfl ?_
    rw [(State.devGate_frame ht).2.1]; simp only [State.mapGroups, f]
  · simp only [State.writeFrame] at hy
    refine key hy rfl ?_
    rw [(State.serveWrite_frame _ _ _).2.1]; simp only [State.mapGroups, f]

/-- A group that enters its handler: it alone is replaced; its trap frame is written, unless a host holds bytes of it or their line
waits for its record, and then the frame is owed; the rest of device memory, the engines, the links and the management state are as
before. -/
theorem State.startHandler_spec {s : State} {k j : Nat} {g g0 : Group} (h0 : s.group? k j = some g0) (hk : g.core = k) (hj : g.slot = j)
    (pc : Nat) (pre : Bool) :
    (s.startHandler g pc pre).group? k j = some (g.enterHandler pc pre (s.devGate g.spill 96).isNone) ∧
    (s.startHandler g pc pre).ms.mem = (if (s.devGate g.spill 96).isNone then s.ms.mem.writeN g.spill g.trapFrame else s.ms.mem) ∧
    (s.startHandler g pc pre).eng = s.eng ∧ (s.startHandler g pc pre).fab = s.fab ∧ (s.startHandler g pc pre).mgmt = s.mgmt ∧
    (s.startHandler g pc pre).sched.queues = s.sched.queues ∧ (s.startHandler g pc pre).sched.launches = s.sched.launches ∧
    (s.startHandler g pc pre).sched.units = s.sched.units ∧ (s.startHandler g pc pre).cur = s.cur := by
  have key : ∀ (s2 : State) (h : Group), s2.group? k j = some h → (s2.devGate g.spill 96).isNone = (s.devGate g.spill 96).isNone →
      s2.ms.mem = s.ms.mem → s2.eng = s.eng → s2.fab = s.fab → s2.mgmt = s.mgmt → s2.sched.queues = s.sched.queues →
      s2.sched.launches = s.sched.launches → s2.sched.units = s.sched.units → s2.cur = s.cur →
      ∀ t, t = (match s2.devGate g.spill 96 with
        | some s3 => s3.putGroup (g.enterHandler pc pre false)
        | none => s2.writeFrame (g.enterHandler pc pre false)) →
      t.group? k j = some (g.enterHandler pc pre (s.devGate g.spill 96).isNone) ∧
      t.ms.mem = (if (s.devGate g.spill 96).isNone then s.ms.mem.writeN g.spill g.trapFrame else s.ms.mem) ∧
      t.eng = s.eng ∧ t.fab = s.fab ∧ t.mgmt = s.mgmt ∧
      t.sched.queues = s.sched.queues ∧ t.sched.launches = s.sched.launches ∧ t.sched.units = s.sched.units ∧ t.cur = s.cur := by
    intro s2 h hg hd h1 h2 h3 h4 h5 h6 h7 h8 t ht
    rw [← hd]
    split at ht
    · next s3 hs =>
      obtain ⟨a1, a2, a3, a4, a5, a6⟩ := State.devGate_frame hs
      subst ht
      simp only [hs, Option.isNone_some, Bool.false_eq_true, if_false, State.putGroup_ms, State.putGroup_eng, State.putGroup_fab,
        State.putGroup_mgmt, State.putGroup_cur, State.putGroup_sched_queues, State.putGroup_sched_launches,
        State.putGroup_sched_units, a1, a2, a3, a4, a5, a6, h1, h2, h3, h4, h5, h6, h7, h8, and_self, and_true]
      refine State.group?_putGroup_same (h := h) ?_ hk hj
      rw [← hg]; exact State.group?_congr (by rw [a2]) k j
    · next hs =>
      obtain ⟨a1, a2, a3, a4, a5, a6⟩ := State.serveWrite_frame s2 g.spill (g.enterHandler pc pre false).trapFrame
      have hf : (g.enterHandler pc pre false).trapFrame = g.trapFrame := rfl
      rw [hf] at a1 a2 a3 a4 a5 a6
      subst ht
      simp only [hs, Option.isNone_none, if_true, State.writeFrame, State.putGroup_ms, State.putGroup_eng, State.putGroup_fab,
        State.putGroup_mgmt, State.putGroup_cur, State.putGroup_sched_queues, State.putGroup_sched_launches,
        State.putGroup_sched_units, hf]
      have hsp : (g.enterHandler pc pre false).spill = g.spill := rfl
      simp only [hsp, a1, a2, a3, a4, a5, a6, h1, h2, h3, h4, h5, h6, h7, h8, and_self, and_true]
      refine State.group?_putGroup_same (h := h) ?_ hk hj
      rw [← hg]; exact State.group?_congr (by rw [a2]) k j
  cases pre with
  | true => exact key s g0 h0 rfl rfl rfl rfl rfl rfl rfl rfl rfl _ rfl
  | false =>
    obtain ⟨f0, f1, f2, f3, f4, f5, f6, f7⟩ := State.leaveBars_frame ((s.wgGroups g.unit g.wg).filter (fun h => h.gi != g.gi)) s
    have hmap : ∀ h : Group, ((if (h.unit == g.unit && h.wg == g.wg && h.gi != g.gi && !h.isGhost) = true then h.hold else h).core =
        h.core) ∧ ((if (h.unit == g.unit && h.wg == g.wg && h.gi != g.gi && !h.isGhost) = true then h.hold else h).slot = h.slot) := by
      intro h
      split
      · rw [Group.hold_eq]; exact ⟨rfl, rfl⟩
      · exact ⟨rfl, rfl⟩
    refine key _ (if (g0.unit == g.unit && g0.wg == g.wg && g0.gi != g.gi && !g0.isGhost) = true then g0.hold else g0)
      ?_ ?_ ?_ ?_ ?_ ?_ ?_ ?_ ?_ ?_ _ rfl
    · simp only [Bool.false_eq_true, if_false]
      rw [State.group?_mapGroups _ _ hmap, State.group?_congr (s := s) (by rw [f3]), h0]
      rfl
    · exact State.devGate_congr (s := s) (by simp [f1]) (by simp [f2]) _ _
    all_goals simp [f0, f3, f4, f5, f6, f7]

/-- Taking an exception where a handler exists, none runs in the workgroup and the group is outside one (R175 to R178). -/
theorem State.takeTrap_enters {s : State} {g : Group} {u : HUnit} {l : Launch} {x : TrapInfo} (slot : Nat)
    (hu : s.unit? g.unit = some u) (hl : s.launch? u.launch = some l) (h1 : g.hdl = none)
    (hh : s.handlerOf u l.ctx x.cause ≠ 0) (hw : s.wgInHandler g = false) :
    s.takeTrap g slot x =
      (s.leaveBar g).startHandler (g.trapState slot x) (s.handlerOf u l.ctx x.cause) (x.cause == causePreempt) := by
  have hw' : (s.leaveBar g).wgInHandler g = false := by
    obtain ⟨-, -, -, this, -⟩ := s.leaveBar_frame g
    unfold State.wgInHandler State.wgGroups at hw ⊢
    rw [this]; exact hw
  simp only [State.takeTrap, hu, hl]
  rw [if_neg (by simp [h1]), if_neg (by simpa using hh), if_neg (by simp [hw'])]

end Sys2Proof.Machine
end

