-- ==== Sys2Proof/Tests/Base.lean ====
section
/-! SUPPORT. What the tests share: the staged part at the issue of its one group, the issuing group as data, and the facts that a
kernel evaluation of a Bool gives. -/

namespace Sys2Proof.Tests

open Sys2Proof.Machine Sys2Proof.Claims

/-! ## States -/

/-- The staged part with no code, about to issue from slot 0 of its one group. -/
def base : State := { State.reset.staged [] with cur := some ⟨0, 0, 0, 0, 4⟩ }

/-- The same with its group changed. -/
def part (f : Group → Group) : State := { base with sched := { stageSched with groups := [f stageGroup] } }

/-- The same with its group and its unit's kernel changed. -/
def partK (f : Group → Group) (k : KDesc → KDesc) : State :=
  { base with sched := { stageSched with groups := [f stageGroup], units := [{ stageUnit with kd := k stageKernel }] } }

/-- The same with its group and its workgroup changed. -/
def partW (f : Group → Group) (w : Workgroup → Workgroup) : State :=
  { base with sched := { stageSched with groups := [f stageGroup], wgs := [w stageWg] } }

/-- The same with its group and the memory system changed. -/
def partM (f : Group → Group) (m : MemSys → MemSys) : State :=
  { base with sched := { stageSched with groups := [f stageGroup] }, ms := m base.ms }

/-- The same with its context not privileged. -/
def partC (f : Group → Group) (x : Context → Context) : State :=
  { base with sched := { stageSched with groups := [f stageGroup], ctxs := [x stageContext] } }

/-- The issuing group of a state, the staged one where none issues. -/
def iss (s : State) : Iss :=
  s.issuing.getD { st := base, g := stageGroup, which := 0, ps := stageGroup.slot0, u := stageUnit, l := stageLaunch, raw := 0, len := 4,
                   waiting := false }

/-- The value of an Except, a default where there is none. -/
def okOr {ε α : Type} (d : α) : Except ε α → α
  | .ok a => a
  | .error _ => d

/-- Whether an Except has a value. -/
def isOk {ε α : Type} : Except ε α → Bool
  | .ok _ => true
  | .error _ => false

/-! ## Facts from evaluation -/

theorem of_isOk {ε α : Type} {x : Except ε α} (d : α) (h : isOk x = true) : x = .ok (okOr d x) := by
  cases x with
  | ok a => rfl
  | error e => cases h

theorem of_isSome {α : Type} {x : Option α} (d : α) (h : x.isSome = true) : x = some (x.getD d) := by
  cases x with
  | some a => rfl
  | none => cases h

theorem none_of {α : Type} {x : Option α} (h : x.isNone = true) : x = none := Option.isNone_iff_eq_none.mp h

/-- The handler condition of Issuable as a Bool. -/
def frameB (s : State) : Bool :=
  match (iss s).g.hdl with
  | none => true
  | some f => f.framed && (f.retired != 0 || !s.queued (iss s).g) && (!f.pre || f.restored || f.retired < 4096 || isYield (iss s).raw.toNat)

/-- Issuable as a Bool. -/
def issuableB (s : State) : Bool :=
  s.issuing.isSome && frameB s && (iss s).g.relFence.isNone && (iss s).g.lateTrap.isNone && (iss s).g.acquire.isNone

/-- Ready as a Bool. -/
def readyB (s : State) (i : Instr) : Bool := issuableB s && (checkOperands (iss s) (operands i)).isNone && (iss s).clears (operands i)

theorem issuing_iss {s : State} (h : s.issuing.isSome = true) : s.issuing = some (iss s) := of_isSome _ h

theorem framed_of_frameB {s : State} (h : frameB s = true) : ∀ f, (iss s).g.hdl = some f → f.framed = true ∧
    (f.retired = 0 → s.queued (iss s).g = false) ∧ (f.pre = true → f.restored = false → 4096 ≤ f.retired → isYield (iss s).raw.toNat = true) := by
  intro f e
  simp only [frameB, e, Bool.and_eq_true, Bool.or_eq_true, Bool.not_eq_true', bne_iff_ne, decide_eq_true_eq] at h
  refine ⟨h.1.1, fun z => h.1.2.resolve_left (fun k => k z), fun x y z => ?_⟩
  rcases h.2 with (k | k) | k
  · rcases k with k | k
    · exact absurd (x.symm.trans k) (by decide)
    · exact absurd (k.symm.trans y) (by decide)
  · omega
  · exact k

theorem issuable {s : State} (h : issuableB s = true) : Issuable s (iss s) := by
  simp only [issuableB, Bool.and_eq_true] at h
  exact ⟨issuing_iss h.1.1.1.1, framed_of_frameB h.1.1.1.2, Option.isNone_iff_eq_none.mp h.1.1.2, Option.isNone_iff_eq_none.mp h.1.2,
    Option.isNone_iff_eq_none.mp h.2⟩

theorem ready {s : State} {i : Instr} (h : readyB s i = true) : Ready s (iss s) i := by
  simp only [readyB, Bool.and_eq_true] at h
  exact ⟨issuable h.1.1, Option.isNone_iff_eq_none.mp h.1.2, h.2⟩

/-- HandlerFree as a Bool, for the handler's address that R175 selects. -/
def handlerB (s : State) (cause h : Nat) : Bool :=
  (iss s).g.hdl.isNone && !s.queued (iss s).g &&
    (h == if cause = 0x1D then (iss s).u.kd.preemptH else if (iss s).u.kd.trapH ≠ 0 then (iss s).u.kd.trapH
      else match s.ctx? (iss s).l.ctx with
        | some x => x.handler
        | none => 0) && h != 0 && !s.wgInHandler (iss s).g && (s.devGate (iss s).g.spill 96).isNone

theorem handlerFree {s : State} {cause h : Nat} (p : handlerB s cause h = true) : HandlerFree s (iss s) cause h := by
  simp only [handlerB, Bool.and_eq_true, Bool.not_eq_true', beq_iff_eq, bne_iff_ne] at p
  exact ⟨Option.isNone_iff_eq_none.mp p.1.1.1.1.1, p.1.1.1.1.2, p.1.1.1.2, p.1.1.2, p.1.2, Option.isNone_iff_eq_none.mp p.2⟩

/-- MayRelease as a Bool. -/
def mayReleaseB (s : State) (k : Nat) : Bool :=
  !(iss s).g.watching .pending && !(iss s).g.watching .struck && !(iss s).g.releaseWaits k && ((iss s).st.releaseGate (iss s).g.core k).isNone

theorem mayRelease {s : State} {k : Nat} (h : mayReleaseB s k = true) : MayRelease (iss s) k := by
  simp only [mayReleaseB, Bool.and_eq_true, Bool.not_eq_true'] at h
  exact ⟨h.1.1.1, h.1.1.2, h.1.2, Option.isNone_iff_eq_none.mp h.2⟩

/-- SpillFree as a Bool. -/
def spillB (s : State) : Bool :=
  (List.range ((iss s).g.stack.length + 3)).all (fun n => (s.devGate ((iss s).g.spill + 128) (48 * n)).isNone)

theorem spillFree {s : State} (h : spillB s = true) : SpillFree s (iss s) := fun n _ k =>
  Option.isNone_iff_eq_none.mp (List.all_eq_true.mp h n (List.mem_range.mpr (by omega)))

/-- The staged group in a handler that it has entered for a breakpoint at 0x10000. -/
def inHandler (g : Group) : Group :=
  { g with st := .handler, cause := 0x1E, trappc := 0x10004,
           hdl := some { pre := false, slot := { pc := 0x20000, mask := fullMask 1, frame := 0, cptr := 0, last := 0 }, base := 0, retired := 0,
                         restored := false, framed := true } }

/-- A part whose group is in a handler, about to issue from the handler's slot. -/
def partH (f : Group → Group) : State :=
  { base with sched := { stageSched with groups := [f (inHandler stageGroup)] }, cur := some ⟨0, 0, 2, 0, 4⟩ }

/-! ## Memory of every kind -/

/-- Pages of 2 MiB beside the staged one: peer 5 at 0x200000, the host of port 0 at 0x400000, CHECKED device memory at 0x600000. -/
def peerLeaf : Leaf := { ctx := 0, base := 0x200000, w0 := 0x505F, w1 := 0x5000 }
/-- See peerLeaf. -/
def hostLeaf : Leaf := { ctx := 0, base := 0x400000, w0 := 0x509F, w1 := 0 }
/-- See peerLeaf. -/
def checkedLeaf : Leaf := { ctx := 0, base := 0x600000, w0 := 0x60000513F, w1 := 0 }

/-- The translations that core 0 and die 0 hold. -/
def leaves : List (Nat × Leaf) := [(0, stageLeaf), (0, peerLeaf), (0, hostLeaf), (0, checkedLeaf)]

/-- Every link UP, peer 5 behind port 0. -/
def fabUp : Fabric := { Fabric.reset with links := linkIds.map (fun i => { Link.reset i with st := .up }), routes := [(5, 1)] }

/-- The staged part with these pages and links, its group changed. -/
def net (f : Group → Group) : State :=
  { base with sched := { stageSched with groups := [f stageGroup] }, ms := { base.ms with tlbCore := leaves, tlbDie := leaves }, fab := fabUp }

/-- The elements of an access with their places, none where it fails. -/
def placed (c : Iss) (a : Access) (t b : Nat) (vi : Option Nat) : List Placed := okOr [] (c.translateAll a (formed c a t b vi))

/-- Admitted as a Bool. -/
def admittedB (c : Iss) (a : Access) (t b : Nat) (vi : Option Nat) : Bool :=
  c.elems.all (fun e => (c.walkOf e (c.g.s b).toNat).held?.isNone) && (formed c a t b vi).all (fun f => f.va % f.width == 0) && isOk (c.translateAll a (formed c a t b vi)) &&
    (formatCheck a t (formed c a t b vi) (placed c a t b vi)).isNone

theorem admitted {c : Iss} {a : Access} {t b : Nat} {vi : Option Nat} (h : admittedB c a t b vi = true) :
    Admitted c a t b vi (placed c a t b vi) := by
  simp only [admittedB, Bool.and_eq_true, List.all_eq_true, beq_iff_eq] at h
  exact ⟨fun e m => Option.isNone_iff_eq_none.mp (h.1.1.1 e m), h.1.1.2, of_isOk [] h.1.2, Option.isNone_iff_eq_none.mp h.2⟩

theorem exists_cons {α : Type} {l : List α} (h : l ≠ []) : ∃ x xs, l = x :: xs := List.exists_cons_of_ne_nil h

end Sys2Proof.Tests
end

