-- ==== Sys2Proof/Tests/Access.lean ====
section
/-! SUPPORT. Witnesses of the statements about loads, stores, race stamps and cluster SRAM. -/

namespace Sys2Proof.Tests

open Sys2Proof.Machine Sys2Proof.Claims

set_option maxRecDepth 100000
set_option Elab.async false

/-- A part whose s9 is a base address. -/
def netAt (x : Nat) : State := net (fun g => g.setS 9 (BitVec.ofNat 64 x))

/-! ## Issue -/

/-- RawAccess: a base page without FORMAT, an absent one, and placed elements. -/
theorem met_raw_access : (∀ l, (iss base).baseLeaf 9 0 = some l → l.format = false) ∧ (iss (netAt 0x800000)).baseLeaf 9 0 = none ∧
    placed (iss base) .write 4 9 (some 0) ≠ [] ∧ ∀ p ∈ placed (iss base) .write 4 9 (some 0), p.mode = .raw :=
  ⟨by rw [show (iss base).baseLeaf 9 0 = some stageLeaf by decide +kernel]; rintro l ⟨rfl⟩; decide +kernel, by decide +kernel, by decide +kernel,
    by decide +kernel⟩

/-- LoadIssue: elements in device memory up to its last mapped word, and in a peer's. -/
theorem met_load_issue : (∃ s ps, Ready s (iss s) (.ld 4 8 9 (some 0)) ∧ Admitted (iss s) .read 4 9 (some 0) ps ∧ PlainDevice ps ∧ ps.length = 32 ∧
      ∃ p ∈ ps, p.ea = 0x1FFFFC) ∧
    ∃ s ps, Ready s (iss s) (.ld 7 8 9 (some 0)) ∧ Admitted (iss s) .read 7 9 (some 0) ps ∧ (∀ p ∈ ps, p.leaf.checked = false) ∧
      (∀ p ∈ ps, s.routeOpen p.place = true) ∧ ∃ p ∈ ps, p.place.remote = true :=
  ⟨⟨netAt 0x1FFF80, _, ready (by decide +kernel), admitted (by decide +kernel), by unfold PlainDevice; decide +kernel, by decide +kernel, by decide +kernel⟩,
    ⟨netAt 0x200000, _, ready (by decide +kernel), admitted (by decide +kernel), by decide +kernel, by decide +kernel, by decide +kernel⟩⟩

/-- StoreIssue: to device memory and to a host. -/
theorem met_store_issue : ∀ x, x = 0x1FFF80 ∨ x = 0x400000 → Ready (netAt x) (iss (netAt x)) (.st 4 8 9 (some 0)) ∧
    Admitted (iss (netAt x)) .write 4 9 (some 0) (placed (iss (netAt x)) .write 4 9 (some 0)) ∧
    (∀ p ∈ placed (iss (netAt x)) .write 4 9 (some 0), p.leaf.checked = false ∧ (netAt x).routeOpen p.place = true) ∧
    partialBlocks .write 4 (placed (iss (netAt x)) .write 4 9 (some 0)) = none := by
  intro x h
  rcases h with rfl | rfl <;>
    exact ⟨ready (by decide +kernel), admitted (by decide +kernel), by decide +kernel, Option.isNone_iff_eq_none.mp (by decide +kernel)⟩

/-- AccessFaults: a misaligned access of each instruction, and one to an absent page with a free fault entry. -/
theorem met_access_faults : (∀ i a, (i = .ld 4 8 9 (some 0) ∧ a = Access.read) ∨ (i = .st 4 8 9 (some 0) ∧ a = .write) ∨
        (i = .ldHn 4 8 9 (some 0) ∧ a = .read) →
      readyB (netAt 0x800000) i = true ∧ readyB (netAt 2) i = true) ∧
    (∀ s, s = netAt 2 ∨ s = netAt 0x800000 → ∀ e ∈ (iss s).elems, WalkFree (iss s) e ((iss s).g.s 9).toNat) ∧
    (HandlerFree (netAt 2) (iss (netAt 2)) 0x0B 0x20000 ∧
      ∃ f fs, (formed (iss (netAt 2)) .write 4 9 (some 0)).filter (fun f => f.va % f.width != 0) = f :: fs) ∧
    (∀ f ∈ formed (iss (netAt 2)) .write 4 9 (some 0), WalkFree (iss (netAt 2)) f.elem f.va) ∧
    (netAt 0x800000).ms.pfes = [] ∧ (∀ f ∈ formed (iss (netAt 0x800000)) .write 4 9 (some 0), f.va % f.width = 0) ∧
    ∃ e ea lv pm n, worstFail ((formed (iss (netAt 0x800000)) .write 4 9 (some 0)).map (fun f =>
        (f.elem, (netAt 0x800000).xlElem (some 0) 0 0 (f.elem / 32) f.va .write))) = some (.absent, e, ea, lv, pm, n) ∧
      ((netAt 0x800000).pfe 0 0).pending = false :=
  ⟨by intro i a h; rcases h with ⟨rfl, rfl⟩ | ⟨rfl, rfl⟩ | ⟨rfl, rfl⟩ <;> decide +kernel,
    by intro s h; rcases h with rfl | rfl <;> unfold WalkFree <;> decide +kernel,
    ⟨handlerFree (by decide +kernel), exists_cons (by decide +kernel)⟩, by unfold WalkFree; decide +kernel, by decide +kernel, by decide +kernel,
    ⟨0, 0x800000, 4, 0, 32, by decide +kernel, by decide +kernel⟩⟩

/-! ## Race stamps -/

/-- The same with stamps. -/
def netStamps (x : Nat) (ts : List Stamp) : State := { netAt x with ms := { (netAt x).ms with stamps := ts } }

/-- A live write stamp of slot 1 at the first sector of the CHECKED pages. -/
def aStamp : Stamp := { sector := 0x60000, ctx := 0, core := 0, slot := 1, region := 0, kind := .write, heldBy := none }

/-- RaceStamps, the conflict: ld and st meet the stamp in the first of their sectors. -/
theorem met_race_conflict : ∀ i a k, (i = .ld 4 8 9 (some 0) ∧ a = Access.read ∧ k = StampKind.read) ∨
      (i = .st 4 8 9 (some 0) ∧ a = .write ∧ k = .write) → let s := netStamps 0x600000 [aStamp]
    Ready s (iss s) i ∧ HandlerFree s (iss s) 0x0C 0x20000 ∧ Admitted (iss s) a 4 9 (some 0) (placed (iss s) a 4 9 (some 0)) ∧
      (∀ p ∈ placed (iss s) a 4 9 (some 0), s.elemGate (p.load 4) = none) ∧
      partialBlocks .write 4 (placed (iss s) .write 4 9 (some 0)) = none ∧
      ∃ z ys, stampHits (iss s) k (placed (iss s) a 4 9 (some 0)) = z :: ys := by
  intro i a k h
  rcases h with ⟨rfl, rfl, rfl⟩ | ⟨rfl, rfl, rfl⟩ <;>
    exact ⟨ready (by decide +kernel), handlerFree (by decide +kernel), admitted (by decide +kernel), by decide +kernel,
      Option.isNone_iff_eq_none.mp (by decide +kernel), exists_cons (by decide +kernel)⟩

/-- RaceStamps without a conflict: the next sectors of the same pages. -/
theorem met_race_free : let s := netStamps 0x600010 [aStamp]
    (Ready s (iss s) (.ld 4 8 9 (some 0)) ∧ Admitted (iss s) .read 4 9 (some 0) (placed (iss s) .read 4 9 (some 0)) ∧
      (∀ p ∈ placed (iss s) .read 4 9 (some 0), p.place.remote = false ∧ p.leaf.checked = true ∧
        (p.load 4).ready (iss s).g (iss s).g.seq = true ∧ s.elemGate (p.load 4) = none ∧ s.poisonAt p.place p.width = false) ∧
      stampHits (iss s) .read (placed (iss s) .read 4 9 (some 0)) = [] ∧ (iss s).stampFull .read (placed (iss s) .read 4 9 (some 0)) = false ∧
      s.stampGate (placed (iss s) .read 4 9 (some 0)) = none ∧ StampRoom s (iss s) (placed (iss s) .read 4 9 (some 0))) ∧
    Ready s (iss s) (.st 4 8 9 (some 0)) ∧ Admitted (iss s) .write 4 9 (some 0) (placed (iss s) .write 4 9 (some 0)) ∧
      partialBlocks .write 4 (placed (iss s) .write 4 9 (some 0)) = none ∧
      (∀ p ∈ placed (iss s) .write 4 9 (some 0), s.routeOpen p.place = true) ∧
      stampHits (iss s) .write (placed (iss s) .write 4 9 (some 0)) = [] ∧ (iss s).stampFull .write (placed (iss s) .write 4 9 (some 0)) = false ∧
      s.stampGate (placed (iss s) .write 4 9 (some 0)) = none ∧ StampRoom s (iss s) (placed (iss s) .write 4 9 (some 0)) :=
  ⟨⟨ready (by decide +kernel), admitted (by decide +kernel), by decide +kernel, by decide +kernel, by decide +kernel, by decide +kernel,
      by unfold StampRoom; decide +kernel⟩, ready (by decide +kernel), admitted (by decide +kernel), Option.isNone_iff_eq_none.mp (by decide +kernel),
    by decide +kernel, by decide +kernel, by decide +kernel, by decide +kernel, by unfold StampRoom; decide +kernel⟩

/-! ## Completion -/

/-- Two elements of a load, in lines 2 and 3. -/
def aLoad : LoadEntry :=
  { seq := 0, dst := 8, pair := true, slot := 0,
    elems := [{ elem := 0, va := 0x100, place := .dev 0x100, n := 8, cache := true, conv := .zext, value := none },
              { elem := 31, va := 0x180, place := .dev 0x180, n := 2, cache := true, conv := .sext, value := none }] }

/-- LoadValue: an element of 8 bytes zero-extended, and of 2 and 1 sign-extended. -/
theorem met_load_value : stageGroup.stores = [] ∧ stageGroup.sent = [] ∧ base.ms.partials = [] ∧ base.ms.pendings = [] ∧
    ∃ x y z : LoadElem, x.place = .dev 0x100 ∧ x.conv = .zext ∧ y.place = .dev 0x180 ∧ y.conv = .sext ∧ y.n = 2 ∧ z.place = .dev 0 ∧ z.conv = .sext ∧ z.n = 1 :=
  ⟨rfl, rfl, by decide +kernel, by decide +kernel, { elem := 0, va := 0x100, place := .dev 0x100, n := 8, cache := true, conv := .zext, value := none },
    { elem := 31, va := 0x180, place := .dev 0x180, n := 2, cache := true, conv := .sext, value := none },
    { elem := 31, va := 0, place := .dev 0, n := 1, cache := true, conv := .sext, value := none }, rfl, rfl, rfl, rfl, rfl, rfl, rfl, rfl⟩

/-- LoadReturns: the return of the first line of two, and of the last one. -/
theorem met_load_returns : ∀ l, l = aLoad ∨ l = { aLoad with elems := aLoad.elems.map (fun x => if x.elem = 0 then { x with value := some 7 } else x) } →
    ∀ line, line = (if l = aLoad then 2 else 3) → let s := part (fun g => { g with loads := [l], seq := 1 })
    s.mgmt.devState ≠ .fatal ∧ ∃ g, s.group? 0 0 = some g ∧ g.loads[0]? = some l ∧ g.blocked = none ∧ dueOf l line ≠ [] ∧
      ∀ x ∈ dueOf l line, x.place.remote = false ∧ x.ready g l.seq = true ∧ s.elemGate x = none ∧
        s.poisonAt x.place x.n = false := by
  intro l h line hl
  rcases h with rfl | rfl <;> subst hl <;>
    exact ⟨by decide +kernel, _, of_isSome stageGroup (by decide +kernel), by decide +kernel, by decide +kernel, by decide +kernel, by decide +kernel⟩

/-- A store of 4 bytes in line 2 and 4 in line 3. -/
def aStore : StoreEntry :=
  { seq := 0, elems := [{ elem := 0, place := .dev 0x17C, bytes := [1, 2, 3, 4], cache := true, checked := false, arrived := true },
                        { elem := 1, place := .dev 0x180, bytes := [5, 6, 7, 8], cache := true, checked := false, arrived := true }] }

/-- StoreApplies: one line of a store in two. -/
theorem met_store_applies : let s := part (fun g => { g with stores := [aStore], seq := 1 })
    s.mgmt.devState ≠ .fatal ∧ ∃ g, s.group? 0 0 = some g ∧ g.stores[0]? = some aStore ∧ aStore.elems.filter (fun w => w.place.lineNo == 2) ≠ [] ∧
      ∀ w ∈ aStore.elems, w.place.lineNo = 2 → w.place.remote = false ∧ w.arrived = true ∧
        s.mayWrite g aStore.seq (some w.elem) w.place w.bytes.length = true ∧ s.placeGate w.place w.bytes.length = none :=
  ⟨by decide +kernel, _, of_isSome stageGroup (by decide +kernel), by decide +kernel, by decide +kernel, by decide +kernel⟩

/-! ## Cluster SRAM -/

/-- A part whose s9 is an offset, with a barrier object at offset 64 of cluster 0. -/
def sramPart (x : Nat) : State :=
  { part (fun g => g.setS 9 (BitVec.ofNat 64 x)) with ms := { base.ms with barriers := [(0, 64)] } }

/-- ClusterSram: lds of each width and sts at the last offsets of the run. -/
theorem met_cluster_sram : (Instr.lds 0 8 9 (some 0)).WellFormed ∧ Ready (sramPart 4064) (iss (sramPart 4064)) (.lds 0 8 9 (some 0)) ∧
    InRun (iss (sramPart 4064)) 0 9 (some 0) ∧ (Instr.lds 5 8 9 (some 0)).WellFormed ∧
    Ready (sramPart 3840) (iss (sramPart 3840)) (.lds 5 8 9 (some 0)) ∧ InRun (iss (sramPart 3840)) 5 9 (some 0) ∧
    (Instr.sts 4 8 9 (some 0)).WellFormed ∧ Ready (sramPart 3968) (iss (sramPart 3968)) (.sts 4 8 9 (some 0)) ∧
    InRun (iss (sramPart 3968)) 4 9 (some 0) ∧
    (∀ e ∈ (iss (sramPart 3968)).elems, (sramPart 3968).barrierTouched 0 (sramAt (iss (sramPart 3968)) 4 9 (some 0) e) (sramWidth 4) = none ∧
      (iss (sramPart 3968)).g.elemBefore (iss (sramPart 3968)).g.seq (some e) = false ∧ (iss (sramPart 3968)).g.sentElem (some e) = false) :=
  ⟨by decide, ready (by decide +kernel), ⟨0, 4096, by decide +kernel, by decide +kernel⟩, by decide, ready (by decide +kernel),
    ⟨0, 4096, by decide +kernel, by decide +kernel⟩, by decide, ready (by decide +kernel), ⟨0, 4096, by decide +kernel, by decide +kernel⟩,
    by decide +kernel⟩

/-- ClusterSram, its traps: a misaligned element, one outside the run, one on a barrier object. -/
theorem met_cluster_sram_traps : (∀ j, j = .lds 4 8 9 (some 0) ∨ j = .sts 4 8 9 (some 0) → j.WellFormed ∧ readyB (sramPart 2) j = true ∧
      readyB (sramPart 3972) j = true) ∧
    HandlerFree (sramPart 2) (iss (sramPart 2)) 0x0B 0x20000 ∧
    (∃ e es, (iss (sramPart 2)).elems.filter (fun e => sramAt (iss (sramPart 2)) 4 9 (some 0) e % sramWidth 4 != 0) = e :: es) ∧
    HandlerFree (sramPart 3972) (iss (sramPart 3972)) 0x09 0x20000 ∧
    (∀ e ∈ (iss (sramPart 3972)).elems, sramAt (iss (sramPart 3972)) 4 9 (some 0) e % sramWidth 4 = 0) ∧
    (∃ e es, (iss (sramPart 3972)).elems.filter (fun e => match (iss (sramPart 3972)).u.scratch with
        | some r => decide (sramAt (iss (sramPart 3972)) 4 9 (some 0) e < r.1 ∨ r.1 + r.2 < sramAt (iss (sramPart 3972)) 4 9 (some 0) e + sramWidth 4)
        | none => true) = e :: es) ∧
    Ready (sramPart 0) (iss (sramPart 0)) (.sts 4 8 9 (some 0)) ∧ InRun (iss (sramPart 0)) 4 9 (some 0) ∧
    HandlerFree (sramPart 0) (iss (sramPart 0)) 0x10 0x20000 ∧
    ∃ es, (iss (sramPart 0)).elems.filter (fun e => ((sramPart 0).barrierTouched 0 (sramAt (iss (sramPart 0)) 4 9 (some 0) e) (sramWidth 4)).isSome) =
        16 :: es ∧ (sramPart 0).barrierTouched 0 (sramAt (iss (sramPart 0)) 4 9 (some 0) 16) (sramWidth 4) = some 64 :=
  ⟨by intro j h; rcases h with rfl | rfl <;> decide +kernel, handlerFree (by decide +kernel), exists_cons (by decide +kernel),
    handlerFree (by decide +kernel), by decide +kernel, exists_cons (by decide +kernel), ready (by decide +kernel),
    ⟨0, 4096, by decide +kernel, by decide +kernel⟩, handlerFree (by decide +kernel), [17, 18, 19, 20, 21, 22, 23], by decide +kernel,
    by decide +kernel⟩

end Sys2Proof.Tests
end

