-- ==== Sys2Proof/Tests/Sync.lean ====
section
/-! SUPPORT. Witnesses of the statements about atomics, headnote loads, fences, cache instructions and barrier objects. -/

namespace Sys2Proof.Tests

open Sys2Proof.Machine Sys2Proof.Claims

set_option maxRecDepth 100000
set_option Elab.async false

/-! ## Atomics -/

/-- A part whose s9 is a base address. -/
def atomPart (x : Nat) : State := net (fun g => g.setS 9 (BitVec.ofNat 64 x))

/-- The elements of an atomic with their places. -/
def atomPlaced (c : Iss) (op sb vi : Nat) : List PlacedAtom := okOr [] (c.atomChecks op sb vi)

/-- What AtomicIssue asks of an atomic's elements, as a Bool. -/
def atomB (s : State) (op k : Nat) : Bool :=
  let c := iss s
  let ps := atomPlaced c op 9 0
  isOk (c.atomChecks op 9 0) && decide ((∀ p ∈ ps, p.leaf.checked = false ∧ s.routeOpen p.place = true ∧ p.rest = none) ∧
    ∀ p ∈ ps, (s.atomUnit c.g.core op k p).atIssue = true →
      s.mayWrite c.g c.g.seq (some p.elem) p.place (atomWidth op) = true ∧ s.placeGate p.place (atomWidth op) = none ∧
      s.poisonAt p.place (atomWidth op) = false ∧ s.rotationWaits c.g.core c.g.slot (s.clock (.core c.g.core) + 1) p.place (atomWidth op) = false)

theorem atom_open {s : State} {op k : Nat} (h : atomB s op k = true) : (iss s).atomChecks op 9 0 = .ok (atomPlaced (iss s) op 9 0) ∧
    (∀ p ∈ atomPlaced (iss s) op 9 0, OpenPlain s p) ∧
    ∀ p ∈ atomPlaced (iss s) op 9 0, (s.atomUnit (iss s).g.core op k p).atIssue = true →
      s.mayWrite (iss s).g (iss s).g.seq (some p.elem) p.place (atomWidth op) = true ∧ s.placeGate p.place (atomWidth op) = none ∧
      s.poisonAt p.place (atomWidth op) = false ∧
      s.rotationWaits (iss s).g.core (iss s).g.slot (s.clock (.core (iss s).g.core) + 1) p.place (atomWidth op) = false := by
  simp only [atomB, Bool.and_eq_true, decide_eq_true_eq] at h
  refine ⟨of_isOk [] h.1, fun p hp => ⟨(h.2.1 p hp).1, (h.2.1 p hp).2.1, ?_⟩, h.2.2⟩
  intro n l q hr
  rw [(h.2.1 p hp).2.2] at hr
  cases hr

/-- AtomicIssue: an atom in the core's L1, one at the banks, a red on a peer, an atom on a host. -/
theorem met_atomic_issue : (∀ t ∈ [((0x1000 : Nat), Instr.atom 0 8 9 0 2, (0, 2)), (0x1000, .atom 0 8 9 0 6, (0, 6)), (0x200000, .red 0 8 9 0 6, (0, 6)),
      (0x400000, .atom 12 8 9 0 6, (12, 6))], readyB (atomPart t.1) t.2.1 = true ∧ atomB (atomPart t.1) t.2.2.1 t.2.2.2 = true) ∧
    (∃ p ∈ atomPlaced (iss (atomPart 0x1000)) 0 9 0, ((atomPart 0x1000).atomUnit 0 0 2 p).atIssue = true ∧ p.place.remote = false) ∧
    ∃ p ∈ atomPlaced (iss (atomPart 0x400000)) 12 9 0, p.place.remote = true :=
  ⟨by decide +kernel, by decide +kernel, by decide +kernel⟩

/-- AtomicValues at the ends of the operands' range. -/
theorem met_atomic_values : (2 ^ 32 - 1 : Nat) < 2 ^ 32 ∧ (0 : Nat) < 2 ^ 32 ∧ (2 ^ 64 - 1 : Nat) < 2 ^ 64 := by decide

/-- An atomic with one unperformed element. -/
def anAtom (op : Nat) (red : Bool) (p : Place) (rest : Option (Nat × Place)) : AtomEntry :=
  { seq := 0, cycle := 0, op := op, red := red, dst := 8, slot := 0,
    elems := [{ elem := 0, va := 0x1000, place := p, rest := none, x := 1, y := 0, value := some 3 },
              { elem := 5, va := 0x1000, place := p, rest := rest, x := 1, y := 0, value := none }] }

/-- A part whose group has this atomic. -/
def atomEntryPart (a : AtomEntry) : State := net (fun g => { g with atoms := [a], seq := 1 })

/-- The premises that BankAtomic's clauses share, as a Bool. -/
def bankB (s : State) (a : AtomEntry) (x : AtomElem) : Bool :=
  match s.group? 0 0 with
  | none => false
  | some g => decide (s.mgmt.devState ≠ .fatal ∧ g.atoms[0]? = some a ∧ g.blocked ≠ some a.seq ∧ a.elems.find? (fun y => y.value.isNone) = some x ∧
      ∀ q ∈ spanPieces x.place x.rest (atomWidth a.op), s.rotationWaits 0 0 a.cycle q.1 q.2 = false ∧
        s.mayWrite g a.seq (some x.elem) q.1 q.2 = true)

/-- The premises of its first clause for local or reachable places. -/
def bankGoB (s : State) (a : AtomEntry) (x : AtomElem) : Bool :=
  (spanPieces x.place x.rest (atomWidth a.op)).all (fun q => (s.placeGate q.1 q.2).isNone && !s.poisonAt q.1 q.2 && s.reachable q.1 &&
    (s.group? 0 0).any (fun g => g.mayWrite a.seq (some x.elem) q.1 q.2 && !g.sentElem (some x.elem) && !g.sentOver q.1 q.2 &&
      !s.peerWaits g q.1 q.2)) &&
    s.ms.hostLines.isEmpty && (!x.place.remote || (s.farTrap (a.elems.map (fun y => (y.elem, y.va, y.place, atomWidth a.op))) .atomic).isNone)

/-- BankAtomic: the last element of an atom in device memory, an XA object in two pages, an atom on a host, a red that goes to a peer. -/
theorem met_bank_atomic : (∀ a, a = anAtom 0 false (.dev 0x1000) none ∨ a = anAtom 15 true (.dev 0x1F00) (some (256, .dev 0x4000)) ∨
      a = anAtom 12 false (.host 0 0x1000) none → ∃ x, bankB (atomEntryPart a) a x = true ∧ bankGoB (atomEntryPart a) a x = true) ∧
    ∃ x l, let a := anAtom 0 true (.peer 5 0x1000) none
      let s := atomEntryPart a
      bankB s a x = true ∧ a.red = true ∧ x.place.remote = true ∧ s.placeLink x.place = some l ∧ s.linkCarries l = true ∧ s.retryFull l = false ∧
        s.otherLink 0 x.place l = false := by
  refine ⟨?_, { elem := 5, va := 0x1000, place := .peer 5 0x1000, rest := none, x := 1, y := 0, value := none }, 0x200, by decide +kernel⟩
  intro a h
  rcases h with rfl | rfl | rfl
  · exact ⟨{ elem := 5, va := 0x1000, place := .dev 0x1000, rest := none, x := 1, y := 0, value := none }, by decide +kernel⟩
  · exact ⟨{ elem := 5, va := 0x1000, place := .dev 0x1F00, rest := some (256, .dev 0x4000), x := 1, y := 0, value := none }, by decide +kernel⟩
  · exact ⟨{ elem := 5, va := 0x1000, place := .host 0 0x1000, rest := none, x := 1, y := 0, value := none }, by decide +kernel⟩

/-! ## Headnote loads -/

/-- HeadnoteLoad: an ld.hn that is an ld because its die holds the line, and one whose lines another die holds. -/
theorem met_headnote_load : ∀ die, die = 0 ∨ die = 1 →
    let s := { atomPart 0x1000 with ms := { (atomPart 0x1000).ms with
      lines := [{ line := 32, holder := some die, recorded := true, cached := true, version := 3, sharers := [], inexact := false, awayDie := none,
                  awayCount := 0, dirty := false, poison := false, hostLo := none, hostHi := none }] } }
    Ready s (iss s) (.ldHn 4 8 9 (some 0)) ∧ Admitted (iss s) .read 4 9 (some 0) (placed (iss s) .read 4 9 (some 0)) ∧
      (∀ p ∈ placed (iss s) .read 4 9 (some 0), s.routeOpen p.place = true ∧ p.place.remote = false ∧ p.leaf.checked = false ∧
        (p.load 4).ready (iss s).g (iss s).g.seq = true ∧ s.elemGate (p.load 4) = none ∧ s.poisonAt p.place p.width = false) ∧
      L2Room s (iss s) (hnLines (placed (iss s) .read 4 9 (some 0))).length ∧
      (iss s).hnPlain (placed (iss s) .read 4 9 (some 0)) = (die == 0) := by
  intro die h
  rcases h with rfl | rfl <;> exact ⟨ready (by decide +kernel), admitted (by decide +kernel), by decide +kernel,
    by unfold L2Room; decide +kernel, by decide +kernel⟩

/-- HeadnoteBytes: a line of the die's own, and one of another die with and without a shadow. -/
theorem met_headnote_bytes : ∃ (x : LoadElem), x.place = .dev 0x1000 ∧ x.n = 4 ∧ stageGroup.stores = [] ∧ stageGroup.sent = [] ∧
    ∀ die, die = 0 ∨ die = 1 → ∀ sh, sh = [] ∨ sh = [{ die := 0, line := 32, version := 3, bytes := List.replicate 128 1, since := 0 : Shadow }] →
      let s := { base with ms := { base.ms with shadows := sh, lines := [{ LineRec.fresh 32 with holder := some die, recorded := true }] } }
      s.ms.partials = [] ∧ s.ms.pendings = [] ∧ s.hnHeld 0 32 = (die == 0) ∧ (s.shadowOf 0 32).isSome = !sh.isEmpty ∧
        ∀ h ∈ sh, h.bytes.length = 128 := by
  refine ⟨{ elem := 0, va := 0, place := .dev 0x1000, n := 4, cache := true, conv := .zext, value := none }, rfl, rfl, rfl, rfl, ?_⟩
  intro die h sh k
  rcases h with rfl | rfl <;> rcases k with rfl | rfl <;> decide +kernel

/-- A watch entry of two lines, the first PENDING with an answer. -/
def watchOf (st : WatchState) (answer : Option Bool) : WatchEntry := { st := st, lines := [⟨32, 3, answer, .pending⟩, ⟨33, 3, none, .confirmed⟩] }

/-- A part whose last watch entry is such a one, s9 the mask of all. -/
def watchPart (st : WatchState) (answer : Option Bool) : State :=
  part (fun g => { (g.setS 9 0xFFFF) with watch := g.watch.set 15 (watchOf st answer) })

/-- HeadnoteChecks: hnchk with no selected entry PENDING, with one STRUCK, with one PENDING; a check sent and answered both ways. -/
theorem met_headnote_checks : (Ready (watchPart .confirmed none) (iss (watchPart .confirmed none)) (.hnchk 9 (-6)) ∧
      (∀ e ∈ (iss (watchPart .confirmed none)).g.watch, e.st ≠ .pending ∧ e.st ≠ .struck)) ∧
    (Ready (watchPart .struck none) (iss (watchPart .struck none)) (.hnchk 9 (-6)) ∧ (∀ e ∈ (iss (watchPart .struck none)).g.watch, e.st ≠ .pending) ∧
      ((iss (watchPart .struck none)).g.watch[15]?).map (·.st) = some .struck ∧ (((iss (watchPart .struck none)).g.s 9).toNat % 2 ^ 16).testBit 15 = true) ∧
    (Ready (watchPart .pending none) (iss (watchPart .pending none)) (.hnchk 9 (-6)) ∧
      ((iss (watchPart .pending none)).g.watch[15]?).map (·.st) = some .pending) ∧
    (∃ g, (watchPart .struck (some false)).group? 0 0 = some g ∧ g.watch[15]? = some (watchOf .struck (some false))) ∧
    ∀ a, a = none ∨ a = some true ∨ a = some false → (watchPart .pending a).mgmt.devState ≠ .fatal ∧ ∃ g,
      (watchPart .pending a).group? 0 0 = some g ∧ g.watch[15]? = some (watchOf .pending a) ∧
        (∀ v ∈ (watchOf .pending a).lines, v.line = 32 → v = ⟨32, 3, a, .pending⟩) ∧ ∀ v ∈ (watchOf .pending a).lines, v.line ≠ 32 → v.st = .confirmed := by
  refine ⟨⟨ready (by decide +kernel), by decide +kernel⟩, ⟨ready (by decide +kernel), by decide +kernel, by decide +kernel, by decide +kernel⟩,
    ⟨ready (by decide +kernel), by decide +kernel⟩, ⟨_, of_isSome stageGroup (by decide +kernel), by decide +kernel⟩, ?_⟩
  intro a h
  rcases h with rfl | rfl | rfl <;>
    exact ⟨by decide +kernel, _, of_isSome stageGroup (by decide +kernel), by decide +kernel, by decide, by decide⟩

/-! ## Fences -/

/-- A part whose group has a load and a store under way, or an entry that is STRUCK. -/
def busyPart (loads stores struck : Bool) : State :=
  part (fun g => { g with loads := if loads then [⟨0, 8, false, 0, [⟨0, 0, .dev 0, 4, true, .zext, none⟩]⟩] else [],
                          stores := if stores then [⟨1, [⟨0, .dev 0, [1], true, false, true⟩]⟩] else [], seq := 2,
                          watch := if struck then g.watch.set 3 { st := .struck, lines := [] } else g.watch })

/-- Fences: an acquire with and without a load under way; releases that may complete, wait, or find a STRUCK entry. -/
theorem met_fences : (Ready base (iss base) (.fenceAcq 9) ∧ (iss base).g.watching .pending = false ∧ (iss base).g.acquireWaits 9 = false) ∧
    (Ready (busyPart true false false) (iss (busyPart true false false)) (.fenceAcq 2) ∧ (iss (busyPart true false false)).g.acquireWaits 2 = true) ∧
    (∀ i, i = .fenceRel 6 ∨ i = .fenceFull 6 → Ready base (iss base) i) ∧ MayRelease (iss base) 6 ∧ (iss base).g.acquireWaits 6 = false ∧
    (∀ i, i = .fenceRel 6 ∨ i = .fenceFull 6 → Ready (busyPart false true false) (iss (busyPart false true false)) i) ∧
    (iss (busyPart false true false)).g.watching .struck = false ∧ (iss (busyPart false true false)).g.releaseWaits 6 = true ∧
    (∀ i, i = .fenceRel 0 ∨ i = .fenceFull 0 → Ready (busyPart false false true) (iss (busyPart false false true)) i) ∧
    (iss (busyPart false false true)).g.watching .pending = false ∧ (iss (busyPart false false true)).g.watching .struck = true ∧
    HandlerFree (busyPart false false true) (iss (busyPart false false true)) 0x13 0x20000 ∧
    (∀ r, r = true ∨ r = false → let s := part (fun g => { g with relax := r, stores := [⟨1, [⟨0, .dev 0, [1], true, false, true⟩]⟩], seq := 2 })
      readyB s (.fenceRel 6) = true ∧ (iss s).g.relax = r ∧ (iss s).g.releaseWaits 6 = true ∧ s.drydown (iss s).l.ctx = false) := by
  refine ⟨⟨ready (by decide +kernel), by decide +kernel, by decide +kernel⟩, ⟨ready (by decide +kernel), by decide +kernel⟩, ?_,
    ⟨by decide +kernel, by decide +kernel, by decide +kernel, by decide +kernel⟩, by decide +kernel, ?_, by decide +kernel, by decide +kernel, ?_,
    by decide +kernel, by decide +kernel, handlerFree (by decide +kernel), ?_⟩
  rotate_right
  · intro r h; rcases h with rfl | rfl <;> decide +kernel
  all_goals intro i h; rcases h with rfl | rfl <;> exact ready (by decide +kernel)

/-- A part whose earlier fence.rel is still owed, with a store under way or not, about to issue the word w. -/
def passPart (stores : Bool) (w : Word32) : State :=
  { part (fun g => { (g.setS 9 0x1000) with relFence := some 6, stores := if stores then [⟨1, [⟨0, .dev 0, [1], true, false, true⟩]⟩] else [],
                                            seq := 2 }) with cur := some ⟨0, 0, 0, w, 4⟩ }

/-- ReleasePassed: an ld and a nop while the release is owed, and the release whose writes are performed. -/
theorem met_release_passed : (let s := passPart true 0x41
     s.issuing = some (iss s) ∧ (iss s).g.hdl = none ∧ (iss s).g.relFence = some 6 ∧ (iss s).g.lateTrap = none ∧ (iss s).g.acquire = none ∧
       isLd (iss s).raw.toNat = true ∧ checkOperands (iss s) (operands (.ld 4 8 9 (some 0))) = none ∧
       (iss s).clears (operands (.ld 4 8 9 (some 0))) = true ∧ Admitted (iss s) .read 4 9 (some 0) (placed (iss s) .read 4 9 (some 0)) ∧
       PlainDevice (placed (iss s) .read 4 9 (some 0))) ∧
    (let s := passPart true 0x39
     s.issuing = some (iss s) ∧ (iss s).g.hdl = none ∧ (iss s).g.relFence = some 6 ∧ isLd (iss s).raw.toNat = false) ∧
    (let s := passPart false 0x39
     s.group? (iss s).g.core (iss s).g.slot = some (iss s).g ∧ (iss s).g.saved = none ∧ (iss s).g.releaseWaits 6 = false ∧
       (iss s).g.lateTrap = none ∧ s.releaseGate (iss s).g.core 6 = none) :=
  ⟨⟨issuing_iss (by decide +kernel), by decide +kernel, by decide +kernel, by decide +kernel, by decide +kernel, by decide +kernel,
      Option.isNone_iff_eq_none.mp (by decide +kernel), by decide +kernel, admitted (by decide +kernel), by unfold PlainDevice; decide +kernel⟩,
    ⟨issuing_iss (by decide +kernel), by decide +kernel, by decide +kernel, by decide +kernel⟩,
    by decide +kernel, by decide +kernel, by decide +kernel, by decide +kernel, Option.isNone_iff_eq_none.mp (by decide +kernel)⟩

/-! ## pfetch and llcflush -/

/-- Page tables that map the first 2 MiB onto themselves. -/
def tables (m : Memory) : Memory :=
  (((m.writeLE 0x100000 8 (1 + 0x102 * 2 ^ 24)).writeLE 0x102000 8 (1 + 0x104 * 2 ^ 24)).writeLE 0x104000 8 (1 + 0x106 * 2 ^ 24)).writeLE 0x106000 8 0x511F

/-- A line that is dirty and that no die holds. -/
def dirtyLine : LineRec :=
  { line := 32, holder := none, recorded := false, cached := false, version := 0, sharers := [], inexact := false, awayDie := none, awayCount := 0,
    dirty := true, poison := false, hostLo := none, hostHi := none }

/-- A part with these tables and line, s9 an address, s10 a length, its group changed. -/
def flushPart (a n : Nat) (f : Group → Group) : State :=
  partM (fun g => f ((g.setS 9 (BitVec.ofNat 64 a)).setS 10 (BitVec.ofNat 64 n))) (fun m => { m with mem := tables m.mem, lines := [dirtyLine] })

/-- A part whose launch belongs to a region without the privilege. -/
def plainPart (f : Group → Group) : State :=
  { base with sched := { stageSched with
      groups := [f stageGroup], launches := [{ stageLaunch with region := 1 }],
      ctxs := [{ stageContext with regions := [stageRegion, { stageRegion with id := 1, fdroot := false }] }] } }

/-- PrefetchAndFlush, pfetch and the traps of llcflush. -/
theorem met_prefetch_and_traps : ((Instr.pfetch 1 9 (some 0)).WellFormed ∧ Ready base (iss base) (.pfetch 1 9 (some 0)) ∧
      L2Room base (iss base) (iss base).elems.length) ∧
    (Ready (plainPart id) (iss (plainPart id)) (.llcflush 10 9) ∧ (iss (plainPart id)).privileged = false ∧
      HandlerFree (plainPart id) (iss (plainPart id)) 0x02 0x20000) ∧
    (let s := flushPart 0 (2 ^ 40 + 1) id
     Ready s (iss s) (.llcflush 10 9) ∧ (iss s).privileged = true ∧ 2 ^ 40 < ((iss s).g.s 10).toNat ∧ HandlerFree s (iss s) 0x02 0x20000) ∧
    (let s := flushPart (2 ^ 57) (2 ^ 40) id
     Ready s (iss s) (.llcflush 10 9) ∧ (iss s).privileged = true ∧ ((iss s).g.s 10).toNat ≤ 2 ^ 40 ∧ 2 ^ 57 ≤ ((iss s).g.s 9).toNat ∧
       HandlerFree s (iss s) 0x08 0x20000) :=
  ⟨⟨by decide, ready (by decide +kernel), by unfold L2Room; decide +kernel⟩, ⟨ready (by decide +kernel), by decide +kernel, handlerFree (by decide +kernel)⟩,
    ⟨ready (by decide +kernel), by decide +kernel, by decide +kernel, handlerFree (by decide +kernel)⟩,
    ⟨ready (by decide +kernel), by decide +kernel, by decide +kernel, by decide +kernel, handlerFree (by decide +kernel)⟩⟩

/-- PrefetchAndFlush: llcflush of no line, of the dirty one, again after its write-back, and the write-back. -/
theorem met_flush : (let s := flushPart (2 ^ 57 - 1) 0 id
     Ready s (iss s) (.llcflush 10 9) ∧ (iss s).privileged = true ∧ ((iss s).g.s 9).toNat < 2 ^ 57 ∧ (iss s).waiting = false ∧ ((iss s).g.s 10).toNat = 0) ∧
    (let s := flushPart 0x1000 128 id
     Ready s (iss s) (.llcflush 10 9) ∧ (iss s).privileged = true ∧ (iss s).waiting = false ∧ ((iss s).g.s 10).toNat = 128 ∧
       s.dirtyIn (iss s).l.ctx 0x1000 0x1080 = [32] ∧ ∀ w ∈ s.rangeWalks (iss s).l.ctx 0x1000 0x1080, w.held? = none) ∧
    (let s := flushPart 0x1000 128 (fun g => { g with st := .wait .fence, prevSt := .running })
     Ready s (iss s) (.llcflush 10 9) ∧ (iss s).privileged = true ∧ (iss s).waiting = true ∧ (iss s).g.flush = []) ∧
    (let s := flushPart 0x1000 128 (fun g => { g with st := .wait .fence, prevSt := .running, flush := [32] })
     s.mgmt.devState ≠ .fatal ∧ ∃ g, s.group? 0 0 = some g ∧ g.flush ≠ []) :=
  ⟨⟨ready (by decide +kernel), by decide +kernel, by decide +kernel, by decide +kernel, by decide +kernel⟩,
    ⟨ready (by decide +kernel), by decide +kernel, by decide +kernel, by decide +kernel, by decide +kernel, by decide +kernel⟩,
    ⟨ready (by decide +kernel), by decide +kernel, by decide +kernel, by decide +kernel⟩,
    by decide +kernel, _, of_isSome stageGroup (by decide +kernel), by decide +kernel⟩

/-! ## Barrier objects -/

/-- A part with a barrier object at offset 4064, the last of its run, s9 that offset, s10 a word; its group in WAIT for it or not. -/
def barPart (b : Bar) (word : Nat) (wait : Option Bool) : State :=
  partM (fun g => { ((g.setS 9 4064).setS 10 (BitVec.ofNat 64 word)) with
      st := if wait.isSome then .wait (.bar 4064 (word % 65536)) else .running, prevSt := .running, released := wait.getD false })
    (fun m => { m with barriers := [(0, 4064)], sram := [(0, Memory.writeN [] 4064 b.bytes)] })

/-- An object that expects 2 arrivals in phase 5. -/
def aBar : Bar := ⟨2, 1, 0, 5, 0, 0, 1, 0⟩

/-- What the barrier instructions need of an object, as a Bool. -/
def barB (s : State) (i : Instr) (b : Bar) : Bool :=
  readyB s i && decide (((iss s).g.s 9).toNat = 4064 ∧ (iss s).u.scratch = some (0, 4096) ∧ s.bar? 0 4064 = some b) &&
    (s.unadmitted (iss s).l.ctx (iss s).g.unit (iss s).g.wg 0 4064).isNone

/-- Barriers: binit in a free place; barr for the current and the next phase; bexp for both, at the greatest count. -/
theorem met_barriers_arrive : (let s := part (fun g => (g.setS 9 4064).setS 10 1)
     Ready s (iss s) (.binit 9 10) ∧ InObject (iss s) 9 ∧ ((iss s).g.s 10).toNat % 2 ^ 16 ≠ 0 ∧ (iss s).g.drained = true ∧ s.bar? 0 4064 = none) ∧
    (∀ q, q = 5 ∨ q = 6 → barB (barPart aBar q none) (.barr 4 9 10) aBar = true ∧ MayRelease (iss (barPart aBar q none)) 4 ∧ Bar.ok aBar ∧
      ((iss (barPart aBar q none)).g.s 10).toNat % 2 ^ 16 = q ∧ aBar.arr0 < aBar.expect ∧ aBar.arr1 < aBar.expect) ∧
    ∀ q, q = 5 ∨ q = 6 → barB (barPart aBar (q * 2 ^ 32 + (2 ^ 31 - 1)) none) (.bexp 9 10) aBar = true ∧
      aBar.pend0 + (2 ^ 31 - 1 : Nat) < 2 ^ 31 ∧ aBar.pend1 + (2 ^ 31 - 1 : Nat) < 2 ^ 31 := by
  refine ⟨⟨ready (by decide +kernel), ⟨by decide +kernel, 0, 4096, by decide +kernel, by decide +kernel, by decide +kernel⟩, by decide +kernel,
    by decide +kernel, by decide +kernel⟩, ?_, ?_⟩
  · intro q h
    rcases h with rfl | rfl <;>
      exact ⟨by decide +kernel, ⟨by decide +kernel, by decide +kernel, by decide +kernel, by decide +kernel⟩, ⟨by decide, by decide⟩, by decide +kernel, by decide, by decide⟩
  · intro q h
    rcases h with rfl | rfl <;> decide +kernel

/-- Barriers: bwait passes at distances 1 and 2^15, waits at 0 and 2^16 - 1, traps at 2^15 + 1, goes on once released; btest at those distances. -/
theorem met_barriers_wait : (∀ q ∈ [4, (5 + 2 ^ 15) % 2 ^ 16, 5, 6, (5 + 2 ^ 15 - 1) % 2 ^ 16],
      barB (barPart aBar q none) (.bwait 4 9 10) aBar = true ∧ (iss (barPart aBar q none)).waiting = false ∧
        (iss (barPart aBar q none)).g.watching .pending = false ∧ (iss (barPart aBar q none)).g.acquireWaits 4 = false ∧
        handlerB (barPart aBar q none) 0x10 0x20000 = true ∧ barB (barPart aBar q none) (.btest 8 9 10) aBar = true) ∧
    aBar.waiters < 2 ^ 16 - 1 ∧
    (let s := barPart aBar 5 (some true)
     barB s (.bwait 4 9 10) aBar = true ∧ (iss s).waiting = true ∧ (iss s).g.released = true ∧ (iss s).g.watching .pending = false ∧
       (iss s).g.acquireWaits 4 = false) := ⟨by decide +kernel, by decide, by decide +kernel⟩

/-- Barriers: binval of an object without waiters; a count for a live and for a dead run. -/
theorem met_barriers_end : barB (barPart { aBar with waiters := 0 } 0 none) (.binval 9) { aBar with waiters := 0 } = true ∧
    ∀ gen, gen = 0 ∨ gen = 1 → let s := { barPart { aBar with pend0 := -(2 ^ 31) + 4 } 0 none with
        eng := { Engines.reset with counts := [⟨0, none, ⟨0, 4064, 5, gen⟩, 4⟩] } }
      s.mgmt.devState ≠ .fatal ∧ s.eng.counts[0]? = some ⟨0, none, ⟨0, 4064, 5, gen⟩, 4⟩ ∧ s.barLive ⟨0, 4064, 5, gen⟩ = (gen == 0) ∧
        s.bar? 0 4064 = some { aBar with pend0 := -(2 ^ 31) + 4 } ∧ -(2 ^ 31) ≤ (-(2 ^ 31) + 4 : Int) - (4 : Nat) := by
  refine ⟨by decide +kernel, ?_⟩
  intro gen h
  rcases h with rfl | rfl <;> decide +kernel

end Sys2Proof.Tests
end

