-- ==== Sys2Proof/Tests/Collectives.lean ====
section
/-! SUPPORT. Witnesses of the statements about translation instructions and collectives. -/

namespace Sys2Proof.Tests

open Sys2Proof.Machine Sys2Proof.Claims

set_option maxRecDepth 100000
set_option Elab.async false

/-! ## Translation instructions -/

/-- A part with s9 an address, s10 a control word, pages of every kind and its group changed further. -/
def xlatePart (va ctl : Nat) (f : Group → Group) : State :=
  net (fun g => f ((g.setS 9 (BitVec.ofNat 64 va)).setS 10 (BitVec.ofNat 64 ctl)))

/-- The same without the privilege. -/
def plainXlatePart (va ctl : Nat) : State := plainPart (fun g => (g.setS 9 (BitVec.ofNat 64 va)).setS 10 (BitVec.ofNat 64 ctl))

/-- TranslationInstructions, xlate: a status word of a page that permits the access, of one that is absent and of a non-canonical address; a
physical address; the trap without the privilege. -/
theorem met_xlate : (∀ va, va = 0x600000 ∨ va = 0x800000 ∨ va = 2 ^ 57 → Ready (xlatePart va 0 id) (iss (xlatePart va 0 id)) (.xlate 8 9 10) ∧
      ((iss (xlatePart va 0 id)).g.s 10).getLsbD 2 = false ∧
      ((xlatePart va 0 id).translate (some 0) 0 (iss (xlatePart va 0 id)).l.ctx ((iss (xlatePart va 0 id)).g.s 9).toNat).held? = none) ∧
    (Ready (xlatePart 0x1FFFFF 7 id) (iss (xlatePart 0x1FFFFF 7 id)) (.xlate 8 9 10) ∧ ((iss (xlatePart 0x1FFFFF 7 id)).g.s 10).getLsbD 2 = true ∧
      (iss (xlatePart 0x1FFFFF 7 id)).privileged = true ∧
      ((xlatePart 0x1FFFFF 7 id).translate (some 0) 0 (iss (xlatePart 0x1FFFFF 7 id)).l.ctx ((iss (xlatePart 0x1FFFFF 7 id)).g.s 9).toNat).held? = none) ∧
    (let s := plainXlatePart 0 4
     Ready s (iss s) (.xlate 8 9 10) ∧ ((iss s).g.s 10).getLsbD 2 = true ∧ (iss s).privileged = false ∧ HandlerFree s (iss s) 0x02 0x20000 ∧
       Ready s (iss s) (.tlbinv 8 9 10)) := by
  refine ⟨?_, ⟨ready (by decide +kernel), by decide +kernel, by decide +kernel⟩, ready (by decide +kernel), by decide +kernel, by decide +kernel,
    handlerFree (by decide +kernel), ready (by decide +kernel)⟩
  intro va h
  rcases h with rfl | rfl | rfl <;> exact ⟨ready (by decide +kernel), by decide +kernel⟩

/-- The same part, with a second group beside it that may have a load under way. -/
def invPart (va ctl : Nat) (loading : Bool) : State :=
  let s := xlatePart va ctl id
  { s with sched := { s.sched with groups := s.sched.groups ++ [{ stageGroup with gi := 1, slot := 31, seq := 1, loads :=
      if loading then [⟨0, 20, false, 0, [⟨0, 0, .dev 0, 4, true, .zext, none⟩]⟩] else [] }] } }

/-- What tlbinv of mode 0 asks of its range, as a Bool. -/
def rangeB (s : State) (lo hi : Nat) : Bool :=
  decide (((iss s).g.s 10).toNat % 4 = 0 ∧ ((iss s).g.s 10).toNat / 4 % 16 ≤ 11 ∧ ((iss s).g.s 9).toNat < 2 ^ 57 ∧
    lo = ((iss s).g.s 9).toNat / 2 ^ sizeLog (((iss s).g.s 10).toNat / 4 % 16) * 2 ^ sizeLog (((iss s).g.s 10).toNat / 4 % 16) ∧
    hi = lo + 2 ^ sizeLog (((iss s).g.s 10).toNat / 4 % 16))

/-- What tlbinv of mode 1 asks of its range, as a Bool. -/
def allB (s : State) (lo hi : Nat) : Bool :=
  decide (((iss s).g.s 10).toNat % 4 = 1 ∧ lo = 0) && s.heldLeaves.all (fun l => decide (l.base < hi))

/-- A part in which nothing of the context is under way. -/
theorem quiet {s : State} {ctx : Nat} (h : (∀ g ∈ s.sched.groups, s.anyCtx g = some ctx → g.drained = true ∧ g.sent = []) ∧
    s.eng.ceCmds = [] ∧ s.eng.feCmds = []) : QuietCtx s ctx :=
  ⟨h.1, fun _ m => absurd (h.2.1 ▸ m) (List.not_mem_nil), fun _ m => absurd (h.2.2 ▸ m) (List.not_mem_nil)⟩

/-- TranslationInstructions, tlbinv: the largest aligned range and everything, with all accesses performed and with a load under way; the second part. -/
theorem met_tlbinv : (∀ t ∈ [((0x600123 : Nat), (11 * 4 : Nat), false, (0 : Nat), (2 ^ 32 : Nat)),
        (2 ^ 57 - 1, 0, true, 2 ^ 57 - 4096, 2 ^ 57), (0, 1, false, 0, 0x600001), (0, 1, true, 0, 0x600001)],
      let s := invPart t.1 t.2.1 t.2.2.1
      readyB s (.tlbinv 8 9 10) = true ∧ (iss s).privileged = true ∧ mayReleaseB s 6 = true ∧ ((iss s).waiting && (iss s).g.released) = false ∧
      (rangeB s t.2.2.2.1 t.2.2.2.2 || allB s t.2.2.2.1 t.2.2.2.2) = true ∧ ((iss s).released 6).st.flushGate = none) ∧
    QuietCtx (invPart 0 1 false) (iss (invPart 0 1 false)).l.ctx ∧
    (∃ g ∈ (invPart 0 1 true).sched.groups, (invPart 0 1 true).anyCtx g = some (iss (invPart 0 1 true)).l.ctx ∧ g.drained = false) ∧
    (let s := xlatePart 0 1 (fun g => { g with st := .wait .fence, prevSt := .running, released := true })
     Ready s (iss s) (.tlbinv 8 9 10) ∧ (iss s).privileged = true ∧ (iss s).waiting = true ∧ (iss s).g.released = true ∧
       QuietCtx s (iss s).l.ctx ∧ s.flushGate = none) :=
  ⟨by decide +kernel, quiet (by decide +kernel), by decide +kernel, ready (by decide +kernel), by decide +kernel, by decide +kernel, by decide +kernel,
    quiet (by decide +kernel), Option.isNone_iff_eq_none.mp (by decide +kernel)⟩

/-- A part with a PENDING entry 511 of base die 1, generation 3, at which a second group waits. -/
def tokenPart (token ctl : Nat) : State :=
  let s := xlatePart token ctl id
  { s with ms := { s.ms with pfes := [{ base := 1, index := 511, gen := 3, pending := true, ctx := 0, page := 0x800 }] },
           sched := { s.sched with groups := s.sched.groups ++ [{ stageGroup with gi := 1, slot := 31, st := .faultWait 1 (some 511), prevSt := .running }] } }

/-- Its token. -/
def aToken : Nat := 3 * 1024 + 1 * 512 + 511

/-- TranslationInstructions, resolutions: RETRY and FAIL of that entry, a token of an older generation. -/
theorem met_resolve : (∀ t ∈ [((aToken : Nat), (2 : Nat)), (aToken, 3), (aToken - 1024, 2)], let s := tokenPart t.1 t.2
      readyB s (.tlbinv 8 9 10) = true ∧ (iss s).privileged = true ∧ mayReleaseB s 6 = true ∧ ((iss s).waiting && (iss s).g.released) = false ∧
        2 ≤ ((iss s).g.s 10).toNat % 4 ∧ s.failWaits (s.pfe 1 511) = false) ∧
    (let s := tokenPart aToken 2
     let p := s.pfe (((iss s).g.s 9).toNat / 512 % 2) (((iss s).g.s 9).toNat % 512)
     p.pending = true ∧ p.gen = ((iss s).g.s 9).toNat / 1024 ∧ p.ctx = (iss s).l.ctx ∧ p.base = ((iss s).g.s 9).toNat / 512 % 2 ∧
       p.index = ((iss s).g.s 9).toNat % 512 ∧ s.drydown (iss s).l.ctx = false ∧ ∃ h, s.group? 0 31 = some h ∧ h.core = 0 ∧ h.slot = 31 ∧
       h.st = .faultWait p.base (some p.index) ∧ h.saved = none ∧ (s.launchOf h).map (·.ctx) = some (iss s).l.ctx) ∧
    (let s := tokenPart (aToken - 1024) 2
     (s.pfe (((iss s).g.s 9).toNat / 512 % 2) (((iss s).g.s 9).toNat % 512)).gen ≠ ((iss s).g.s 9).toNat / 1024) :=
  ⟨by decide +kernel, ⟨by decide +kernel, by decide +kernel, by decide +kernel, by decide +kernel, by decide +kernel, by decide +kernel, _,
    of_isSome stageGroup (by decide +kernel), by decide +kernel, by decide +kernel, by decide +kernel, by decide +kernel, by decide +kernel⟩,
    by decide +kernel⟩

/-! ## Collectives -/

/-- A descriptor of FADD_F32 over one element: flag at 0x1200, result at `dst`, ring at 0x1100, ring positions, REARM. -/
def aDesc (dst nrank myrank : Nat) (rearm : Bool) : CttDesc :=
  { src := 0x1000, flag := 0x1200, dst := dst, bar := 0, count := 1, phase := 0, op := 0, type := 8, dspace := false, nobar := true, rearm := rearm,
    xin := false, xout := false, gid := 7, nrank := nrank, myrank := myrank, mpr := 1, k := 0, obs := 0, fireVal := 0, pstride := 0 }

/-- Its bytes (R404), with a flag of its own. -/
def descBytes (flag nrank fault : Nat) : List Byte :=
  leBytes 8 0x1000 ++ leBytes 8 flag ++ leBytes 8 0x1300 ++ leBytes 8 0 ++ leBytes 8 (1 + 8 * 2 ^ 52 + 2 ^ 57) ++ leBytes 8 (7 + nrank * 2 ^ 32) ++
    leBytes 8 0x1100 ++ leBytes 8 (1 + fault) ++ List.replicate 64 0

/-- An entry. -/
def aCtt (ctx : Nat) (st : CttState) (d : CttDesc) (ring : List Nat) (ready started : Bool) : CttEntry :=
  { index := 4095, ctx := ctx, region := 0, launch := 0, record := 0x9000, cluster := 0, core := 0, st := st, err := 0, gen := 9, desc := d,
    ring := ring, barGen := none, dstGen := none, fireVal := d.fireVal, readySucc := ready, started := started, results := [], sent := [],
    delivered := [], delivBytes := 0, pausedOn := none, failed := false }

/-- A part with these entries, s9 and s10, the bytes of a descriptor at 0x1000 and a ring list at 0x1100. -/
def cttPart (es : List CttEntry) (x y : Nat) (desc ring : List Byte) : State :=
  let s := xlatePart x y id
  { s with eng := { s.eng with ctt := es, nextCmd := 20 }, ms := { s.ms with mem := (s.ms.mem.writeN 0x1000 desc).writeN 0x1100 ring } }

/-- Reads as a Bool. -/
def readsB (k : Iss) (va n : Nat) (bs : List Byte) : Bool :=
  isOk (k.placeRows .read 0 [(va, n)]) && (rows k va n).flatten.all (fun p => (match p.place with
    | .dev _ => true
    | .peer _ _ => false
    | .host _ _ => false) && decide (k.g.mayRead k.g.seq p.place p.width = true) && (k.st.placeGate p.place p.width).isNone &&
      !k.st.poisonAt p.place p.width) && bs == k.st.readChunks k.g k.g.seq ((rows k va n).flatten.map Placed.chunk)
where
  rows (k : Iss) (va n : Nat) : List (List Placed) := okOr [] (k.placeRows .read 0 [(va, n)])

theorem reads {k : Iss} {va n : Nat} {bs : List Byte} (h : readsB k va n bs = true) : Reads k va n (readsB.rows k va n) bs := by
  simp only [readsB, Bool.and_eq_true, List.all_eq_true, beq_iff_eq, Bool.not_eq_true', decide_eq_true_eq] at h
  refine ⟨of_isOk [] h.1.1, fun p hp => ?_, fun p hp => (h.1.2 p hp).1.1.2, fun p hp => Option.isNone_iff_eq_none.mp (h.1.2 p hp).1.2,
    fun p hp => (h.1.2 p hp).2, h.2⟩
  have := (h.1.2 p hp).1.1.1
  revert this
  cases p.place with
  | dev pa => exact fun _ => ⟨pa, rfl⟩
  | peer i a => exact fun e => by cases e
  | host i a => exact fun e => by cases e

/-- What ctarm has read of the descriptor. -/
def armAfter (s : State) : Iss := readAfter ((iss s).released 6) 0x1000 (readsB.rows ((iss s).released 6) 0x1000 128)

/-- What ctarm asks for, as a Bool. -/
def armB (s : State) (desc : List Byte) : Bool :=
  readyB s (.ctarm 8 9 10) && mayReleaseB s 6 &&
    decide (((iss s).g.s 9).toNat < 4096 ∧ ((iss s).g.s 10).toNat = 0x1000) && readsB ((iss s).released 6) 0x1000 128 desc

theorem arm_premises {s : State} {desc : List Byte} (h : armB s desc = true) : Ready s (iss s) (.ctarm 8 9 10) ∧ MayRelease (iss s) 6 ∧
    ((iss s).g.s 9).toNat < 4096 ∧ ((iss s).g.s 10).toNat % 128 = 0 ∧
    Reads ((iss s).released 6) ((iss s).g.s 10).toNat 128 (readsB.rows ((iss s).released 6) 0x1000 128) desc := by
  simp only [armB, Bool.and_eq_true, decide_eq_true_eq] at h
  obtain ⟨⟨⟨a1, a2⟩, a5, a6⟩, a7⟩ := h
  exact ⟨ready a1, mayRelease a2, a5, by omega, by rw [a6]; exact reads a7⟩

/-- CollectiveInstructions, ctarm: an entry of another context, a fired one, an invalid descriptor, a flag on a peer's page. -/
theorem met_ctarm_refuses : (∀ c st, (c, st) = ((1 : Nat), CttState.armed) ∨ (c, st) = (0, .fired) →
      let s := cttPart [aCtt c st (aDesc 0x1300 1 0 false) [0] false false] 4095 0x1000 (descBytes 0x1200 1 0) [0]
      armB s (descBytes 0x1200 1 0) = true ∧ ∃ e, s.ctt? ((iss s).g.s 9).toNat = some e ∧ (e.ctx ≠ (iss s).l.ctx ∨ e.st = .fired)) ∧
    (let s := cttPart [] 4095 0x1000 (descBytes 0x1200 1 (2 ^ 32)) []
     armB s (descBytes 0x1200 1 (2 ^ 32)) = true ∧ s.ctt? 4095 = none ∧ cttValid (descBytes 0x1200 1 (2 ^ 32)) = false) ∧
    (let s := cttPart [] 4095 0x1000 (descBytes 0x200000 1 0) []
     armB s (descBytes 0x200000 1 0) = true ∧ s.ctt? 4095 = none ∧ cttValid (descBytes 0x200000 1 0) = true ∧
       isOk ((armAfter s).placeRows .read 0 [(0x200000, 8)]) = true ∧
       ∃ p ∈ (readsB.rows (armAfter s) 0x200000 8).flatten, p.leaf.cls ≠ 0) := by
  refine ⟨?_, by decide +kernel, by decide +kernel⟩
  intro c st h
  rcases h with h | h <;> cases h <;>
    exact ⟨by decide +kernel, _, of_isSome (aCtt 0 .armed (aDesc 0 1 0 false) [] false false) (by decide +kernel), by decide +kernel⟩

/-- CollectiveInstructions, ctarm: a ring list without this device, and arming over a FAILED entry. -/
theorem met_ctarm_rings : ∀ ring bad, (ring, bad) = (([1, 5] : List Byte), true) ∨ (ring, bad) = ([0, 5], false) →
    let d := descBytes 0x1200 2 0
    let s := cttPart [aCtt 0 .failed (aDesc 0x1300 1 0 false) [0] false false] 4095 0x1000 d ring
    let k := armAfter s
    armB s d = true ∧ (∃ e, s.ctt? ((iss s).g.s 9).toNat = some e ∧ e.ctx = (iss s).l.ctx ∧ e.st ≠ .fired) ∧ cttValid d = true ∧
      isOk (k.placeRows .read 0 [((cttDescOf d).flag, 8)]) = true ∧
      (∀ p ∈ (readsB.rows k (cttDescOf d).flag 8).flatten, p.leaf.cls = 0 ∧ p.leaf.format = false) ∧
      readsB { k with st := k.fillAll k.st [(cttDescOf d).flag] } (cttRingOf d) (cttDescOf d).nrank ring = true ∧
      (decide ((ring.map (·.toNat))[(cttDescOf d).myrank]? ≠ some s.fab.devId) = bad) ∧ (ring.map (·.toNat)).Nodup ∧
      ∀ i ∈ ring.map (·.toNat), i ≠ s.fab.devId → bad = false → lookupD 0 s.fab.routes i ≠ 0 := by
  intro ring bad h
  rcases h with h | h <;> cases h <;>
    exact ⟨by decide +kernel, ⟨_, of_isSome (aCtt 0 .armed (aDesc 0 1 0 false) [] false false) (by decide +kernel), by decide +kernel⟩,
      by decide +kernel, by decide +kernel, by decide +kernel, by decide +kernel, by decide +kernel, by decide +kernel, by decide +kernel⟩

/-- CollectiveInstructions: the trap of ctarm, ctdisarm of an own entry, of another context's and of a FREE one. -/
theorem met_ctarm_trap_and_ctdisarm : (let s := cttPart [] 4096 0 [] []
     Ready s (iss s) (.ctarm 8 9 10) ∧ 4096 ≤ ((iss s).g.s 9).toNat ∧ HandlerFree s (iss s) 0x02 0x20000) ∧
    (∀ es, es = [] ∨ es = [aCtt 0 .fired (aDesc 0x1300 1 0 false) [0] false false] ∨ es = [aCtt 1 .fired (aDesc 0x1300 1 0 false) [0] false false] →
      Ready (cttPart es 4095 0 [] []) (iss (cttPart es 4095 0 [] [])) (.ctdisarm 8 9)) ∧
    (let s := cttPart [aCtt 1 .fired (aDesc 0x1300 1 0 false) [0] false false] 4095 0 [] []
     (s.ctt? ((iss s).g.s 9).toNat).map (·.ctx) = some 1 ∧ (iss s).l.ctx = 0) := by
  refine ⟨⟨ready (by decide +kernel), by decide +kernel, handlerFree (by decide +kernel)⟩, ?_, by decide +kernel⟩
  intro es h
  rcases h with rfl | rfl | rfl <;> exact ready (by decide +kernel)

/-- CollectiveInstructions, ctquery: no entry, one of another context, one that is armed, one that is DONE with and without an earlier access
under way; links, routes, the reserved selector. -/
theorem met_ctquery : (∀ t ∈ [(([] : List CttEntry), (4095 : Nat), (0 : Nat)), ([aCtt 1 .done (aDesc 0 1 0 false) [0] false false], 4095, 0),
        ([aCtt 0 .armed (aDesc 0 1 0 false) [0] false false], 4095, 0), ([aCtt 0 .done (aDesc 0 1 0 false) [0] false false], 4095, 0),
        ([], 0x301, 1), ([], 5, 2), ([], 255, 2), ([], 0, 3)], readyB (cttPart t.1 t.2.1 t.2.2 [] []) (.ctquery 8 9 10) = true) ∧
    (let s := cttPart [aCtt 0 .done (aDesc 0 1 0 false) [0] false false] 4095 0 [] []
     (s.ctt? ((iss s).g.s 9).toNat).map (fun e => (e.ctx, e.st)) = some (0, .done) ∧ (iss s).g.watching .pending = false ∧ (iss s).g.acquireWaits 6 = false) ∧
    (let s := { cttPart [aCtt 0 .done (aDesc 0 1 0 false) [0] false false] 4095 0 [] [] with
       sched := { stageSched with groups := [{ (stageGroup.setS 9 4095) with seq := 1, loads :=
         [⟨0, 20, false, 0, [⟨0, 0, .dev 0, 4, true, .zext, none⟩]⟩] }] } }
     Ready s (iss s) (.ctquery 8 9 10) ∧ (s.ctt? ((iss s).g.s 9).toNat).isSome = true ∧ ((iss s).g.s 10).toNat % 4 = 0 ∧ (iss s).g.acquireWaits 6 = true) ∧
    ((cttPart [] 0x301 1 [] []).fab.links.find? (fun m => m.id == 0x301)).isSome = true ∧
    lookupD 0 (cttPart [] 255 2 [] []).fab.routes 255 = 0 ∧ HandlerFree (cttPart [] 0 3 [] []) (iss (cttPart [] 0 3 [] [])) 0x02 0x20000 :=
  ⟨by decide +kernel, by decide +kernel, ⟨ready (by decide +kernel), by decide +kernel⟩, by decide +kernel, by decide +kernel, handlerFree (by decide +kernel)⟩

/-- A part with one entry. -/
def oneCtt (e : CttEntry) : State := cttPart [e] 0 0 [] []

/-- CollectiveEvents, firing: an entry of two ranks and one that is alone and reads at once. -/
theorem met_ctt_fire : (∀ n, n = 1 ∨ n = 2 → let e := aCtt 0 .armed (aDesc 0x1300 n 0 false) [0, 5] false false
     let s := oneCtt e
     s.mgmt.devState ≠ .fatal ∧ s.ctt? 4095 = some e ∧ e.st = .armed ∧
       (s.translate none (dieOfCluster e.cluster) e.ctx e.desc.flag).access .read e.desc.flag = .ok 0x1200 stageLeaf ∧
       stageLeaf.place 0x1200 = .dev 0x1200 ∧ s.placeGate (.dev 0x1200) 8 = none ∧ s.anyPoison 0x1200 8 = false ∧ s.devLE 0x1200 8 = e.fireVal ∧
       e.alone = (n == 1) ∧ e.readySucc = false) ∧
    (let f := aCtt 0 .fired (aDesc 0x1300 1 0 false) [0, 5] false false
     let s := oneCtt { f with st := .armed }
     s.cttRuns f = true ∧ f.started = false ∧ f.sent = [] ∧ isOk ((s.putCtt f).cttReads f f.firstNeeds) = true ∧ f.firstNeeds = [(0x1000, 4)]) := by
  refine ⟨?_, by decide +kernel⟩
  intro n h
  rcases h with rfl | rfl <;> decide +kernel

/-- CollectiveEvents, READY: that of an armed entry, and a differing one of a fired entry. -/
theorem met_ctt_ready : let d := aDesc 0x1300 2 0 false
    (let e := aCtt 0 .armed d [0, 5] false false
     (oneCtt e).mgmt.devState ≠ .fatal ∧ (oneCtt e).ctt? 4095 = some e ∧ e.alone = false ∧ e.readySucc = false ∧ e.ready.gid = e.desc.gid ∧
       (oneCtt e).neighbourOpen e.succ = true) ∧
    (let e := aCtt 0 .fired d [0, 5] false false
     (oneCtt e).ctt? 4095 = some e ∧ (oneCtt e).neighbourOpen e.succ = true ∧ { e.ready with count := 2 } ≠ e.ready) := by decide +kernel

/-- CollectiveEvents, data: a partial result at the rank that completes the element, a final one at the other rank, a malformed sum. -/
theorem met_ctt_data : (let e := aCtt 0 .fired (aDesc 0x1300 2 0 false) [0, 5] true true
     let s := oneCtt e
     s.mgmt.devState ≠ .fatal ∧ s.ctt? 4095 = some e ∧ e.alone = false ∧ s.cttRuns e = true ∧ s.neighbourOpen e.pred = true ∧
       e.due 0 false = true ∧ e.desc.accept false (.value 7) = .ok (.value 7) ∧ isOk (s.cttReads e (e.needs 0)) = true) ∧
    (let e := aCtt 0 .fired (aDesc 0x1300 2 1 false) [5, 0] true true
     let s := oneCtt e
     s.ctt? 4095 = some e ∧ e.alone = false ∧ s.cttRuns e = true ∧ s.neighbourOpen e.pred = true ∧ e.due 0 true = true ∧
       e.desc.accept true (.value 7) = .ok (.value 7)) ∧
    (let e := aCtt 0 .fired { aDesc 0x1300 2 0 false with op := 2, type := 9 } [0, 5] true true
     let s := oneCtt e
     s.ctt? 4095 = some e ∧ s.cttRuns e = true ∧ s.neighbourOpen e.pred = true ∧ e.due 0 false = true ∧
       e.desc.accept false (.exact [1]) = .malformed) ∧ (0 < 2 ∧ 1 < 2) :=
  ⟨⟨by decide +kernel, by decide +kernel, by decide +kernel, by decide +kernel, by decide +kernel, by decide +kernel, rfl, by decide +kernel⟩,
    ⟨by decide +kernel, by decide +kernel, by decide +kernel, by decide +kernel, by decide +kernel, rfl⟩,
    ⟨by decide +kernel, by decide +kernel, by decide +kernel, by decide +kernel, rfl⟩, by decide⟩

/-- CollectiveEvents, results: a unit with and without a barrier; the last count's arrival, with and without REARM. -/
theorem met_ctt_results : (∀ nobar, nobar = true ∨ nobar = false →
      let e := { aCtt 0 .fired { aDesc 0x1300 1 0 false with nobar := nobar } [0] false true with
        results := [(0, .value 7)], barGen := if nobar then none else some 0 }
      let s := oneCtt e
      s.mgmt.devState ≠ .fatal ∧ s.cttUnit 4095 0 = some (e, [7, 0, 0, 0]) ∧ ∃ ps, s.cttSide e 0 4 = .ok (.mem ps) ∧ s.way [] ps 4 = .go) ∧
    ∀ rearm, rearm = true ∨ rearm = false →
      let e := { aCtt 0 .fired (aDesc 0x1300 1 0 rearm) [0] false true with results := [(0, .value 7)], delivered := [0] }
      let s := oneCtt e
      s.ctt? 4095 = some e ∧ e.delivered.length = e.desc.units ∧ (∀ m ∈ s.eng.counts, m.src ≠ e.gen) ∧ s.cttUnit 4095 0 = none ∧ e.desc.rearm = rearm := by
  refine ⟨?_, ?_⟩
  · intro nobar h
    rcases h with rfl | rfl <;> exact ⟨by decide +kernel, by decide +kernel, [.dev 0x1300], rfl, rfl⟩
  · intro rearm h
    rcases h with rfl | rfl <;> decide +kernel

/-- CollectiveEvents, failures: ABORT; a lost route; a resolution FAIL; translations that fail for good and that are absent. -/
theorem met_ctt_failures : (let e := aCtt 0 .fired (aDesc 0x1300 2 0 false) [0, 5] true true
     (oneCtt e).mgmt.devState ≠ .fatal ∧ (oneCtt e).ctt? 4095 = some e ∧ e.alone = false) ∧
    (let e := aCtt 0 .fired (aDesc 0x1300 2 0 false) [0, 6] true true
     (oneCtt e).ctt? 4095 = some e ∧ (oneCtt e).routePort e.pred 0 = none) ∧
    (let e := { aCtt 0 .fired (aDesc 0x1300 2 0 false) [0, 5] true true with failed := true }
     (oneCtt e).ctt? 4095 = some e ∧ e.failed = true) ∧
    ∀ a, a = 0x800000 ∨ a = 2 ^ 57 → let e := aCtt 0 .fired { aDesc 0x1300 1 0 false with src := a } [0] false false
      let s := oneCtt e
      s.ctt? 4095 = some e ∧ e.failed = false ∧ e.pausedOn = none ∧ e.alone = true ∧
        ((s.cttMiss e a).map (fun x => decide (x.1 = .absent))) = some (a == 0x800000) ∧ (s.pfe (baseOfDie (dieOfCluster e.cluster)) 511).pending = false := by
  refine ⟨by decide +kernel, by decide +kernel, by decide +kernel, ?_⟩
  intro a h
  rcases h with rfl | rfl <;> decide +kernel

end Sys2Proof.Tests
end

