-- ==== Sys2Proof/Tests/Contexts.lean ====
section
/-! SUPPORT. Witnesses of the statements about context commands, queues, the scheduler, fences and rounds. -/

namespace Sys2Proof.Tests

open Sys2Proof.Machine Sys2Proof.Claims

set_option maxRecDepth 100000
set_option Elab.async false

/-! ## Context commands -/

/-- Word 0 of a command with TAG 5 (R460). -/
def cmdWord (op ctx id size mode : Nat) : Word64 := BitVec.ofNat 64 (op + ctx * 2 ^ 8 + id * 2 ^ 16 + size * 2 ^ 26 + mode * 2 ^ 30 + 5 * 2 ^ 32)

/-- A command of port 0. -/
def aCmd (op ctx id size mode w1 : Nat) : Cmd := ⟨0, cmdWord op ctx id size mode, BitVec.ofNat 64 w1⟩

/-- The page tables of `tables` as cells. -/
def tableCells : Memory := [(0x100000, 1), (0x100003, 2), (0x100004, 1), (0x102000, 1), (0x102003, 4), (0x102004, 1), (0x104000, 1), (0x104003, 6), (0x104004, 1), (0x106000, 31), (0x106001, 81)]

/-- A part with page tables, these contexts, no group, and one command at the head of the arbiter. -/
def cmdPart (cs : List Context) (k : Cmd) (m : Memory → Memory) : State :=
  { base with cur := none, sched := { Sched.reset with ctxs := cs }, ms := { MemSys.reset with mem := m tableCells },
              mgmt := { base.mgmt with cmds := [k] } }

/-- HeadIs as an evaluation. -/
theorem head {cs : List Context} {k : Cmd} {m : Memory → Memory} {op : Nat} (h : k.op = op) : HeadIs (cmdPart cs k m) op k := ⟨rfl, rfl, h⟩

/-- ContextCommands: a command that enters, a bad one, one that finds 64; every command that names a context that does not accept it. -/
theorem met_submit_and_bad_state : (∀ n word, (n, word) ∈ [((0 : Nat), cmdWord 1 0 0 0 0), (0, cmdWord 12 0 0 0 0), (64, cmdWord 1 0 0 0 0)] →
      let s := { base with mgmt := { base.mgmt with cmds := List.replicate n (aCmd 1 0 0 0 0 0) } }
      s.mgmt.devState = .ready ∧ (s.mgmt.ports.find? (fun q => q.id == 0)).isSome = true ∧ (s.mgmt.cmds.filter (fun k => k.port == 0)).length = n) ∧
    (⟨0, cmdWord 12 0 0 0 0, 0⟩ : Cmd).bad = true ∧ (⟨0, cmdWord 11 127 0 11 1, 0⟩ : Cmd).bad = false ∧
    (∀ i op, contextCommands i = some op → HeadIs (cmdPart [] (aCmd op 5 0 0 0 0) id) op (aCmd op 5 0 0 0 0) ∧
      ∀ x, (cmdPart [] (aCmd op 5 0 0 0 0) id).ctx? (aCmd op 5 0 0 0 0).ctx = some x → x.port ≠ 0 ∨ x.st = .draining) := by
  refine ⟨?_, by decide, by decide, ?_⟩
  · intro n word h
    simp only [List.mem_cons, Prod.mk.injEq, List.not_mem_nil, or_false] at h
    rcases h with ⟨rfl, rfl⟩ | ⟨rfl, rfl⟩ | ⟨rfl, rfl⟩ <;> decide +kernel
  · intro i op h
    cases i <;> first | (cases h; exact ⟨head (by decide), fun x hx => by cases hx⟩) | cases h

/-- A context descriptor (R81) at 0x1000: tables at 0x100000, HANGEXP 63, region table at 0x2000, save area, fault queue of 2^6. -/
def descriptor (save : Nat) : Memory := [(0x1002, 16), (0x1008, 240), (0x1009, 3), (0x1011, 32), (0x101a, 128)] ++ (if save = 0x10000 then [(0x1022, 1)] else [(0x1020, 255), (0x1021, 255)]) ++ [(0x102a, 1), (0x1030, 6), (0x103a, 3), (0x1042, 2)]

/-- A region control block (R87): VALID, FDROOT, a level and a parent, every budget at its largest. -/
def rcb (level parent : Nat) : List Byte :=
  leBytes 8 (3 + level * 2 ^ 5 + parent * 2 ^ 8) ++ leBytes 8 (256 + 131072 * 2 ^ 16 + 65536 * 2 ^ 34 + 4096 * 2 ^ 51) ++ List.replicate 48 0

/-- A part with a context 0, a descriptor at 0x1000 and region 0 at 0x2000, CREATE at the head of the arbiter. -/
def createPart (save : Nat) : State :=
  let s := cmdPart [stageContext] (aCmd 1 0 0 0 0 0x1000) id
  { s with ms := { s.ms with mem := descriptor save ++ [(0x2000, 3), (0x2009, 1), (0x200c, 2), (0x200e, 4), (0x200f, 128)] } }

/-- ContextCommands, CREATE: no free id, a bad descriptor, a context that is created as number 1. -/
theorem met_create : (∀ i, i < 128 → ((cmdPart ((List.range 128).map (fun i => { stageContext with id := i })) (aCmd 1 0 0 0 0 0x1000) id).ctx? i).isSome = true) ∧
    (∀ save, save = 0xFFFF ∨ save = 0x10000 → HeadIs (createPart save) 1 (aCmd 1 0 0 0 0 0x1000) ∧ (createPart save).ctx? 1 = none ∧
      (∀ j, j < 1 → ((createPart save).ctx? j).isSome = true) ∧ descriptorBad ((createPart save).devRead 0x1000 256) = (save == 0xFFFF)) ∧
    wordAt ((createPart 0x10000).devRead 0x1000 256) 2 = 0x2000 ∧ ((createPart 0x10000).loadRegions 0x2000).isSome = true ∧
    (∀ save, save = 0xFFFF ∨ save = 0x10000 → (createPart save).createGate (aCmd 1 0 0 0 0 0x1000) = none) := by
  refine ⟨by decide +kernel, ?_, by decide +kernel, by decide +kernel, by rintro save (rfl | rfl) <;> exact Option.isNone_iff_eq_none.mp (by decide +kernel)⟩
  intro save h
  rcases h with rfl | rfl <;> exact ⟨⟨rfl, rfl, by decide⟩, by decide +kernel⟩

/-- A context of two regions, region 1 below region 0, in these states, with these fences. -/
def twoRegions (st0 st1 : RState) (root : Nat) (fences : List FenceOp) : Context :=
  { stageContext with regions := [{ stageRegion with st := st0 }, { stageRegion with id := 1, level := 1, st := st1, fenceRoot := root }], fences := fences }

/-- ContextCommands: DESTROY, the end of a drain, TLBINV of both modes. -/
theorem met_destroy_and_tlbinv : (let k := aCmd 2 0 0 0 0 0
     let s := cmdPart [stageContext] k id
     HeadIs s 2 k ∧ s.ctx? k.ctx = some stageContext ∧ stageContext.port = k.port ∧ stageContext.st ≠ .draining ∧ s.destroyGate k = none) ∧
    (let x := { stageContext with st := .draining, drainReply := some (0, 5) }
     let s := cmdPart [x] (aCmd 0 0 0 0 0 0) id
     s.mgmt.devState ≠ .fatal ∧ s.ctx? 0 = some x ∧ s.sched.launches = [] ∧ s.sched.groups = [] ∧ s.eng.ceCmds = [] ∧ s.eng.feCmds = [] ∧
       s.linkDead 0x300 = false ∧ s.ms.hostLines = [] ∧ s.vgate 0 ((s.ctxQueues 0).map (fun q => (q.qbase + 24, 8, Access.write))) = none) ∧
    (∀ mode, mode = 0 ∨ mode = 1 → let k := aCmd 11 0 0 11 mode 0x12345
     let s := cmdPart [stageContext] k id
     HeadIs s 11 k ∧ k.mode = mode ∧ s.ctx? k.ctx = some stageContext) ∧
    (let k := aCmd 11 0 0 11 0 0x12345
     let s0 := cmdPart [stageContext] k id
     let s := { s0 with mgmt := { s0.mgmt with cmds := [], invals := [k] } }
     s.mgmt.devState ≠ .fatal ∧ s.headCmd 11 = none ∧ s.invalDone = some k ∧ s.flushGate = none) := by
  refine ⟨⟨head (by decide), by decide +kernel, by decide +kernel, by decide +kernel, Option.isNone_iff_eq_none.mp (by decide +kernel)⟩, ⟨by decide +kernel, by decide +kernel,
    by decide +kernel, by decide +kernel, by decide +kernel, by decide +kernel, by decide +kernel, by decide +kernel, Option.isNone_iff_eq_none.mp (by decide +kernel)⟩,
    ?_, by decide +kernel, by decide +kernel, by decide +kernel, Option.isNone_iff_eq_none.mp (by decide +kernel)⟩
  intro mode h
  rcases h with rfl | rfl <;> exact ⟨head (by decide), by decide +kernel⟩

/-- ContextCommands: FENCE of an open subtree, of one that is fenced, of one within a fence in progress; RESUME of both outcomes. -/
theorem met_fence_and_resume : (∀ x, x = twoRegions .opened .opened 0 [] ∨ x = twoRegions .opened .fenced 1 [] ∨ x = twoRegions .fencing .fencing 0 [⟨0, .fencing, [(0, 9)], false⟩] →
      (let k := aCmd 3 0 1 0 0 0
       let s := cmdPart [x] k id
       HeadIs s 3 k ∧ s.ctx? k.ctx = some x ∧ x.port = k.port ∧ x.st ≠ .draining ∧ (x.region? k.idField).map (·.id) = some 1) ∧
      (let k := aCmd 4 0 1 0 0 0
       let s := cmdPart [x] k id
       HeadIs s 4 k ∧ s.ctx? k.ctx = some x ∧ (x.region? k.idField).map (·.id) = some 1 ∧ s.resumeGate k = none)) ∧
    ((twoRegions .opened .opened 0 []).enclosing 1 = none ∧ (twoRegions .opened .opened 0 []).fenceContains 1 = false) ∧
    ((twoRegions .opened .fenced 1 []).enclosing 1 = none ∧ (twoRegions .opened .fenced 1 []).fenceContains 1 = true ∧
      ((twoRegions .opened .fenced 1 []).region? 1).map (fun r => (r.st, r.fenceRoot)) = some (.fenced, 1)) ∧
    ((twoRegions .fencing .fencing 0 [⟨0, .fencing, [(0, 9)], false⟩]).enclosing 1).isSome = true := by
  refine ⟨?_, by decide +kernel, by decide +kernel, by decide +kernel⟩
  intro x h
  rcases h with rfl | rfl | rfl <;> exact ⟨⟨head (by decide), by decide +kernel⟩, head (by decide), by decide +kernel, by decide +kernel,
    Option.isNone_iff_eq_none.mp (by decide +kernel)⟩

/-- ContextCommands: RUPDATE with a bad block and a good one; without one for region 0 with and without a child, and for region 1. -/
theorem met_rupdate : (∀ level, level = 1 ∨ level = 2 → let k := aCmd 5 0 1 0 0 0
     let x := { twoRegions .opened .opened 0 [] with rtab := 0x2000 }
     let s := cmdPart [x] k (fun m => m.writeN 0x2040 (rcb level 0))
     let b := s.rcbBytes x.rtab k.idField
     HeadIs s 5 k ∧ s.ctx? k.ctx = some x ∧ k.idField < 256 ∧ rcbValid b = true ∧ rcbBad k.idField b = false ∧
       treeOk (x.withRegion k.idField b) = (level == 1) ∧ s.rupdateGate k = none) ∧
    (∀ n, n = 0 ∨ n = 1 → let k := aCmd 5 0 n 0 0 0
     let x := { twoRegions .opened .opened 0 [] with rtab := 0x2000 }
     let s := cmdPart [x] k id
     HeadIs s 5 k ∧ s.ctx? k.ctx = some x ∧ rcbValid (s.rcbBytes x.rtab k.idField) = false ∧ k.idField = n ∧ (x.region? n).isSome = true ∧
       (∃ r ∈ x.regions, r.id ≠ 0 ∧ r.parent = 0) ∧ (n = 1 → ∀ r ∈ x.regions, r.id = 0 ∨ r.parent ≠ n) ∧ s.sched.queues = [] ∧ s.rupdateGate k = none) ∧
    (let k := aCmd 5 0 0 0 0 0
     let x := { stageContext with rtab := 0x2000, regions := [stageRegion] }
     let s := cmdPart [x] k id
     HeadIs s 5 k ∧ s.ctx? k.ctx = some x ∧ rcbValid (s.rcbBytes x.rtab k.idField) = false ∧ (x.region? 0).isSome = true ∧
       (∀ r ∈ x.regions, r.id = 0 ∨ r.parent ≠ 0) ∧ s.rupdateGate k = none) := by
  refine ⟨?_, ?_, head (by decide), by decide +kernel, by decide +kernel, by decide +kernel, by decide +kernel, Option.isNone_iff_eq_none.mp (by decide +kernel)⟩
  · rintro level (rfl | rfl) <;> exact ⟨head (by decide), by decide +kernel, by decide +kernel, by decide +kernel, by decide +kernel, by decide +kernel,
      Option.isNone_iff_eq_none.mp (by decide +kernel)⟩
  · rintro n (rfl | rfl) <;> exact ⟨head (by decide), by decide +kernel, by decide +kernel, by decide +kernel, by decide +kernel, by decide +kernel,
      by decide +kernel, by decide +kernel, Option.isNone_iff_eq_none.mp (by decide +kernel)⟩

/-- A part with a PENDING entry 511 of base die 1 at which its group waits, FRESOLVE with a token at the head of the arbiter. -/
def resolvePart (mode token : Nat) : State :=
  let t : TrapInfo := { cause := 0x08, slot := some 0 }
  { base with cur := none, mgmt := { base.mgmt with cmds := [aCmd 10 0 0 0 mode token] },
              sched := { stageSched with groups := [{ stageGroup with st := .faultWait 1 (some 511), prevSt := .running, lateTrap := some t }] },
              ms := { base.ms with pfes := [{ base := 1, index := 511, gen := 3, pending := true, ctx := 0, page := 0x800 }] } }

/-- ContextCommands: FRESOLVE with RETRY, with FAIL, and with a token that names nothing. -/
theorem met_fresolve : (∀ mode, mode = 0 ∨ mode = 1 → let k := aCmd 10 0 0 0 mode (3 * 1024 + 512 + 511)
     let s := resolvePart mode (3 * 1024 + 512 + 511)
     HeadIs s 10 k ∧ s.ctx? k.ctx = some stageContext ∧ (s.tokenEntry k.w1.toNat).map (fun p => (p.ctx, p.base, p.index)) = some (0, 1, 511) ∧ k.mode = mode ∧
       s.drydown 0 = false ∧ (s.tokenEntry k.w1.toNat).all (fun p => !s.failWaits p) = true) ∧
    (let k := aCmd 10 0 0 0 0 (2 * 1024 + 512 + 511)
     HeadIs (resolvePart 0 (2 * 1024 + 512 + 511)) 10 k ∧ (resolvePart 0 (2 * 1024 + 512 + 511)).tokenEntry k.w1.toNat = none) ∧
    (let s := resolvePart 1 (3 * 1024 + 512 + 511)
     ∃ h u l y, s.sched.groups.filter (fun g => g.attachedTo 1 511) = [h] ∧ s.group? h.core h.slot = some h ∧ h.st = .faultWait 1 (some 511) ∧ h.hdl = none ∧
       h.lateTrap = some y ∧ y.cause = 0x08 ∧ s.unit? h.unit = some u ∧ s.launch? u.launch = some l ∧ s.handlerOf u l.ctx 0x08 = 0x20000 ∧
       s.wgInHandler h = false ∧ s.launchOf h = some l ∧ h.saved = none) := by
  refine ⟨?_, ⟨⟨rfl, rfl, by decide⟩, by decide +kernel⟩, _, stageUnit, stageLaunch, _, rfl, by decide +kernel, rfl, rfl, rfl, rfl, by decide +kernel,
    by decide +kernel, by decide +kernel, by decide +kernel, by decide +kernel, rfl⟩
  intro mode h
  rcases h with rfl | rfl <;> exact ⟨⟨rfl, rfl, by decide⟩, by decide +kernel⟩

/-! ## Queues -/

/-- A bound queue of 2^6 entries at 0x4000. -/
def theQueue (st : QState) (wptr parsed : Nat) : Queue :=
  { id := 1, ctx := 0, qbase := 0x4000, qlog := 6, producer := true, stopOnErr := false, region := 0, st := st, heldFrom := st, err := 0, wptr := wptr,
    parsed := parsed, retired := 0, doneIdx := [], doorbell := false, polled := 0 }

/-- A part with that queue, a command, and memory changed further. -/
def queuePart (q : Queue) (k : Cmd) (m : Memory → Memory) : State :=
  let s := cmdPart [stageContext] k m
  { s with sched := { s.sched with queues := [q] } }

/-- The bytes of a queue descriptor (R112): base 0x4000, a log2 of the size. -/
def queueDesc (log : Nat) : List Byte := leBytes 8 0x4000 ++ leBytes 8 (log + 2 ^ 5) ++ leBytes 16 0

/-- Queues: QUNBIND, QSTART and QCANCEL of no queue; QBIND of a bad descriptor, with no free id, and of the queue that becomes number 0. -/
theorem met_qbind : (∀ i op, queueCommands i = some op → HeadIs (cmdPart [stageContext] (aCmd op 0 9 0 0 0) id) op (aCmd op 0 9 0 0 0) ∧
      (cmdPart [stageContext] (aCmd op 0 9 0 0 0) id).cmdQueue (aCmd op 0 9 0 0 0) = none) ∧
    (∀ log, log = 3 ∨ log = 16 → let k := aCmd 6 0 0 0 0 0x1000
     let s := queuePart (theQueue .active 0 0) k (fun m => m.writeN 0x1000 (queueDesc log))
     HeadIs s 6 k ∧ s.ctx? k.ctx = some stageContext ∧ k.w1.toNat % 32 = 0 ∧ k.w1.toNat + 32 ≤ 2 ^ 39 ∧
       queueDescBad stageContext (s.devRead k.w1.toNat 32) = (log == 3) ∧ s.queue? 0 = none ∧ s.qbindGate k = none) ∧
    (∀ j, j < 1024 → ({ base with sched := { Sched.reset with queues := (List.range 1024).map (fun j => { theQueue .active 0 0 with id := j }) } } : State).queue? j ≠ none) := by
  refine ⟨?_, ?_, ?_⟩
  · intro i op h
    cases i <;> first | (cases h; exact ⟨⟨rfl, rfl, by decide⟩, by decide +kernel⟩) | cases h
  · intro log h
    rcases h with rfl | rfl <;> exact ⟨⟨rfl, rfl, by decide⟩, by decide +kernel, by decide +kernel, by decide +kernel, by decide +kernel,
      by decide +kernel, Option.isNone_iff_eq_none.mp (by decide +kernel)⟩
  · intro j hj h
    have := List.find?_eq_none.mp h { theQueue .active 0 0 with id := j } (List.mem_map_of_mem (f := fun j => { theQueue .active 0 0 with id := j }) (List.mem_range.mpr hj))
    simp at this

/-- Queues: QUNBIND of an idle queue and of one with a published record, QSTART of a stopped and of an active queue, QCANCEL. -/
theorem met_queue_commands : (∀ n, n = 0 ∨ n = 1 → let k := aCmd 7 0 1 0 0 0
     let s := queuePart (theQueue .active 0 0) k (fun m => m.writeLE 0x4000 8 n)
     s.cmdQueue k = some (theQueue .active 0 0) ∧ HeadIs s 7 k ∧ s.headerGate k = none ∧ ∃ p, s.vread 0 0x4000 8 = some (p, leBytes 8 n)) ∧
    (∀ st, st = .stopped ∨ st = .active → let k := aCmd 8 0 1 0 0 0
     let s := queuePart (theQueue st 0 0) k id
     s.cmdQueue k = some (theQueue st 0 0) ∧ HeadIs s 8 k ∧ s.headerGate k = none ∧ s.reach 0 0x4008 24 .write = .ok (.dev 0x4008)) ∧
    (let k := aCmd 9 0 1 0 0 0
     let s := queuePart (theQueue .active 0 0) k id
     s.cmdQueue k = some (theQueue .active 0 0) ∧ HeadIs s 9 k ∧ s.qcancelGate k = none) := by
  refine ⟨?_, ?_, by decide +kernel, ⟨rfl, rfl, by decide⟩, Option.isNone_iff_eq_none.mp (by decide +kernel)⟩
  · rintro n (rfl | rfl) <;> exact ⟨by decide +kernel, ⟨rfl, rfl, by decide⟩, Option.isNone_iff_eq_none.mp (by decide +kernel), _, rfl⟩
  · rintro st (rfl | rfl) <;> exact ⟨by decide +kernel, ⟨rfl, rfl, by decide⟩, Option.isNone_iff_eq_none.mp (by decide +kernel), rfl⟩

/-- A launch record (R117) of one workgroup at 0x4080, its kernel descriptor at 0x8000, KIND in word 6. -/
def launchCells (kind : Nat) : Memory := [(0x4081, 128), (0x4088, 1), (0x408c, 1), (0x408e, 1)] ++ (if kind = 0 then [] else [(0x40B0, BitVec.ofNat 8 kind)])

/-- The staged kernel's descriptor (R134) at 0x8000. -/
def kernelCells : Memory := [(0x8002, 1), (0x8012, 2), (0x8028, 1), (0x8029, 16), (0x802a, 40), (0x802b, 48), (0x802d, 97), (0x8031, 16)]

/-- A part with a published record at index 0 and that descriptor. -/
def parsePart (kind : Nat) : State :=
  let s := queuePart (theQueue .active 1 0) (aCmd 0 0 0 0 0 0) id
  { s with ms := { s.ms with mem := launchCells kind ++ kernelCells ++ tableCells } }

/-- Queues: a doorbell, a poll of WPTR, a bad and a good record, a held fault record with room in the ring. -/
theorem met_walker : (∀ kind, kind = 0 ∨ kind = 3 → let s := parsePart kind
     s.mgmt.devState = .ready ∧ s.queue? 1 = some (theQueue .active 1 0) ∧ s.ctx? 0 = some stageContext ∧ (theQueue .active 1 0).entry 0 = 0x4080 ∧
       (theQueue .active 1 0).ahead 1 ≠ 0 ∧ s.openRecords 1 = [] ∧ s.sched.launches = [] ∧ s.reach 0 0x4000 8 .read = .ok (.dev 0x4000) ∧ s.reach 0 0x4080 128 .read = .ok (.dev 0x4080) ∧
       s.reach 0 0x4008 24 .write = .ok (.dev 0x4008) ∧ recordBad (s.placeRead (.dev 0x4080) 128) = (kind == 3) ∧
       s.vgate 0 [((launchRecOf (s.placeRead (.dev 0x4080) 128)).kdesc, 256, .read)] = none) ∧
    (let s := parsePart 0
     let r := launchRecOf (s.placeRead (.dev 0x4080) 128)
     stageContext.recordRegion (theQueue .active 1 0) r = some 0 ∧ s.reach 0 r.kdesc 256 .read = .ok (.dev 0x8000) ∧
       kdescInvalid (s.placeRead (.dev 0x8000) 256) = false ∧ (kdescOf (s.placeRead (.dev 0x8000) 256)).tooLarge = false) ∧
    (let x := { stageContext with fqProd := 16, fqHeld := [(1, 2, 3, 4)] }
     let s := cmdPart [x] (aCmd 0 0 0 0 0 0) (fun m => m.writeLE 0x120008 8 1)
     s.mgmt.devState ≠ .fatal ∧ s.ctx? 0 = some x ∧ (x.fqProd + 2 ^ 64 - s.devLE (x.fqBase + 8) 8 % 2 ^ 64) % 2 ^ 64 < 2 ^ x.fqLog ∧
       s.devGate (x.fqBase + 8) 8 = none ∧ s.fqGate x = none) := by
  refine ⟨?_, ⟨by decide +kernel, rfl, by decide +kernel, by decide +kernel⟩, by decide +kernel, by decide +kernel, by decide +kernel,
    Option.isNone_iff_eq_none.mp (by decide +kernel), Option.isNone_iff_eq_none.mp (by decide +kernel)⟩
  intro kind h
  rcases h with rfl | rfl <;> exact ⟨by decide +kernel, by decide +kernel, by decide +kernel, by decide +kernel, by decide +kernel, by decide +kernel, by decide +kernel, rfl,
    rfl, rfl, by decide +kernel⟩

end Sys2Proof.Tests
end

