-- ==== Sys2Proof/Tests/Control.lean ====
section
/-! SUPPORT. Witnesses of the statements about traps, branches, handlers and control registers. -/

namespace Sys2Proof.Tests

open Sys2Proof.Machine Sys2Proof.Claims

set_option maxRecDepth 100000
set_option Elab.async false

/-! ## Operand checks and traps -/

/-- OperandChecks: a reserved scope code, an odd pair, and a register above a kernel's 8 vector registers. -/
theorem met_operand_checks : (∃ o, Issuable base (iss base) ∧
      (operands (.fenceAcq 10)).find? Opnd.illegal = some o ∧ HandlerFree base (iss base) 0x02 0x20000) ∧
    (∃ o, (operands (.vaddI64 2 5 (.v 4))).find? Opnd.illegal = some o) ∧
    ∃ s o, Issuable s (iss s) ∧ (operands (.vaddI32 2 3 (.v 8))).find? Opnd.illegal = none ∧
      (operands (.vaddI32 2 3 (.v 8))).find? (fun p => p.outside (iss s).u.kd) = some o ∧ HandlerFree s (iss s) 0x03 0x20000 :=
  ⟨⟨_, issuable (by decide +kernel), rfl, handlerFree (by decide +kernel)⟩, ⟨_, rfl⟩,
    ⟨partK id (fun k => { k with vgran := 1 }), _, issuable (by decide +kernel), rfl,
      of_isSome (opV 25 0) (by decide +kernel), handlerFree (by decide +kernel)⟩⟩

/-- RaisedTraps, its two clauses. -/
theorem met_raised_traps : Ready base (iss base) (.illegalEncoding 0x3F) ∧ HandlerFree base (iss base) 0x01 0x20000 ∧
    Ready base (iss base) (.trap 63) ∧ HandlerFree base (iss base) 0x1E 0x20000 :=
  ⟨ready (by decide +kernel), handlerFree (by decide +kernel), ready (by decide +kernel), handlerFree (by decide +kernel)⟩

/-- TrapInfoLayout at the ends of its ranges, and without an element or field. -/
theorem met_trap_info_layout : ∃ x y : TrapInfo, 1 < 2 ∧ x.nelem ≤ 256 ∧ x.nelem = 256 ∧ x.first = some 255 ∧ x.field = some 63 ∧
    y.first = none ∧ y.field = none ∧ y.nelem ≤ 256 :=
  ⟨{ cause := 8, tinfo0 := 0, nelem := 256, first := some 255, field := some 63 }, { cause := 8, tinfo0 := 0 }, by decide⟩

/-- TrapInHandlerIsFatal: an operand that fails its check, an unassigned encoding and trap #k in a handler. -/
theorem met_trap_in_handler : ∃ s, Issuable s (iss s) ∧ (iss s).g.hdl ≠ none ∧ (iss s).g.st = .handler ∧
    s.queued (iss s).g = false ∧ checkOperands (iss s) (operands (.fenceAcq 10)) ≠ none ∧ (s.ctx? (iss s).l.ctx).isSome = true :=
  ⟨partH id, issuable (by decide +kernel), by decide +kernel, by decide +kernel, by decide +kernel, by decide +kernel, by decide +kernel⟩

/-! ## Branches -/

/-- Branches: bra, brc taken and not taken in conditions 9 and 1, jmpi to an even and to an odd address, loop with 1 and with 0, nop. -/
theorem met_branches : Ready base (iss base) (.bra (-1)) ∧
    (∃ s, Ready s (iss s) (.brc 9 4) ∧ (Instr.brc 9 4).WellFormed ∧ (iss s).mask.getLsbD 31 = true ∧ ((iss s).g.p 0).getLsbD 31 = true) ∧
    (Ready base (iss base) (.brc 1 4) ∧ (Instr.brc 1 4).WellFormed ∧ (iss base).g.ucond = 0) ∧
    (Ready base (iss base) (.jmpi 9) ∧ ((iss base).g.s 9).toNat % 2 = 0) ∧
    (∃ s, Ready s (iss s) (.jmpi 9) ∧ ((iss s).g.s 9).toNat % 2 = 1 ∧ HandlerFree s (iss s) 0x0B 0x20000) ∧
    (∃ s, Ready s (iss s) (.loop 15 (-2)) ∧ (iss s).g.s 31 = 1) ∧ (Ready base (iss base) (.loop 0 (-2)) ∧ (iss base).g.s 16 = 0) ∧
    Ready base (iss base) .nop :=
  ⟨ready (by decide +kernel),
    ⟨part (fun g => { g with pregs := g.pregs.set 0 (1 <<< 31) }), ready (by decide +kernel), by decide, by decide +kernel, by decide +kernel⟩,
    ⟨ready (by decide +kernel), by decide, by decide +kernel⟩, ⟨ready (by decide +kernel), by decide +kernel⟩,
    ⟨part (fun g => g.setS 9 5), ready (by decide +kernel), by decide +kernel, handlerFree (by decide +kernel)⟩,
    ⟨part (fun g => g.setS 31 1), ready (by decide +kernel), by decide +kernel⟩, ⟨ready (by decide +kernel), by decide +kernel⟩,
    ready (by decide +kernel)⟩

/-- A part whose p1 holds a mask and whose stack holds n call entries, the other slot live or not. -/
def partB (m : Mask) (n : Nat) (other : Bool) : State :=
  part (fun g => { g with pregs := g.pregs.set 1 m, stack := List.replicate n { kind := .call, addr := 0x10000, mask := 0, link := 0, cptr := 0 },
                          slot0 := { g.slot0 with mask := if other then 0xFFFF else g.slot0.mask, cptr := n },
                          slot1 := if other then { g.slot0 with mask := 0xFFFF0000 } else g.slot1 })

/-- DivergentBranch: no element taken, all taken, both sides with the other slot empty and live up to 64 entries, and one entry too many. -/
theorem met_divergent_branch : (∀ t ∈ [((0 : Mask), 0, false), (BitVec.allOnes 256, 0, false), (1, 63, false), (1, 62, true),
      (1, 64, false), (1, 63, true)], readyB (partB t.1 t.2.1 t.2.2) (.brd 1 8 6) = true ∧ (iss (partB t.1 t.2.1 t.2.2)).g.st = .running) ∧
    (iss (partB 0 0 false)).mask &&& (iss (partB 0 0 false)).g.p 1 = 0 ∧
    (let c := iss (partB (BitVec.allOnes 256) 0 false)
     c.mask &&& c.g.p 1 ≠ 0 ∧ c.mask &&& ~~~(c.g.p 1) = 0) ∧
    (∀ t ∈ [(63, false), (62, true)], let c := iss (partB 1 t.1 t.2)
     c.mask &&& c.g.p 1 ≠ 0 ∧ c.mask &&& ~~~(c.g.p 1) ≠ 0 ∧ c.g.stack.length + splitNeed c = 64 ∧ spillB (partB 1 t.1 t.2) = true) ∧
    ∀ t ∈ [(64, false), (63, true)], let c := iss (partB 1 t.1 t.2)
     64 < c.g.stack.length + splitNeed c ∧ handlerB (partB 1 t.1 t.2) 0x05 0x20000 = true :=
  ⟨by decide +kernel, by decide +kernel, by decide +kernel, by decide +kernel, by decide +kernel⟩

/-- The staged group at the join of a frame, with the other slot empty or on its way there. -/
def partJ (other : Bool) : State :=
  part (fun g => { g with stack := [{ kind := .join, addr := 0x10000, mask := g.slot0.mask, link := 0, cptr := 0 }],
                          slot0 := { g.slot0 with mask := if other then 0xFFFF else g.slot0.mask, frame := 1 },
                          slot1 := if other then { g.slot0 with mask := 0xFFFF0000, pc := 0x10004, frame := 1 } else g.slot1 })

/-- Reconvergence: the last arrival at a join, and one before the other slot's. -/
theorem met_reconvergence : ∃ e, (∀ k, k = partJ false ∨ k = partJ true → Ready k (iss k) .join ∧ (iss k).which < 2 ∧ (iss k).g.st = .running ∧
      (iss k).ps.frame ≠ 0 ∧ (iss k).g.stack[(iss k).ps.frame - 1]? = some e ∧ e.addr = (iss k).ps.pc ∧ (iss k).ps.cptr = 0 ∧ spillB k = true) ∧
    ((iss (partJ false)).g.pcSlot (otherSlot 0)).mask = 0 ∧ e.mask ≠ 0 ∧ (∀ y ∈ (iss (partJ false)).g.stack, y.link ≠ 1) ∧
    ((iss (partJ true)).g.pcSlot (otherSlot 0)).mask ≠ 0 ∧ ((iss (partJ true)).g.pcSlot (otherSlot 0)).frame = (iss (partJ true)).ps.frame ∧
    (∀ y ∈ (iss (partJ true)).g.stack, y.kind ≠ .path) := by
  refine ⟨{ kind := .join, addr := 0x10000, mask := stageGroup.slot0.mask, link := 0, cptr := 0 }, ?_, by decide +kernel, by decide +kernel,
    by decide +kernel, by decide +kernel, by decide +kernel, by decide +kernel⟩
  intro k h
  rcases h with rfl | rfl <;> exact ⟨ready (by decide +kernel), by decide +kernel⟩

/-- CallAndReturn: a call with 63 and with 64 entries; ret through a call entry, without one, and through one of another frame. -/
theorem met_call_and_return : (Ready (partB 0 63 false) (iss (partB 0 63 false)) (.call (-4)) ∧ (iss (partB 0 63 false)).g.stack.length < 64 ∧ SpillFree (partB 0 63 false) (iss (partB 0 63 false))) ∧
    (Ready (partB 0 64 false) (iss (partB 0 64 false)) (.call (-4)) ∧ 64 ≤ (iss (partB 0 64 false)).g.stack.length ∧
      HandlerFree (partB 0 64 false) (iss (partB 0 64 false)) 0x05 0x20000) ∧
    (Ready base (iss base) .ret ∧ (iss base).ps.cptr = 0 ∧ HandlerFree base (iss base) 0x04 0x20000) ∧
    (∃ e, Ready (partB 0 1 false) (iss (partB 0 1 false)) .ret ∧ (iss (partB 0 1 false)).ps.cptr ≠ 0 ∧
      (iss (partB 0 1 false)).g.stack[(iss (partB 0 1 false)).ps.cptr - 1]? = some e ∧ e.link = (iss (partB 0 1 false)).ps.frame ∧
      SpillFree (partB 0 1 false) (iss (partB 0 1 false))) ∧
    ∃ s e, Ready s (iss s) .ret ∧ (iss s).ps.cptr ≠ 0 ∧ (iss s).g.stack[(iss s).ps.cptr - 1]? = some e ∧ e.link ≠ (iss s).ps.frame ∧
      HandlerFree s (iss s) 0x04 0x20000 :=
  ⟨⟨ready (by decide +kernel), by decide +kernel, spillFree (by decide +kernel)⟩,
    ⟨ready (by decide +kernel), by decide +kernel, handlerFree (by decide +kernel)⟩,
    ⟨ready (by decide +kernel), by decide +kernel, handlerFree (by decide +kernel)⟩,
    ⟨{ kind := .call, addr := 0x10000, mask := 0, link := 0, cptr := 0 }, ready (by decide +kernel), by decide +kernel, by decide +kernel, by decide +kernel,
      spillFree (by decide +kernel)⟩,
    ⟨part (fun g => { g with stack := [{ kind := .call, addr := 0x10000, mask := 0, link := 1, cptr := 0 }], slot0 := { g.slot0 with cptr := 1 } }),
      { kind := .call, addr := 0x10000, mask := 0, link := 1, cptr := 0 }, ready (by decide +kernel), by decide +kernel, by decide +kernel,
      by decide +kernel, handlerFree (by decide +kernel)⟩⟩

/-! ## Handlers -/

/-- A workgroup of two groups on core 0: the issuing one as f, the other in slot 1 as h. -/
def partTwo (f h : Group → Group) (which : Nat) : State :=
  { base with sched := { stageSched with groups := [f stageGroup, h (Group.start stageLaunch stageKernel 0 0 1 0 1 0 0x201000 1)],
                                         units := [{ stageUnit with kd := { stageKernel with wgm1 := 1 } }] }, cur := some ⟨0, 0, which, 0, 4⟩ }

/-- The other group HELD, from RUNNING. -/
def held (g : Group) : Group := { g with st := .held, prevSt := .running, cause := 7 }

/-- A group in a pre-emption handler that a restore has started. -/
def inRestored (g : Group) : Group :=
  { inHandler g with st := .phandler, hdl := (inHandler g).hdl.map (fun f => { f with pre := true, restored := true }) }

/-- TrapReturn: tret #0 to slot 0, tret #1 to slot 1, tret #0 after a restore, and with a trap pending in the other group. -/
theorem met_trap_return : (∀ t ∈ [(partH id, (0 : Fin 64)), (partH (fun g => { g with tinfo3 := 1 <<< 24, slot1 := g.slot0 }), 1),
        (partTwo inRestored id 2, 0), (partTwo inHandler (fun g => { held g with pendTrap := true }) 2, 0)],
      readyB t.1 (.tret t.2) = true ∧ (iss t.1).g.trappc.toNat % 2 = 0 ∧ t.1.devGate (iss t.1).g.spill 96 = none) ∧
    (∀ s, s = partH id ∨ s = partTwo inHandler (fun g => { held g with pendTrap := true }) 2 → (iss s).g.st = .handler ∧
      (iss s).g.hdl.map (·.pre) = some false) ∧
    ((iss (partTwo inRestored id 2)).g.st = .phandler ∧ (iss (partTwo inRestored id 2)).g.hdl.map (fun f => (f.pre, f.restored)) = some (true, true)) ∧
    (partH id).nextPending 0 0 = none ∧
    ∃ y, let s := partTwo inHandler (fun g => { held g with pendTrap := true }) 2
      s.nextPending (iss s).g.unit (iss s).g.wg = some y ∧ y.gi ≠ (iss s).g.gi ∧ y.slot = 1 ∧ (iss s).g.slot = 0 ∧
      (iss s).u.kd.trapH = 0x20000 ∧ s.devGate y.spill 96 = none :=
  ⟨by decide +kernel, by intro s h; rcases h with rfl | rfl <;> decide +kernel, by decide +kernel, by decide +kernel,
    _, of_isSome stageGroup (by decide +kernel), by decide +kernel, by decide +kernel, by decide +kernel, by decide +kernel, by decide +kernel⟩

/-- HandlerInstructionsOutside. -/
theorem met_handler_instructions_outside : Ready base (iss base) (.tret 0) ∧ Ready base (iss base) (.ginsp 8 9 10) ∧
    Ready base (iss base) (.yield 9 10) ∧ Ready base (iss base) (.gresume 9 10) ∧ (iss base).g.st = .running ∧
    HandlerFree base (iss base) 0x02 0x20000 :=
  ⟨ready (by decide +kernel), ready (by decide +kernel), ready (by decide +kernel), ready (by decide +kernel), by decide +kernel,
    handlerFree (by decide +kernel)⟩

/-- A handler that inspects group t.1 with selector t.2, the other group as h. -/
def inspecting (h : Group → Group) (t : Nat × Nat) : State :=
  partTwo (fun g => ((inHandler g).setS 9 (BitVec.ofNat 64 t.1)).setS 10 (BitVec.ofNat 64 t.2)) h 2

/-- GroupInspection: the first and last selector of every kind, of the other group, of the handler's own, and of one that has ended. -/
theorem met_group_inspection : (∀ t ∈ [(1, 0), (1, 6), (1, 8), (1, 0x10), (1, 0x17), (1, 0x18), (1, 0x40), (1, 0x7F), (1, 0x1F0100), (1, 0x17F),
      (1, 0x200), (1, 0x21F), (0, 0x47)], let s := inspecting held t
    readyB s (.ginsp 8 9 10) = true ∧ (iss s).g.st = .handler ∧ ((iss s).g.s 9).toNat ≤ (iss s).u.kd.wgm1 ∧
      ((s.wgGroups (iss s).g.unit (iss s).g.wg).find? (fun x => x.gi == ((iss s).g.s 9).toNat)).any (fun y =>
        (inspectTable s (iss s) y (((iss s).g.s 10).toNat % 2 ^ 16) (((iss s).g.s 10).toNat / 2 ^ 16 % 256)).isSome && !y.hasEnded &&
        (s.pendingRegs y).isEmpty && !s.flagsOwed y) = true ∧ s.devGate (iss s).g.spill 96 = none) ∧
    (let s := inspecting (fun g => { g with st := .ended true }) (1, 0)
     readyB s (.ginsp 8 9 10) = true ∧ ((s.wgGroups (iss s).g.unit (iss s).g.wg).find? (fun x => x.gi == 1)).any Group.hasEnded = true) :=
  ⟨by decide +kernel, by decide +kernel⟩

/-- GroupRelease: with a zero PC of a group that ran, that waited at a barrier and that has a trap pending; with a new PC. -/
theorem met_group_release : ∀ t ∈ [(0, held stageGroup), (0, { held stageGroup with prevSt := .wait (.bar 64 0) }),
      (0, { held stageGroup with pendTrap := true }), (0x10010, held stageGroup)],
    let s := partTwo (fun g => ((inHandler g).setS 9 1).setS 10 (BitVec.ofNat 64 t.1))
      (fun g => { g with st := .held, prevSt := t.2.prevSt, pendTrap := t.2.pendTrap }) 2
    readyB s (.gresume 9 10) = true ∧ (iss s).g.st = .handler ∧ (iss s).g.slot = 0 ∧ (iss s).g.gi = 0 ∧
      ((s.wgGroups (iss s).g.unit (iss s).g.wg).find? (fun x => x.gi == ((iss s).g.s 9).toNat)).any (fun y => y.st == .held && y.gi == 1 &&
        y.slot == 1 && y.slot1.mask == 0 && y.pendTrap == t.2.pendTrap) = true := by decide +kernel

/-! ## Control registers -/

/-- ControlRegisters: the first and last register that mfcr and mtcr take, a write outside a handler that is refused, clock, mode, mkey. -/
theorem met_control_registers : (∃ x y, Ready base (iss base) (.mfcr 8 0) ∧ controlTable (iss base) 0 = some x ∧ base.flagsOwed (iss base).g = false ∧
      Ready base (iss base) (.mfcr 8 21) ∧ controlTable (iss base) 21 = some y) ∧
    (Ready base (iss base) (.mtcr 0 9) ∧ Ready base (iss base) (.mtcr 21 9) ∧ writable (iss base) 21) ∧
    (∃ s, Ready s (iss s) (.mtcr 20 9) ∧ writable (iss s) 20) ∧
    (Ready base (iss base) (.mtcr 20 9) ∧ ¬ writable (iss base) 20 ∧ HandlerFree base (iss base) 0x02 0x20000) ∧
    (Ready base (iss base) (.clock 8) ∧ base.queued (iss base).g = false ∧ (iss base).g.loads = [] ∧ (iss base).g.atoms = []) ∧
    (∃ x r, Ready base (iss base) (.mode 8 0) ∧ base.ctx? (iss base).l.ctx = some x ∧ Ready base (iss base) (.mode 8 1) ∧
      x.region? (iss base).l.region = some r) ∧ Ready base (iss base) (.mkey 9) :=
  ⟨⟨_, _, ready (by decide +kernel), rfl, by decide +kernel, ready (by decide +kernel), rfl⟩,
    ⟨ready (by decide +kernel), ready (by decide +kernel), .inr (.inl rfl)⟩,
    ⟨partH id, ready (by decide +kernel), .inr (.inr ⟨.inl (by decide +kernel), by decide⟩)⟩,
    ⟨ready (by decide +kernel), by unfold writable; decide +kernel, handlerFree (by decide +kernel)⟩,
    ⟨ready (by decide +kernel), by decide +kernel, by decide +kernel, by decide +kernel⟩,
    ⟨stageContext, stageRegion, ready (by decide +kernel), by decide +kernel, ready (by decide +kernel), by decide +kernel⟩, ready (by decide +kernel)⟩

end Sys2Proof.Tests
end

