-- ==== Sys2Proof/Tests/Device.lean ====
section
/-! SUPPORT. Witnesses of the statements about caches, hosts and peers, links, resets, management and registers, and about steps. -/

namespace Sys2Proof.Tests

open Sys2Proof.Machine Sys2Proof.Claims

set_option maxRecDepth 100000
set_option Elab.async false

/-! ## Caches -/

/-- The record of line 32, which die 7 holds and core 255 shares, or that no die holds. -/
def aLine (held : Bool) : LineRec :=
  { line := 32, holder := if held then some 7 else none, recorded := true, version := 9, sharers := if held then [255, 224] else [], inexact := false, cached := true,
    awayDie := none, awayCount := 0, dirty := true, poison := false, hostLo := none, hostHi := none }

/-- A part with that record, a dead stamp of the line, a shadow, a kill and a peer copy of other lines. -/
def cachePart (held : Bool) : State :=
  { net id with ms := { (net id).ms with
      lines := [aLine held], stamps := [⟨32 * 8 + 7, 0, 255, 3, 5, .write, none⟩], shadows := [⟨7, 33, [], 4, 0⟩, ⟨6, 33, [], 4, 0⟩],
      shadowKills := [(7, 33), (6, 33)], peerCopies := [⟨7, 5, 40, [], 0⟩] } }

/-- CacheEvents: every event's condition, at the highest die and core. -/
theorem met_cache_events : (let s := cachePart true
     s.mgmt.devState ≠ .fatal ∧ 255 ∈ (s.line 32).sharers ∧ s.ms.partials = [] ∧ (s.line 32).holder = some 7 ∧ (s.line 32).recorded = true ∧
       (∀ x ∈ s.ms.stamps, x.sector / 8 = 32 → s.stampLive x = false) ∧ (∀ k ∈ s.ms.shadowKills, k.2 ≠ 32) ∧ (7, 33) ∈ s.ms.shadowKills ∧
       (∃ h ∈ s.ms.shadows, h.die = 7 ∧ h.line = 33) ∧ (∃ q ∈ s.ms.peerCopies, q.die = 7 ∧ q.peer = 5 ∧ q.line = 40) ∧
       (∃ x ∈ s.ms.stamps, s.stampAt 7 x = true ∧ s.stampLive x = false) ∧ 128 * (2 ^ 32 - 1) < 2 ^ 39) ∧
    (let s := cachePart false
     (s.line 32).recorded = true ∧ (s.line 32).holder = none ∧ (∀ x ∈ s.ms.stamps, x.sector / 8 = 32 → s.stampLive x = false) ∧
       ∀ k ∈ s.ms.shadowKills, k.2 ≠ 32) := by decide +kernel

/-! ## Hosts and peers -/

/-- A part whose port 1 is CXL, with a line whose high half a port may hold, a snoop of it, a host line, an export entry, and a write on its way to the host of
port 1. -/
def hostPart (half : Option Nat) (snoop : Bool) : State :=
  let s := net (fun g => { g with sent := [⟨none, .host 1 0x1000, none, [1, 2], none, 0x301, 0, none⟩], seq := 1 })
  { s with mgmt := { s.mgmt with ports := [Port.reset 0, { Port.reset 1 with mode := .cxl true true }] },
           fab := { s.fab with exports := [(0, (7 + 5 * 2 ^ 4 + 1 * 2 ^ 12, 1 * 2 ^ 12))] },
           ms := { s.ms with lines := [{ aLine false with hostHi := half }], backInv := if snoop then [(1, 32, true, 0)] else [],
                             hostLines := [⟨0, 1, 3, List.replicate 64 7, true⟩] } }

/-- HostAndPeerAccess: a half that is free and one that the other port holds; responses and writebacks; BAR2 and atomics up to the end of memory. -/
theorem met_host_access : (let s := hostPart none false
     s.portServes 1 = true ∧ (s.portModeOf 1).hasMem = true ∧ (∀ k ∈ s.ms.shadowKills, k.2 ≠ 32) ∧ (s.line 32).half true = none ∧ s.llcFull 32 = false ∧
       s.placeGate (.dev (2 ^ 39 - 4096)) 4096 = none ∧ s.placeGate (.dev 0x1000) 8 = none ∧ s.anyPoison 0x1000 8 = false) ∧
    (let s := hostPart (some 0) false
     (s.line 32).half true = some 0 ∧ s.portServes 1 = true ∧ s.ms.backInv = [] ∧ (∃ s', s.placeGate (.dev 0x1000) 128 = some s' ∧ s' ≠ s)) ∧
    (let s := hostPart (some 1) true
     s.mgmt.devState ≠ .fatal ∧ s.linkCarries 0x301 = true ∧ (1, 32, true, 0) ∈ s.ms.backInv ∧ (s.line 32).half true = some 1 ∧
       s.llcFull 32 = false ∧
       s.ms.hostLines.find? (fun k => k.port == 1 && k.line == 3) = some ⟨0, 1, 3, List.replicate 64 7, true⟩) :=
  ⟨by decide +kernel, ⟨by decide +kernel, by decide +kernel, by decide +kernel, _, of_isSome base (by decide +kernel), by decide +kernel⟩, by decide +kernel⟩

/-- HostAndPeerAccess: a peer without and with a grant at the last granted byte; the acknowledgement of a write to the host of port 1. -/
theorem met_peer_access : (let s := hostPart none false
     s.mgmt.devState = .ready ∧ (∀ e ∈ s.fab.exports, ¬ Grants e.2.1 e.2.2 6 0x1FF8 8 true false) ∧
       (∃ e ∈ s.fab.exports, Grants e.2.1 e.2.2 5 0x1FF8 8 true true) ∧ s.placeGate (.dev 0x1FF8) 8 = none) ∧
    (let s := { hostPart none false with ms := base.ms }
     let w : SentWrite := ⟨none, .host 1 0x1000, none, [1, 2], none, 0x301, 0, none⟩
     s.mgmt.devState ≠ .fatal ∧ s.linkCarries 0x301 = true ∧ (s.sentOn 0x301)[0]? = some (0, 0, w) ∧ (∃ g, s.group? 0 0 = some g ∧ g.sent = [w]) ∧ w.cmd = none ∧
       s.ms.hostLines = []) := by
  refine ⟨⟨by decide +kernel, ?_, ?_, by decide +kernel⟩, by decide +kernel, by decide +kernel, by decide +kernel,
    ⟨_, of_isSome stageGroup (by decide +kernel), by decide +kernel⟩, by decide +kernel⟩
  · intro e he h
    simp only [hostPart, List.mem_cons, List.not_mem_nil, or_false] at he
    subst he
    exact absurd h.peer (by decide)
  · exact ⟨(0, (7 + 5 * 2 ^ 4 + 1 * 2 ^ 12, 1 * 2 ^ 12)), by decide +kernel, by decide +kernel, fun _ => by decide +kernel, fun _ => by decide +kernel,
      by decide +kernel, by decide +kernel, by decide +kernel⟩

/-! ## Links -/

/-- A part with one link in another state, entered at time 0, at its clock. -/
def linkPart (id : Nat) (f : Link → Link) (now : Nat) : State :=
  { net id' with fab := { fabUp with links := fabUp.links.map (fun l => if l.id = id then f l else l) }, clocks := [(.link id, now)] }
where
  id' : Group → Group := fun g => g

/-- A bus in training, a Brodnus port retraining within its window, a host link retraining at its window's end, a bus UP, the base-to-base link DOWN. -/
def linkCases : List (Nat × LState × Nat) := [(255, .training, 0), (0x20F, .retraining, 3999), (0x301, .retraining, 4000), (0, .up, 0), (0x180, .down, 0)]

/-- A link case as a Bool. -/
def linkCase (c : Nat × LState × Nat) : Bool :=
  let s := linkPart c.1 (fun l => { l with st := c.2.1 }) c.2.2
  let l := (s.link? c.1).getD (Link.reset 0)
  decide (s.mgmt.devState ≠ .fatal) && ((s.link? c.1).isSome && decide (l.st = c.2.1 ∧ s.clock (.link c.1) - l.since = c.2.2 ∧ l.retwin = 4000 ∧
    s.linkState c.1 = c.2.1 ∧ (s.vbtOf 255).rate ≤ 0))

/-- LinkStates: training, retraining within and at the end of its window, up, down, for a bus, a Brodnus port and a host link. -/
theorem met_link_states : (∀ c ∈ linkCases, let s := linkPart c.1 (fun l => { l with st := c.2.1 }) c.2.2
      s.mgmt.devState ≠ .fatal ∧ ∃ l, s.link? c.1 = some l ∧ l.st = c.2.1 ∧ s.clock (.link c.1) - l.since = c.2.2 ∧ l.retwin = 4000 ∧
        s.linkState c.1 = c.2.1 ∧ (s.vbtOf 255).rate ≤ 0) ∧
    (let s := { linkPart 0x301 id 4000 with ms := { base.ms with backInv := [(1, 32, true, 0)] } }
     (1, 32, true, 0) ∈ s.ms.backInv ∧ ∃ l, s.link? 0x301 = some l ∧ l.st = .up ∧ l.retwin ≤ s.clock (.link 0x301) - 0) := by
  refine ⟨?_, by decide +kernel, _, of_isSome (Link.reset 0) (by decide +kernel), by decide +kernel, by decide +kernel⟩
  intro c h
  have p : ∀ c ∈ linkCases, linkCase c = true := by decide +kernel
  have e := p c h
  simp only [linkCase, Bool.and_eq_true, decide_eq_true_eq] at e
  exact ⟨e.1, _, of_isSome (Link.reset 0) e.2.1, e.2.2⟩

/-- Port 15 with two flits in its retry buffer, the first sent again n times. -/
def flitPart (n : Nat) : State := linkPart 0x20F (fun l => { l with retry := [⟨5, 1, n⟩, ⟨6, 1, 0⟩], rxSeq := 9 }) 0

/-- FlitsAndPackets: a flit; a NAK of the first and of the second flit, before and at the sixteenth replay. -/
theorem met_flits : (∀ n, n = 14 ∨ n = 15 → (flitPart n).mgmt.devState ≠ .fatal ∧ (flitPart n).linkCarries 0x20F = true ∧ ∃ l, (flitPart n).link? 0x20F = some l ∧
      (∀ k ∈ (flitPart n).fab.links, k.id = 0x20F → k = l) ∧ (∃ f ∈ l.retry, f.replays = n) ∧ (∃ f ∈ l.retry, f.seq = 5) ∧ (∃ f ∈ l.retry, f.seq = 6) ∧
      l.retry.findIdx? (fun f => f.seq == (5 + 4095) % 4096) = none ∧ l.retry.findIdx? (fun f => f.seq == (6 + 4095) % 4096) = some 0) ∧
    (List.replicate 256 (0 : Byte)).length = 256 := by
  refine ⟨?_, by decide⟩
  intro n h
  rcases h with rfl | rfl <;>
    exact ⟨by decide +kernel, by decide +kernel, _, of_isSome (Link.reset 0) (by decide +kernel), by decide +kernel, by decide +kernel, by decide +kernel,
      by decide +kernel, by decide +kernel, by decide +kernel⟩

/-- A part with a flow from die 7 of two packets, one expected and one before it, through router 31, which may be draining. -/
def packetPart (drain : Bool) (now : Nat) : State :=
  { net id with fab := { fabUp with flows := [⟨0, 7, 3, 9, 8, [⟨7, 31, 0, 0, 0, 32⟩, ⟨8, 31, 0, 0, 0, 33⟩]⟩], drains := if drain then [⟨31, 0⟩] else [] },
                clocks := [(.base 1, now)] }

/-- FlitsAndPackets: packets in sequence and before it; a router that is retired, that has drained and that has not in time. -/
theorem met_packets : (∃ f, (packetPart false 0).fab.flows.find? (fun x => x.id == 0) = some f ∧ f.expected = 8 ∧ f.unacked.map (·.seq) = [7, 8]) ∧
    (∃ b, b < 32 ∧ (packetPart false 0).linkCarries (32 * 7 + b) = true ∧ (packetPart false 0).linkCarries (0x100 + 4 * 7 + b / 8) = true) ∧
    baseOfDie 7 ≠ 3 / 64 ∧ (packetPart false 0).linkCarries 0x180 = true ∧ (packetPart false 0).linkState 0x11F ≠ .retired ∧ (∀ d ∈ (packetPart false 0).fab.drains, d.router ≠ 31) ∧
    (let s := { packetPart true (2 ^ 16) with fab := { (packetPart true 0).fab with flows := [] } }
     s.drainOf 31 = some ⟨31, 0⟩ ∧ s.clock (.base (31 / 16)) - 0 ≤ 2 ^ 16 ∧ ∀ f ∈ s.fab.flows, ∀ p ∈ f.unacked, p.via ≠ 31) ∧
    (let s := packetPart true (2 ^ 16 + 1)
     s.drainOf 31 = some ⟨31, 0⟩ ∧ s.linkCarries 0x11F = true ∧ 2 ^ 16 < s.clock (.base (31 / 16)) - 0 ∧ s.linkState 0x11C ≠ .retired ∧ ∃ f ∈ s.fab.flows, f.unacked.length ≠ 0) :=
  ⟨⟨_, rfl, rfl, rfl⟩, ⟨31, by decide, by decide +kernel, by decide +kernel⟩, by decide +kernel, by decide +kernel, by decide +kernel, by decide +kernel,
    by decide +kernel, by decide +kernel⟩

/-! ## Resets, management, registers -/

/-- A part with a context of port 1, RSTALLOW of that port as given. -/
def resetPart (allow : Bool) (cs : List Context) : State :=
  { base with cur := none, sched := { Sched.reset with ctxs := cs },
              mgmt := { base.mgmt with ports := [Port.reset 0, { Port.reset 1 with rstAllow := allow }] } }

/-- Settings of a boot. -/
def aBoot (vbts : List (Nat × Nat × Nat)) : BootConfig := { devId := 0x105, routes := [(5, 0x10001)], exports := List.replicate 64 (7, 7), pwgt := [(15, 256, 3)], vbts := vbts }

/-- ResetsAndBoot: a reset that is allowed in both ways, refused, without GO; a port reset; a boot to READY and one without the base-to-base link; the
watchdog. -/
theorem met_resets : (∀ a cs, PortsOk (resetPart a cs)) ∧ (1 : Word64).getLsbD 0 = true ∧ (2 : Word64).getLsbD 0 = false ∧
    (∃ q, (resetPart true []).port? (1 - 0) = some q ∧ q.rstAllow = true) ∧
    (let x := { stageContext with port := 1 }
     ∃ q, (resetPart false [x]).port? (1 - 0) = some q ∧ q.rstAllow = false ∧ x ∈ (resetPart false [x]).sched.ctxs ∧ x.port = 1 - 0 ∧ x.st ≠ .draining) ∧
    (∀ dead, dead = true ∨ dead = false → let f : Link → Link := fun l => if dead then { l with st := .down } else l
     let s := { linkPart 0x180 f 0 with mgmt := { base.mgmt with devState := .boot } }
     s.mgmt.devState = .boot ∧ (∀ l ∈ s.fab.links, l.id < 0x100 ∨ l.id = 0x180 → l.st ≠ .training) ∧ (aBoot [(255, 2, 9)]).exports.length ≤ 64 ∧
       (∀ v ∈ (aBoot [(255, 2, 9)]).vbts, v.2.1 % 4 ≠ 3) ∧ s.linkDead 0x180 = dead ∧ ∀ d, d < 8 → s.dieCut d = false) ∧
    (let s := { base with clocks := [(.mc, 2 ^ 30)] }
     s.mgmt.devState ≠ .fatal ∧ 2 ^ 30 ≤ s.clock .mc - s.mgmt.watchdog) := by
  refine ⟨fun _ _ => rfl, by decide, by decide, ⟨_, rfl, rfl⟩, ⟨_, rfl, rfl, by decide +kernel, by decide, by decide⟩, ?_, by decide +kernel⟩
  intro dead h
  rcases h with rfl | rfl <;> decide +kernel

/-- A part with n attestation requests of port 1, the first well formed or not, and every link up. -/
def attPart (n : Nat) (bad : Bool) : State :=
  { net id with mgmt := { base.mgmt with attQueue := List.replicate n ⟨1, 5, 0x10000, [], bad⟩ } }

/-- FirmwareAndErrors: requests that queue, that find 8, that are answered; the ends of the ranges of the other events. -/
theorem met_management : (∀ n, n = 7 ∨ n = 8 → (attPart n false).mgmt.devState = .ready ∧ ((attPart n false).port? 1).isSome = true ∧
      ((attPart n false).mgmt.attQueue.filter (fun r => r.port == 1)).length = n) ∧
    (∀ bad, bad = true ∨ bad = false → (attPart 1 bad).mgmt.attQueue.head? = some ⟨1, 5, 0x10000, [], bad⟩ ∧ (attPart 1 bad).linkCarries 0x301 = true ∧
      (attPart 1 bad).ms.hostLines = [] ∧ (attPart 1 bad).statBase 1 + 8 * 5 + 8 ≤ 0x10000) ∧
    (999 + 1 ≤ 1000 ∧ ∀ c ∈ [((0x301 : Nat), (0 : Nat))], c.1 ∈ linkIds) ∧
    (255 ∉ base.mgmt.meThrottle ∧ 255 ∈ ({ base with mgmt := { base.mgmt with meThrottle := [255] } } : State).mgmt.meThrottle) ∧
    (base.mgmt.devState ≠ .fatal ∧ ∃ g u l, base.group? 0 0 = some g ∧ base.unit? g.unit = some u ∧ base.launch? u.launch = some l) := by
  refine ⟨?_, ?_, by decide +kernel, by decide +kernel, by decide +kernel, _, _, _, of_isSome stageGroup (by decide +kernel), of_isSome stageUnit (by decide +kernel),
    of_isSome stageLaunch (by decide +kernel)⟩
  · intro n h
    rcases h with rfl | rfl <;> decide +kernel
  · intro bad h
    rcases h with rfl | rfl <;> decide +kernel

/-- Registers: a port of a device that is not in BOOT, the last link, the last register of each range. -/
theorem met_registers : base.mgmt.devState ≠ .boot ∧ (base.port? 1).isSome = true ∧ (base.link? 0x301).isSome = true ∧
    base.mgmt.devState = .ready ∧ (0x10000 : Nat) % 8 = 0 ∧ (0x3FFFFF8 : Nat) % 8 = 0 ∧ (0x2000000 ≤ 0x3FFFFF8 ∧ 0x3FFFFF8 < 0x4000000) := by decide +kernel

/-! ## Steps -/

/-- DecodeEncode: well-formed instructions of one word and of a half word with an encoding. -/
theorem met_decode_encode : (Instr.vaddi 127 127 (-1024)).wf = true ∧ ((Instr.vaddi 127 127 (-1024)).encode).isSome = true ∧ (Instr.vmovCompact 15 15).wf = true ∧
    ((Instr.vmovCompact 15 15).encode).isSome = true := by decide

/-- The staged part with nop at its code. -/
def nopPart : State := State.reset.staged (leBytes 4 0x00000039)

/-- The issue of its group. -/
def nopIss : Iss := iss (nopPart.withCur 0 0 0 [])

/-- What its fetch gives. -/
def nopFetch : State × List Byte := okOr (base, []) nopIss.fetch

/-- StepRunsDecoded: the fetch of a word, its decoding, a step with and without an agenda. -/
theorem met_step : (∃ ea l, (nopIss.st.translate (some nopIss.g.core) (dieOfCore nopIss.g.core) nopIss.ctx 0x10000).access .exec 0x10000 = .ok ea l ∧
      nopIss.st.placeOf l ea = .dev 0x10000) ∧ nopIss.st.placeGate (.dev 0x10000) 2 = none ∧ nopIss.st.poisonAt (.dev 0x10000) 2 = false ∧
    (nopPart.withCur 0 0 0 []).issuing = some nopIss ∧ nopIss.beforeFetch = none ∧ nopIss.fetch = .ok nopFetch ∧ nopFetch.2 = leBytes 4 0x00000039 ∧
    decodeBytes nopFetch.2 = .ok (.nop, 4) ∧ nopPart.coreGroups 0 = [stageGroup] ∧ stageGroup.slots = [] ++ 0 :: [1] ∧ nopPart.rotating 0 = false ∧
    (∃ t, exec .nop (nopFetch.1.withCur 0 0 0 nopFetch.2) = .next t ∧ t.cur = none) ∧
    nopPart.agenda = [] ∧ nopPart.mgmt.devState ≠ .fatal ∧ nopPart.internalEvent = none ∧ nopPart.busyCores = [0] :=
  ⟨⟨0x10000, stageLeaf, by decide +kernel, by decide +kernel⟩, by decide +kernel, by decide +kernel, issuing_iss (by decide +kernel),
    Option.isNone_iff_eq_none.mp (by decide +kernel), of_isOk _ (by decide +kernel),
    by decide +kernel, rfl, by decide +kernel, by decide +kernel, by decide +kernel, ⟨_, rfl, by decide +kernel⟩, by decide +kernel, by decide +kernel,
    by decide +kernel, by decide +kernel⟩

/-- StepRunsDecoded: a group whose slot 1 issues because slot 0 is empty. -/
theorem met_second_slot : let s := nopPart.putGroup { stageGroup with slot0 := PcSlot.empty, slot1 := stageGroup.slot0 }
    (∃ g, s.coreGroups 0 = [g] ∧ g.slots = [0] ++ 1 :: [] ∧ ∀ w ∈ [0], (s.withCur 0 g.slot w []).issuing = none) ∧ (s.withCur 0 0 1 []).issuing.isSome = true :=
  ⟨⟨_, rfl, by decide +kernel, by decide +kernel⟩, by decide +kernel⟩

/-- StepRunsDecoded: a half word that ends an instruction, one that goes on, and bytes that are no instruction. -/
theorem met_fetch_and_errors : leNat (leBytes 2 0x3864) % 2 = 0 ∧ leNat (leBytes 2 0x0039) % 2 = 1 ∧ isOk nopIss.fetch = true ∧
    isOk (nopIss.fetchHalf nopIss.ps.pc) = true ∧ (∃ e, decodeBytes (leBytes 4 0xFFFFFFFF) = .error e) :=
  ⟨by decide, by decide, by decide +kernel, by decide +kernel, _, rfl⟩

/-- OnlyResetLeavesFatal and StepKeepsCaps: a step of a FATAL device with a turn on its agenda; a step with a cap at its least. -/
theorem met_steps : (let s := { base with mgmt := { base.mgmt with devState := .fatal }, agenda := [.tick .mc 5] }
     s.mgmt.devState = .fatal ∧ (∀ ctx region, s.agenda.head? ≠ some (.event (.fenceDumpComplete ctx region))) ∧
       s.ctx? 0 = some stageContext ∧ (∃ r ∈ stageContext.regions, r.st ≠ .fenced ∨ r.fenceRoot ≠ 0) ∧ (s.dumpGate stageContext 0).isNone = true ∧
       s.agenda.head? ≠ some (.event .powerOnReset) ∧ (∀ port word, s.agenda.head? ≠ some (.event (.devrst port word)) ∧
       s.agenda.head? ≠ some (.event (.registerWrite port 0x10 word))) ∧ ∃ t, step s = .next t) ∧
    (let s := { nopPart with fab := { nopPart.fab with linkCaps := [(0, 125)], linkLimits := [(5, 125)] } }
     s.capsOk ∧ ∃ t, step s = .next t) :=
  ⟨⟨rfl, fun _ _ => by simp, by decide +kernel, by decide +kernel, by decide +kernel, by decide +kernel, fun _ _ => ⟨by simp, by simp⟩, _, rfl⟩, by unfold State.capsOk; decide +kernel, _, rfl⟩

end Sys2Proof.Tests
end

