-- ==== Sys2Proof/Tests/Engines.lean ====
section
/-! SUPPORT. Witnesses of the statements about copies, remote copies and the matrix engine. -/

namespace Sys2Proof.Tests

open Sys2Proof.Machine Sys2Proof.Claims

set_option maxRecDepth 100000
set_option Elab.async false

/-! ## Bools of premises -/

/-- AllOk as a Bool. -/
def allOkB (xs : List (Nat × Xl)) : Bool := xs.all (fun x => match x.2 with
  | .ok _ _ => true
  | .fail _ _ _ _ => false)

theorem allOk {xs : List (Nat × Xl)} (h : allOkB xs = true) : AllOk xs := by
  intro x hx
  have hb := List.all_eq_true.mp h x hx
  revert hb
  cases x.2 with
  | ok ea l => exact fun _ => ⟨ea, l, rfl⟩
  | fail f ea n p => exact fun hb => by cases hb

/-- Whether a way is clear. -/
def isGo : Way → Bool
  | .go => true
  | .wait => false
  | .back _ => false
  | .lost _ => false
  | .refused _ => false
  | .poison _ => false

theorem go {w : Way} (h : isGo w = true) : w = .go := by
  cases w <;> first | rfl | cases h

/-- Whether a way is refused. -/
def isRefused : Way → Bool
  | .refused _ => true
  | .go => false
  | .wait => false
  | .back _ => false
  | .lost _ => false
  | .poison _ => false

theorem refused {w : Way} (h : isRefused w = true) : ∃ p, w = .refused p := by
  cases w <;> first | exact ⟨_, rfl⟩ | cases h

/-- The error of an Except, a default where there is none. -/
def errOr {ε α : Type} (d : ε) : Except ε α → ε
  | .ok _ => d
  | .error e => e

theorem of_notOk {ε α : Type} {x : Except ε α} (d : ε) (h : isOk x = false) : x = .error (errOr d x) := by
  cases x with
  | ok a => cases h
  | error e => rfl

/-! ## Copies -/

/-- A part whose s8 to s15 hold a command block. -/
def blockPart (xs : List Nat) : State :=
  net (fun g => xs.zipIdx.foldl (fun g x => g.setS (8 + x.2) (BitVec.ofNat 64 x.1)) g)

/-- No barrier. -/
def noBar : Nat := 2 ^ 52

/-- CopyIssue as a Bool, the queue of the CE included. -/
def copyB (s : State) (i : Instr) (n : Nat) : Bool :=
  readyB s i && (match copyAsk 0 n (block (iss s) 8) with
    | some k => k.aligned.all (fun v => v % 4 == 0) && allOkB (copyXl (iss s) k).1 && allOkB (copyXl (iss s) k).2 && isOk ((iss s).copyRuns k)
    | none => false) && (s.eng.ceCmds.filter (fun m => m.cluster == 0 && !m.paused)).length < 64

theorem copy_premises {s : State} {i : Instr} {n : Nat} (h : copyB s i n = true) : Ready s (iss s) i ∧ ∃ k dg bar,
    copyAsk 0 n (block (iss s) 8) = some k ∧ (∀ v ∈ k.aligned, v % 4 = 0) ∧ AllOk (copyXl (iss s) k).1 ∧ AllOk (copyXl (iss s) k).2 ∧
      (iss s).copyRuns k = .ok (dg, bar) ∧ (s.eng.ceCmds.filter (fun m => m.cluster == 0 && !m.paused)).length < 64 := by
  simp only [copyB, Bool.and_eq_true] at h
  obtain ⟨⟨hr, hk⟩, hl⟩ := h
  revert hk
  cases hc : copyAsk 0 n (block (iss s) 8) with
  | none => exact fun hk => by cases hk
  | some k =>
    intro hk
    simp only [Bool.and_eq_true, List.all_eq_true, beq_iff_eq] at hk
    exact ⟨ready hr, k, _, _, rfl, hk.1.1.1, allOk hk.1.1.2, allOk hk.1.2, of_isOk (0, none) hk.2, by simpa using hl⟩

/-- CopyIssue: cpy of no bytes and into cluster SRAM with a barrier, cpy2 of two rows, hcpy of each edge; a control word with a bit too many. -/
theorem met_copy_issue : (∀ x ∈ [([0x1000, 0x2000, noBar, 0], Instr.cpy 8, 4),
        ([0x1000, 2 ^ 28 + 64, 128 + 2 ^ 50, 2 ^ 28], .cpy 8, 4), ([0x1000, 0x2000, noBar, 0, 2 + 64 * 2 ^ 16, 128 + 256 * 2 ^ 32], .cpy2 8, 6),
        ([0x1000, 0x2000, noBar, 0, 2 + 64 * 2 ^ 16 + 1 * 2 ^ 40 + 3 * 2 ^ 48 + 1 * 2 ^ 50, 128 + 256 * 2 ^ 32, 512, 1024], .hcpy 8, 8)],
      (copyTable x.2.1).map (·.2) = some x.2.2 ∧ copyB (blockPart x.1) x.2.1 x.2.2 = true) ∧
    (let s := blockPart [0x1000, 0x2000, 2 ^ 53, 0]
     Ready s (iss s) (.cpy 8) ∧ copyAsk 0 4 (block (iss s) 8) = none ∧ HandlerFree s (iss s) 0x02 0x20000) := by
  refine ⟨?_, ready (by decide +kernel), by decide +kernel, handlerFree (by decide +kernel)⟩
  decide +kernel

/-- A copy of 8 bytes with a count into the barrier object at offset 0. -/
def aCopy (src dst : Endpoint) (started : Bool) (done : List (Nat × Nat)) : CeCmd :=
  { id := 3, cluster := 0, ctx := 0, region := 0, launch := 0, unit := 0, core := 0, slot := 0, inst := 0, issued := 0, src := src, dst := dst,
    geom := ⟨1, 1, 8, 0, 0, 0, 0⟩, bar := some ⟨0, 0, 0, 0⟩, dstGen := 0, leaves := [], stale := [], started := started, paused := false, pausedOn := none,
    done := done, ended := false }

/-- A part whose CE has this command. -/
def cePart (k : CeCmd) : State := { net id with eng := { Engines.reset with ceCmds := [k] } }

/-- The pieces of the unit of a copy's first byte. -/
def pieces (k : CeCmd) : List Piece := (((cePart k).ceUnit 3 0 0).getD (k, [])).2

theorem ceUnit_some {k : CeCmd} (h : ((cePart k).ceUnit 3 0 0).isSome = true) (e : (((cePart k).ceUnit 3 0 0).getD (k, [])).1 = k) :
    (cePart k).ceUnit 3 0 0 = some (k, pieces k) := by
  rw [of_isSome (k, []) h]
  exact congrArg some (Prod.ext e rfl)

/-- CopyProgress: a start; a unit into memory, into a live and into a dead run; page faults of both kinds; a completion. -/
theorem met_copy_progress : (let k := aCopy (.virt 0x1000) (.virt 0x2000) false []
     let s := cePart k
     s.mgmt.devState ≠ .fatal ∧ s.ceCmd? 3 = some k ∧ k.paused = false ∧ (∀ m ∈ s.eng.ceCmds, m.cluster = k.cluster → m.paused = false → m.started = false → k.id ≤ m.id) ∧
       (s.eng.ceCmds.filter (fun m => m.cluster == k.cluster && !m.paused && m.started)).length < 8) ∧
    (∀ d, d = .virt 0x2000 ∨ d = .sram 0 64 ∨ d = .sram 1 64 → let k := aCopy (.virt 0x1000) d true []
     let s := cePart k
     s.mgmt.devState ≠ .fatal ∧ ∃ ps xs, s.ceUnit 3 0 0 = some (k, ps) ∧ k.unitSides s ps = .ok xs ∧ xs.length = 1 ∧
       issuerClear (s.issuer k.core k.slot k.unit k.inst) k.issued (xs.flatMap (fun x => x.2.1.places) ++ xs.flatMap (fun x => x.2.2.places)) 4 = true ∧
       s.way (xs.flatMap (fun x => x.2.1.places)) (xs.flatMap (fun x => x.2.2.places)) 4 = .go) ∧
    ((cePart (aCopy (.virt 0x1000) (.sram 0 64) true [])).runLive 0 64 0 = true ∧
      (cePart (aCopy (.virt 0x1000) (.sram 0 64) true [])).barrierTouched 0 64 8 = none ∧
      (cePart (aCopy (.virt 0x1000) (.sram 1 64) true [])).runLive 1 64 0 = false) ∧
    (∀ a, a = 0x800000 ∨ a = 2 ^ 57 → let k := aCopy (.virt a) (.virt 0x2000) true []
     let s := cePart k
     s.mgmt.devState ≠ .fatal ∧ (s.ceUnit 3 0 0).isSome = true ∧ (∀ q ∈ s.ceUnit 3 0 0, q.1 = k ∧ isOk (k.unitSides s q.2) = false ∧
       ((errOr (.absent, 0, 0, .read) (k.unitSides s q.2)).1 = .absent ↔ a = 0x800000)) ∧ (s.pfe (baseOfDie (dieOfCluster k.cluster)) 0).pending = false) ∧
    (let k := aCopy (.virt 0x1000) (.virt 0x2000) true [(0, 0)]
     let s := cePart k
     s.mgmt.devState ≠ .fatal ∧ s.ceCmd? 3 = some k ∧ k.paused = false ∧ k.allWritten s = true ∧ s.eng.counts = []) := by
  refine ⟨by decide +kernel, ?_, by decide +kernel, ?_, by decide +kernel⟩
  · intro d h
    rcases h with rfl | rfl | rfl <;>
      exact ⟨by decide +kernel, _, _, ceUnit_some (by decide +kernel) (by decide +kernel), of_isOk [] (by decide +kernel), by decide +kernel, by decide +kernel,
        go (by decide +kernel)⟩
  · intro a h
    rcases h with rfl | rfl <;> decide +kernel

/-! ## Remote copies -/

/-- RemoteAdmitted as a Bool. -/
def remoteB (s : State) (put : Bool) (i : Instr) (peer : Nat) : Bool :=
  readyB s i && (match remoteAsk 0 (block (iss s) 8) with
    | none => false
    | some k =>
      k.loc.addr % 4 == 0 && k.remote % 4 == 0 && k.len % 4 == 0 && allOkB ((iss s).cmdRange (farAccess put) (.virt k.remote) k.len) &&
      decide (remoteTarget ((iss s).cmdRange (farAccess put) (.virt k.remote) k.len) = some peer) &&
      allOkB ((iss s).cmdRange (nearAccess put) k.loc k.len) && (leavesOf ((iss s).cmdRange (nearAccess put) k.loc k.len)).all (fun l => l.cls == 0) &&
      isOk ((iss s).copyRuns (k.asCopy put)) && (peer == s.fab.devId || k.len == 0 || (iss s).st.routeOpen (.peer peer 0)) &&
      (put || ((iss s).remoteRefused ((iss s).cmdRange (farAccess put) (.virt k.remote) k.len) k.len).isNone) &&
      decide (s.eng.feCmds.length < 256))

theorem remote_premises {s : State} {put : Bool} {i : Instr} {peer : Nat} (h : remoteB s put i peer = true) : Ready s (iss s) i ∧ ∃ k dg bar,
    remoteAsk 0 (block (iss s) 8) = some k ∧ RemoteAdmitted (iss s) put k peer dg bar ∧ s.eng.feCmds.length < 256 := by
  simp only [remoteB, Bool.and_eq_true] at h
  obtain ⟨hr, hk⟩ := h
  have hst : (iss s).st.fab.devId = s.fab.devId := by
    have hi := (ready hr).1.1
    have : (iss s).st = s := by
      unfold State.issuing at hi
      split at hi
      · cases hi
      · split at hi
        · cases hi
        · split at hi
          · cases hi
          · split at hi
            · cases hi
            · split at hi
              · rw [← Option.some.inj hi]
              · cases hi
    rw [this]
  revert hk
  cases hc : remoteAsk 0 (block (iss s) 8) with
  | none => exact fun hk => by cases hk
  | some k =>
    intro hk
    simp only [Bool.and_eq_true, Bool.or_eq_true, beq_iff_eq, decide_eq_true_eq, List.all_eq_true] at hk
    obtain ⟨⟨⟨⟨⟨⟨⟨⟨⟨⟨a1, a2⟩, a3⟩, far⟩, target⟩, near⟩, device⟩, runs⟩, route⟩, granted⟩, len⟩ := hk
    refine ⟨ready hr, k, _, _, rfl, ⟨⟨a1, a2, a3⟩, allOk far, target, allOk near, device, of_isOk (0, none) runs, ?_, ?_⟩, len⟩
    · rw [hst]; rcases route with (h1 | h2) | h3
      · exact .inl h1
      · exact .inr (.inl h2)
      · exact .inr (.inr h3)
    · intro hp
      rcases granted with h1 | h2
      · rw [hp] at h1; cases h1
      · exact Option.isNone_iff_eq_none.mp h2

/-- RemoteCopies, the issue: rput of no bytes, rput and rget of 128 bytes at peer 5. -/
theorem met_remote_issue : ∀ x ∈ [([0x1000, 0x200000, noBar, 0], Instr.rput 8, true, 0),
      ([0x1000, 0x200000, noBar + 128, 0], .rput 8, true, 5), ([0x1000, 0x200000, noBar + 128, 0], .rget 8, false, 5)],
    (remoteTable x.2.1).map (·.2) = some x.2.2.1 ∧ remoteB (blockPart x.1) x.2.2.1 x.2.1 x.2.2.2 = true := by decide +kernel

/-- A remote command of 8 bytes. -/
def aRemote (put : Bool) (loc : Endpoint) (remote : Nat) : FeCmd :=
  { id := 3, put := put, cluster := 0, ctx := 0, region := 0, launch := 0, unit := 0, core := 0, slot := 0, inst := 0, issued := 0, loc := loc,
    remote := remote, peer := 5, len := 8, bar := none, dstGen := 0, leaves := [], stale := [], pausedOn := none, done := [], ended := false }

/-- A part whose FE has this command, the peer refusing or not. -/
def fePart (k : FeCmd) (deny : Bool) : State :=
  { net id with eng := { Engines.reset with feCmds := [k] }, fab := { fabUp with peerDeny := if deny then [(5, 0, 2 ^ 40)] else [] } }

/-- RemoteCopies, the units: an rput and an rget that go, an rput refused, failing translations of both kinds. -/
theorem met_remote_units : (∀ put deny, (put, deny) ∈ [(true, false), (false, false), (true, true)] → let k := aRemote put (.virt 0x1000) 0x200000
     let s := fePart k deny
     s.mgmt.devState ≠ .fatal ∧ (∀ m ∈ s.eng.feCmds, m.id = 3 → m.ended = false) ∧ s.feUnit 3 0 = some (k, 0, 8) ∧ ∃ x y, k.sides s 0 8 = .ok (x, y) ∧
       issuerClear (s.issuer k.core k.slot k.unit k.inst) k.issued (x.places ++ y.places) 4 = true ∧
       isRefused (s.way x.places y.places 4) = deny ∧ isGo (s.way x.places y.places 4) = !deny) ∧
    ((fePart (aRemote true (.virt 0x1000) 0x200000) true).issuer 0 0 0 0).isSome = true ∧
    (let s := fePart (aRemote true (.virt 0x1000) 0x200000) false
     s.placeLink (.peer 5 0x5000) = some 0x200 ∧ s.linkCarries 0x200 = true ∧ s.retryFull 0x200 = false ∧ s.otherLink 0 (.peer 5 0x5000) 0x200 = false) ∧
    ∀ a, a = 0x800000 ∨ a = 2 ^ 57 → let k := aRemote true (.virt 0x1000) a
     let s := fePart k false
     s.mgmt.devState ≠ .fatal ∧ s.feUnit 3 0 = some (k, 0, 8) ∧ isOk (k.sides s 0 8) = false ∧
       ((errOr (.absent, 0, 0, .read) (k.sides s 0 8)).1 = .absent ↔ a = 0x800000) ∧ (s.pfe (baseOfDie (dieOfCluster k.cluster)) 0).pending = false := by
  refine ⟨?_, by decide +kernel, by decide +kernel, ?_⟩
  · intro put deny h
    simp only [List.mem_cons, Prod.mk.injEq, List.not_mem_nil, or_false] at h
    rcases h with ⟨rfl, rfl⟩ | ⟨rfl, rfl⟩ | ⟨rfl, rfl⟩ <;>
      exact ⟨by decide +kernel, by decide +kernel, by decide +kernel, _, _, of_isOk (.mem [], .mem []) (by decide +kernel), by decide +kernel,
        by decide +kernel, by decide +kernel⟩
  · intro a h
    rcases h with rfl | rfl <;> decide +kernel

/-! ## The matrix engine -/

/-- The bytes of a sparse slot's first 16 rows without an element (R378, R379). -/
def emptySparse : Memory := (List.range 32).map (fun l => (128 * l + 17, 0xA5))

/-- The staged workgroup with tile slots 0 and 1 and handle 3 of 8 banks, all of its group 0. -/
def meWg (w : Workgroup) : Workgroup :=
  { w with tiles := [⟨0, 0, 0, 0, emptySparse⟩, ⟨1, 0, 1, 0, []⟩], handles := [⟨3, 0, [0, 1, 2, 3, 4, 5, 6, 7], 0, []⟩] }

/-- An operation on them in the ME queue. -/
def anOp (x : MeWork) : MeOp := { seq := 0, batch := 1, work := x, tags := (meWg stageWg).tags x }

/-- A part with that workgroup and these operations, s9 an address, s10 a word. -/
def mePart (a k : Nat) (ops : List MeOp) : State :=
  let s := partW (fun g => { ((g.setS 9 (BitVec.ofNat 64 a)).setS 10 (BitVec.ofNat 64 k)) with meq := ops, seq := 1 }) meWg
  { s with ms := { s.ms with tlbCore := leaves, tlbDie := leaves }, fab := fabUp }

/-- Its workgroup. -/
def theWg : Workgroup := meWg stageWg

/-- TileAndHandle: claims, allocations of 1 and of 248 banks, releases with and without operations under way, the two faults. -/
theorem met_tile_and_handle : (let s := mePart 0 0 []
     Ready s (iss s) (.tclaim 15) ∧ wgOf s (iss s) = some theWg ∧ theWg.tile? 15 = none ∧ theWg.tiles.length < (iss s).u.kd.tiles ∧
       (∃ p ps, theWg.tileRes.filter (fun x => !(theWg.tiles.map (·.phys)).contains x) = p :: ps) ∧ Ready s (iss s) (.tclaim 0) ∧
       (theWg.tile? 0).isSome = true ∧ Ready s (iss s) (.trel 15) ∧ HandlerFree s (iss s) 0x12 0x20000) ∧
    (∀ n, n = 1 ∨ n = 248 → let s := mePart n 0 []
     Ready s (iss s) (.aballoc 0 9) ∧ theWg.handle? 0 = none ∧ ((iss s).g.s 9).toNat = n ∧ n ≤ 256 ∧
       n ≤ (theWg.bankRes.filter (fun x => !(theWg.handles.flatMap (·.banks)).contains x)).length) ∧
    (∀ ops, ops = [] ∨ ops = [anOp (.mred 3 0 0 1)] → let s := mePart 0 0 ops
     Ready s (iss s) (.trel 0) ∧ Ready s (iss s) (.abfree 3) ∧ (∃ t, theWg.tile? 0 = some t ∧ t.owner = (iss s).g.gi) ∧
       (∃ h, theWg.handle? 3 = some h ∧ h.owner = (iss s).g.gi) ∧ (iss s).wgPending (fun x => x.tiles.contains 0) = !ops.isEmpty ∧
       (iss s).wgPending (fun x => x.handles.contains 3) = !ops.isEmpty) := by
  refine ⟨⟨ready (by decide +kernel), by decide +kernel, by decide +kernel, by decide +kernel, exists_cons (by decide +kernel), ready (by decide +kernel),
    by decide +kernel, ready (by decide +kernel), handlerFree (by decide +kernel)⟩, ?_, ?_⟩
  · intro n h
    rcases h with rfl | rfl <;> exact ⟨ready (by decide +kernel), by decide +kernel⟩
  · intro ops h
    rcases h with rfl | rfl <;>
      exact ⟨ready (by decide +kernel), ready (by decide +kernel), ⟨_, of_isSome ⟨0, 0, 0, 0, []⟩ (by decide +kernel), by decide +kernel⟩,
        ⟨_, of_isSome ⟨3, 0, [], 0, []⟩ (by decide +kernel), by decide +kernel⟩, by decide +kernel, by decide +kernel⟩

/-- MatrixIssue without memory: a product with the queue nearly full. -/
theorem met_matrix_issue : let s := mePart 0 0 (List.replicate 127 (anOp (.tzero 1)))
    wgOf s (iss s) = some theWg ∧ s.meCount (iss s).g.core < 128 ∧
    ∃ x p, (Instr.mma 0 0 1 3 2).WellFormed ∧ Ready s (iss s) (.mma 0 0 1 3 2) ∧ meTable (iss s) theWg (.mma 0 0 1 3 2) = some (x, p) ∧ p :=
  ⟨by decide +kernel, by decide +kernel,
    ⟨_, _, by decide, ready (by decide +kernel), rfl, by decide +kernel, by unfold meTable.holdsTile; decide +kernel,
      by unfold meTable.holdsTile; decide +kernel, ⟨3, 0, [0, 1, 2, 3, 4, 5, 6, 7], 0, []⟩, by decide +kernel, by decide +kernel⟩⟩

/-- The bytes of an empty sparse line. -/
def emptyLine : List Nat := List.replicate 17 0 ++ 0xA5 :: List.replicate 110 0

theorem read_lines (n : Nat) : ∀ l a, Memory.read ((List.range' l n).map (fun l => (128 * l + 17, (0xA5 : Byte)))) a =
    if a % 128 = 17 ∧ l ≤ a / 128 ∧ a / 128 < l + n then 0xA5 else 0 := by
  induction n with
  | zero => intro l a; rw [if_neg (by omega)]; rfl
  | succ n ih =>
    intro l a
    rw [List.range'_succ, List.map_cons, Memory.read]
    by_cases h : 128 * l + 17 = a
    · rw [if_pos h, if_pos (by omega)]
    · rw [if_neg h, ih]
      by_cases g : a % 128 = 17 ∧ l + 1 ≤ a / 128 ∧ a / 128 < l + 1 + n
      · rw [if_pos g, if_pos (by omega)]
      · rw [if_neg g, if_neg (by omega)]

theorem readN_map (m : Memory) (n : Nat) : ∀ a, m.readN a n = (List.range n).map (fun j => m.read (a + j)) := by
  induction n with
  | zero => exact fun _ => rfl
  | succ n ih =>
    intro a
    rw [Memory.readN, ih, List.range_succ_eq_map, List.map_cons, List.map_map]
    congr 1
    exact List.map_congr_left (fun j _ => by simp only [Function.comp, Nat.succ_eq_add_one]; congr 1; omega)

theorem sparse_lines (i h : Nat) (hi : i < 16) (hh : h < 2) : sparseLine emptySparse i h = emptyLine := by
  have e : emptyLine = (List.range 128).map (fun j => if j = 17 then 0xA5 else 0) := by decide +kernel
  rw [e, sparseLine, readN_map, List.map_map]
  refine List.map_congr_left (fun j hj => ?_)
  rw [List.mem_range] at hj
  simp only [Function.comp, emptySparse, List.range_eq_range', read_lines]
  by_cases g : j = 17
  · rw [if_pos g, if_pos (by omega)]; rfl
  · rw [if_neg g, if_neg (by omega)]; rfl

/-- The slots of a sparse product read as the swizzle check asks. -/
theorem sparse_ok : swizzleOk false emptySparse 16 = true := by
  have h : lineOk false emptyLine = true := by decide +kernel
  simp only [swizzleOk, List.all_eq_true, List.mem_range]
  intro i hi
  rw [sparse_lines i 0 hi (by decide), sparse_lines i 1 hi (by decide), h, Bool.and_self]

/-- MatrixIssue without memory: a sparse product, one over members, an exact merge and a rounding. -/
theorem met_matrix_issue_other : let s := mePart 0 0 []
    (∃ x p, (Instr.mmas 0 0 1 3 4).WellFormed ∧ Ready s (iss s) (.mmas 0 0 1 3 4) ∧ meTable (iss s) theWg (.mmas 0 0 1 3 4) = some (x, p) ∧ p) ∧
    (∃ x p, (Instr.mmaMb 0 0 1 3 2).WellFormed ∧ Ready s (iss s) (.mmaMb 0 0 1 3 2) ∧ meTable (iss s) theWg (.mmaMb 0 0 1 3 2) = some (x, p) ∧ p) ∧
    (∃ x p, (Instr.xmerge 3 0 3 6).WellFormed ∧ Ready s (iss s) (.xmerge 3 0 3 6) ∧ meTable (iss s) theWg (.xmerge 3 0 3 6) = some (x, p) ∧ p) ∧
    ∃ x p, (Instr.xroundF64 3 10 3 6).WellFormed ∧ Ready s (iss s) (.xroundF64 3 10 3 6) ∧ meTable (iss s) theWg (.xroundF64 3 10 3 6) = some (x, p) ∧ p :=
  ⟨⟨_, _, by decide, ready (by decide +kernel), rfl, ⟨by decide +kernel, by unfold meTable.holdsTile; decide +kernel,
      by unfold meTable.holdsTile; decide +kernel, ⟨3, 0, [0, 1, 2, 3, 4, 5, 6, 7], 0, []⟩, by decide +kernel, by decide +kernel⟩,
      by decide +kernel, ⟨0, 0, 0, 0, emptySparse⟩, by decide +kernel, sparse_ok⟩,
    ⟨_, _, by decide, ready (by decide +kernel), rfl, by decide +kernel, by decide +kernel, by unfold meTable.holdsTile; decide +kernel,
      by unfold meTable.holdsTile; decide +kernel, ⟨3, 0, [0, 1, 2, 3, 4, 5, 6, 7], 0, []⟩, by decide +kernel, by decide +kernel⟩,
    ⟨_, _, by decide, ready (by decide +kernel), rfl, by unfold meTable.holdsHandle; decide +kernel⟩,
    ⟨_, _, by decide, ready (by decide +kernel), rfl, by unfold meTable.holdsHandle; decide +kernel⟩⟩

/-- MeAdmitted for rows as placed. -/
def rowsOf (c : Iss) (a : Access) (member : Nat) (rows : List (Nat × Nat)) : List (List Placed) := okOr [] (c.placeRows a member rows)

/-- MeAdmitted as a Bool. -/
def meB (c : Iss) (a : Access) (member : Nat) (rows : List (Nat × Nat)) : Bool :=
  isOk (c.placeRows a member rows) && (rowsOf c a member rows).flatten.all (fun p => !p.leaf.checked && c.st.routeOpen p.place)

theorem me_admitted {c : Iss} {a : Access} {member : Nat} {rows : List (Nat × Nat)} (h : meB c a member rows = true) :
    MeAdmitted c a member rows (rowsOf c a member rows) := by
  simp only [meB, Bool.and_eq_true, List.all_eq_true, Bool.not_eq_true'] at h
  exact ⟨of_isOk [] h.1, h.2⟩

/-- MatrixIssue with memory: tld of the last 2 rows of a slot, acst of the last bank row, xld. -/
theorem met_matrix_memory : (let s := mePart 0x1000 (126 + 1 * 2 ^ 8 + 256 * 2 ^ 16 + 256 * 2 ^ 32) []
     wgOf s (iss s) = some theWg ∧ ∃ x, (Instr.tld 0 9 10).WellFormed ∧ Ready s (iss s) (.tld 0 9 10) ∧ meMemTable (iss s) theWg (.tld 0 9 10) = some x ∧ x.2.2.1.length = 2 ∧
       MeAdmitted (iss s) x.1 x.2.1 x.2.2.1 (rowsOf (iss s) x.1 x.2.1 x.2.2.1) ∧ x.2.2.2.1 (rowsOf (iss s) x.1 x.2.1 x.2.2.1)) ∧
    (let s := mePart 0x1000 (63 + 256 * 2 ^ 32) []
     ∃ x, (Instr.acst 9 10 3).WellFormed ∧ Ready s (iss s) (.acst 9 10 3) ∧ meMemTable (iss s) theWg (.acst 9 10 3) = some x ∧
       MeAdmitted (iss s) x.1 x.2.1 x.2.2.1 (rowsOf (iss s) x.1 x.2.1 x.2.2.1) ∧ x.2.2.2.1 (rowsOf (iss s) x.1 x.2.1 x.2.2.1)) ∧
    (let s := mePart 0x1000 0 []
     ∃ x, (Instr.xld 3 6 9).WellFormed ∧ Ready s (iss s) (.xld 3 6 9) ∧ meMemTable (iss s) theWg (.xld 3 6 9) = some x ∧
       MeAdmitted (iss s) x.1 x.2.1 x.2.2.1 (rowsOf (iss s) x.1 x.2.1 x.2.2.1) ∧ x.2.2.2.1 (rowsOf (iss s) x.1 x.2.1 x.2.2.1)) :=
  ⟨⟨by decide +kernel, _, by decide, ready (by decide +kernel), rfl, by decide +kernel, me_admitted (by decide +kernel), by decide +kernel, by decide +kernel,
      by decide +kernel, fun h => absurd h (by decide +kernel)⟩,
    ⟨_, by decide, ready (by decide +kernel), rfl, me_admitted (by decide +kernel), by decide +kernel, by decide +kernel,
      by decide +kernel, by decide +kernel, ⟨⟨3, 0, [0, 1, 2, 3, 4, 5, 6, 7], 0, []⟩, by decide +kernel, by decide +kernel⟩, by decide +kernel, by decide +kernel, by decide +kernel⟩,
    ⟨_, by decide, ready (by decide +kernel), rfl, me_admitted (by decide +kernel), by decide +kernel, by decide +kernel,
      Option.isNone_iff_eq_none.mp (by decide +kernel)⟩⟩

/-- MatrixIssue: mfence; mwait for a closed, for the open and for a batch with an operation. -/
theorem met_batches : Ready base (iss base) (.mfence 8) ∧ (∀ q ops, (q, ops) ∈ [((0 : Nat), ([] : List MeOp)), (1, []), (1, [anOp (.tzero 1)])] →
    let s := mePart q 0 ops
    readyB s (.mwait 9) = true ∧ ((iss s).g.s 9).toNat = q ∧ q ≤ (iss s).g.batch.toNat + 1 ∧ (iss s).g.meq = ops) := by
  refine ⟨ready (by decide +kernel), ?_⟩
  intro q ops h
  simp only [List.mem_cons, Prod.mk.injEq, List.not_mem_nil, or_false] at h
  rcases h with ⟨rfl, rfl⟩ | ⟨rfl, rfl⟩ | ⟨rfl, rfl⟩ <;> decide +kernel

/-- BatchCompletes: a clearing behind one of another slot, an exact rounding, a load of two rows, and a product's slots. -/
theorem met_batch_completes : (∀ k x, (k, x) ∈ [((1 : Nat), MeWork.tzero 0), (0, .xround 8 3 6 true 0 1),
      (0, .tld 0 126 [[⟨.dev 0x1000, 256, true, none⟩], [⟨.dev 0x1100, 256, true, none⟩]] [])] → let s := mePart 0 0 (if k = 1 then [anOp (.tzero 1), { anOp x with seq := 5 }]
        else [anOp x])
    s.mgmt.devState ≠ .fatal ∧ ∃ g m, s.group? 0 0 = some g ∧ g.saved = none ∧ g.meq[k]? = some m ∧ m.work = x ∧
      (∀ e ∈ g.meq.take k, e.work.meets m.work = false) ∧ s.wg? g.home g.wg = some theWg ∧ theWg.tags m.work = m.tags) ∧
    MeWork.accesses (.tzero 0) = false ∧ (theWg.handle? 3).isSome = true ∧ (theWg.tile? 0).isSome = true ∧ (theWg.tile? 1).isSome = true ∧
    (let s := mePart 0 0 [anOp (.tld 0 126 [[⟨.dev 0x1000, 256, true, none⟩], [⟨.dev 0x1100, 256, true, none⟩]] [])]
     ∀ z ∈ [(⟨.dev 0x1000, 256, true, none⟩ : Chunk), ⟨.dev 0x1100, 256, true, none⟩], z.place.remote = false ∧ z.got = none ∧ (iss s).g.mayRead 0 z.place z.n = true ∧
       s.placeGate z.place z.n = none ∧ s.poisonAt z.place z.n = false) := by
  refine ⟨?_, by decide +kernel, by decide +kernel, by decide +kernel, by decide +kernel, by decide +kernel⟩
  intro k x h
  simp only [List.mem_cons, Prod.mk.injEq, List.not_mem_nil, or_false] at h
  rcases h with ⟨rfl, rfl⟩ | ⟨rfl, rfl⟩ | ⟨rfl, rfl⟩ <;>
    exact ⟨by decide +kernel, _, _, of_isSome stageGroup (by decide +kernel), by decide +kernel, of_isSome (anOp (.tzero 0)) (by decide +kernel),
      by decide +kernel, by decide +kernel, by decide +kernel, by decide +kernel⟩

/-- The CXF image of 2^64 + 3, and a part with it at 0x1000. -/
def anImage : List Byte := cxfBytes (xaOf (2 ^ 64 + 3) 0)

/-- See anImage. -/
def packPart (ops : List MeOp) : State :=
  { mePart 0x1000 0 ops with ms := { (mePart 0x1000 0 ops).ms with mem := (mePart 0x1000 0 ops).ms.mem.writeN 0x1000 anImage } }

/-- PackAndUnpack: xpack that goes and that waits. -/
theorem met_pack : (let s := packPart []
     (Instr.xpack 3 6 9).WellFormed ∧ Ready s (iss s) (.xpack 3 6 9) ∧ wgOf s (iss s) = some theWg ∧ ∃ h, theWg.handle? 3 = some h ∧
       ((iss s).g.s 9).toNat % 16 = 0 ∧ (iss s).g.meq = [] ∧
       (let rows := [(((iss s).g.s 9).toNat, (cxfBytes (h.xa 6)).length)]
        let ps := rowsOf (iss s) .write 0 rows
        MeAdmitted (iss s) .write 0 rows ps ∧ xaPages .write ps = none ∧ ps.flatten.map (·.place) = [.dev 0x1000] ∧
          s.clearWrite (iss s).g (iss s).g.seq (ps.flatten.map Placed.chunk) = true ∧ ∀ p ∈ ps.flatten, s.placeGate p.place p.width = none)) ∧
    (let s := packPart [anOp (.xinit 3 0)]
     Ready s (iss s) (.xpack 3 6 9) ∧ wgOf s (iss s) = some theWg ∧ ∃ m ∈ (iss s).g.meq, 3 ∈ m.work.handles) :=
  ⟨⟨by decide, ready (by decide +kernel), by decide +kernel, ⟨3, 0, [0, 1, 2, 3, 4, 5, 6, 7], 0, []⟩, by decide +kernel, by decide +kernel, by decide +kernel,
      me_admitted (by decide +kernel), Option.isNone_iff_eq_none.mp (by decide +kernel), by decide +kernel, by decide +kernel, by decide +kernel⟩,
    ready (by decide +kernel), by decide +kernel, by decide +kernel⟩

/-- PackAndUnpack: xunpack of a well-formed image. -/
theorem met_unpack : let s := packPart []
    (Instr.xunpack 3 6 9).WellFormed ∧ Ready s (iss s) (.xunpack 3 6 9) ∧ wgOf s (iss s) = some theWg ∧ (theWg.handle? 3).isSome = true ∧
      ((iss s).g.s 9).toNat % 16 = 0 ∧ (iss s).g.meq = [] ∧
    (let hs := rowsOf (iss s) .read 0 [(((iss s).g.s 9).toNat, 16)]
     let hb := s.readChunks (iss s).g (iss s).g.seq (hs.flatten.map Placed.chunk)
     let c : Iss := { iss s with st := (iss s).fillAll s [((iss s).g.s 9).toNat] }
     let rows := [(((iss s).g.s 9).toNat, 16 + 8 * (cxfLimbs (leNat (hb.take 8))).length)]
     let ps := rowsOf c .read 0 rows
     MeAdmitted (iss s) .read 0 [(((iss s).g.s 9).toNat, 16)] hs ∧ xaPages .read hs = none ∧ cxfMalformed (leNat (hb.take 8)) (leNat (hb.drop 8)) = false ∧
       MeAdmitted c .read 0 rows ps ∧ xaPages .read ps = none ∧
       (cxfRead (s.readChunks (iss s).g (iss s).g.seq (ps.flatten.map Placed.chunk))).isSome = true ∧
       (hs.flatten ++ ps.flatten).map (·.place) = [.dev 0x1000, .dev 0x1000] ∧
       ∀ p ∈ hs.flatten ++ ps.flatten, (iss s).g.mayRead (iss s).g.seq p.place p.width = true ∧ s.placeGate p.place p.width = none ∧
         s.poisonAt p.place p.width = false) :=
  ⟨by decide, ready (by decide +kernel), by decide +kernel, by decide +kernel, by decide +kernel, by decide +kernel, me_admitted (by decide +kernel),
    Option.isNone_iff_eq_none.mp (by decide +kernel), by decide +kernel, me_admitted (by decide +kernel), Option.isNone_iff_eq_none.mp (by decide +kernel),
    by decide +kernel, by decide +kernel, by decide +kernel⟩

end Sys2Proof.Tests
end

