-- ==== Sys2Proof/Tests/Launches.lean ====
section
/-! SUPPORT. Witnesses of the statements about scheduling, fences and rounds. -/

namespace Sys2Proof.Tests

open Sys2Proof.Machine Sys2Proof.Claims

set_option maxRecDepth 100000
set_option Elab.async false

/-! ## Scheduling -/

/-- A launch of one workgroup that is ready and has placed nothing. -/
def readyLaunch : Launch := { stageLaunch with nextWg := 0, cores := [] }

/-- A part with that launch and nothing placed, a selection pass due. -/
def selectPart : State := { base with cur := none, sched := { Sched.reset with ctxs := [stageContext], launches := [readyLaunch], selectDue := true } }

/-- The site of its unit: core 0, the run at 0. -/
def aSite : Site := { cluster := 0, cores := [0], run := some (0, 4096) }

/-- The pass finds a site: on a part without groups every core has one. -/
theorem finds_a_site : (passStart selectPart).findSite stageContext 0 readyLaunch.kd readyLaunch.nextCount ((passStart selectPart).admits readyLaunch) = some aSite := by
  decide +kernel

/-- Scheduling: the pass; it finds a site and a spill region. -/
theorem met_selection : selectPart.mgmt.devState = .ready ∧ selectPart.sched.selectDue = true ∧ (passStart selectPart).passOrder = [readyLaunch] ∧
    selectPart.launch? readyLaunch.id = some readyLaunch ∧ (∀ m ∈ selectPart.sched.launches, m.reserving = false) ∧ selectPart.sched.units = [] ∧
    selectPart.sched.groups = [] ∧ readyLaunch.nextWg = 0 ∧ readyLaunch.record.total = 1 ∧ 0 < readyLaunch.kd.vgran ∧ selectPart.ctx? 0 = some stageContext ∧
    (passStart selectPart).findSite stageContext 0 readyLaunch.kd readyLaunch.nextCount ((passStart selectPart).admits readyLaunch) = some aSite ∧
    (stageContext.takeSave (List.replicate (readyLaunch.kd.groups * aSite.cores.length) 4096)).isSome = true :=
  ⟨by decide +kernel, by decide +kernel, by decide +kernel, by decide +kernel, by decide +kernel, rfl, rfl, rfl, rfl, by decide, by decide +kernel, finds_a_site,
    by decide +kernel⟩

/-- A launch that others have passed, 2^20 cycles ago. -/
def passedLaunch : Launch := { readyLaunch with bypassed := true }

/-- A unit that has closed, with nothing under way into its run. -/
def retiringUnit : HUnit := { stageUnit with st := .retiring }

/-- A launch that is over: its one workgroup has retired. -/
def overLaunch : Launch := { stageLaunch with queue := 1, addr := 0x4080, retiredWgs := 1, preempted := true }

/-- A part with that launch, its queue and page tables. -/
def overPart : State :=
  let s := queuePart (theQueue .active 1 1) (aCmd 0 0 0 0 0 0) id
  { s with sched := { s.sched with launches := [overLaunch] } }

/-- Scheduling: a launch that becomes reserving, a unit that retires, a launch that completes. -/
theorem met_reserve_retire_complete : (let s := { selectPart with sched := { selectPart.sched with launches := [passedLaunch] }, clocks := [(.base 0, 2 ^ 20)] }
     s.mgmt.devState ≠ .fatal ∧ s.launch? 0 = some passedLaunch ∧ passedLaunch.ready = true ∧ passedLaunch.reserving = false ∧ passedLaunch.bypassed = true ∧
       passedLaunch.status = none ∧ passedLaunch.done = false ∧ passedLaunch.nextWg < passedLaunch.record.total ∧
       2 ^ 20 ≤ s.schedClock 0 - passedLaunch.waitSince) ∧
    (let s := { base with cur := none, sched := { stageSched with units := [retiringUnit] } }
     s.mgmt.devState ≠ .fatal ∧ s.unit? 0 = some retiringUnit ∧ retiringUnit.saved = false ∧ s.runBusy retiringUnit = false ∧
       (∀ g ∈ s.sched.groups, g.home = retiringUnit.id → g.meq = []) ∧ s.launch? 0 = some stageLaunch ∧ s.regionOpen 0 0 = true) ∧
    (overPart.mgmt.devState ≠ .fatal ∧ overPart.launch? 0 = some overLaunch ∧ LaunchOver overPart overLaunch ∧ overPart.sched.units = [] ∧
      overPart.ms.partials = [] ∧ overPart.ms.pendings = [] ∧ overLaunch.record.kind = 0 ∧ overLaunch.record.succn = 0 ∧
      overPart.queue? 1 = some (theQueue .active 1 1) ∧ overPart.reach 0 0x40C0 8 .write = .ok (.dev 0x40C0) ∧
      overPart.reach 0 0x4008 24 .write = .ok (.dev 0x4008) ∧
      (overPart.deviceWrite (.dev 0x40C0) (leBytes 8 (doneWord overLaunch))).reach 0 0x4008 24 .write = .ok (.dev 0x4008)) :=
  ⟨by decide +kernel, by decide +kernel, by decide +kernel, by decide +kernel, ⟨rfl, .inr ⟨rfl, by decide, by decide +kernel⟩, by decide +kernel⟩,
    rfl, rfl, rfl, rfl, rfl, by decide +kernel, rfl, rfl, rfl⟩

/-! ## Fences and rounds -/

/-- A context whose region 1 and those below are being fenced for a command with TAG 5. -/
def fencedContext (st : RState) : Context := twoRegions .opened st 0 [⟨1, st, [(0, 5)], false⟩]

/-- FencesAndRounds: a fence with nothing under way, and one that dumps. -/
theorem met_fences_complete : (∀ st, st = .fencing ∨ st = .dumping → let c := fencedContext st
     let s := { base with cur := none, sched := { stageSched with ctxs := [c], launches := [{ stageLaunch with region := 1 }] } }
     let f : FenceOp := ⟨1, st, [(0, 5)], false⟩
     s.mgmt.devState ≠ .fatal ∧ s.ctx? 0 = some c ∧ c.fences.find? (fun g => g.root == 1) = some f ∧
       (∀ g ∈ s.regionGroups c 1, g.drained = true ∧ g.blocked = none ∧ s.queued g = false) ∧ s.regionGroups c 1 ≠ [] ∧
       (∀ g ∈ s.sched.groups, ∀ l ∈ s.runningLaunches c 1, g.busyGhost l.id = false) ∧ (∀ l ∈ s.runningLaunches c 1, s.launchBusy l.id = false) ∧
       s.vgate 0 ((s.runningLaunches c 1).flatMap s.completionReach) = none ∧ s.headersGate c 1 = none ∧ s.dumpGate c 1 = none ∧ c.fences = [f] ∧ c.inSubtree 1 f.root = true ∧ f.replies = [(0, 5)] ∧
       s.linkDead 0x300 = false ∧ s.ms.hostLines = []) := by
  intro st h
  rcases h with rfl | rfl <;>
    exact ⟨by decide +kernel, by decide +kernel, by decide +kernel, by decide +kernel, by decide +kernel, by decide +kernel, by decide +kernel, none_of (by decide +kernel),
      none_of (by decide +kernel), none_of (by decide +kernel), by decide +kernel⟩

/-- A context whose detector has counted to its limit of 2^16. -/
def hangContext : Context := { stageContext with cmode := 0x100, hang := 2 ^ 16 }

/-- FencesAndRounds: a hang of a group that waits at a fence; a round boundary of a plain Drydown context. -/
theorem met_hang_and_round : (let s := { base with cur := none, sched := { stageSched with ctxs := [hangContext], groups := [{ stageGroup with st := .wait .fence }] } }
     let g := { stageGroup with st := .wait .fence }
     s.mgmt.devState ≠ .fatal ∧ s.ctx? 0 = some hangContext ∧ hangContext.hangLim = some (2 ^ 16) ∧ s.hangStep hangContext = .count ∧ s.drydown 0 = false ∧
       s.residents 0 = [g] ∧ s.group? 0 0 = some g ∧ g.hdl = none ∧ g.saved = none ∧ s.unit? 0 = some stageUnit ∧ s.unitPaused g = false ∧
       s.launch? 0 = some stageLaunch ∧ s.handlerOf stageUnit 0 0x1C = 0x20000 ∧ s.wgInHandler g = false ∧ (s.hangGate hangContext).isNone = true) ∧
    (let c := { stageContext with cmode := 0x3F1 }
     let s := { base with cur := none, sched := { stageSched with ctxs := [c], turns := [(0, 32)] } }
     s.mgmt.devState ≠ .fatal ∧ s.rotating 0 = true ∧ 32 ≤ s.turn 0 ∧ (∀ c ∈ s.sched.ctxs, c.events = []) ∧ ((s.coreWgs 0).findSome? s.ddGate).isNone = true ∧ s.sched.wgs = [stageWg] ∧
       s.wg? 0 0 = some stageWg ∧ s.unit? 0 = some stageUnit ∧ s.launch? 0 = some stageLaunch ∧ s.ctx? 0 = some c ∧ c.cmode.getLsbD 0 = true ∧
       c.cmode.getLsbD 2 = false) := by decide +kernel

/-- Scheduling: a part whose group owes the acquire before its first instruction, which is nop. -/
theorem met_first_instruction : (let s := part (fun g => { g with acquire := some 8 })
    s.issuing = some (iss s) ∧ (iss s).g.hdl = none ∧ (iss s).g.relFence = none ∧ (iss s).g.lateTrap = none ∧ (iss s).g.acquire = some 8 ∧
      (iss s).clears (operands .nop) = true) :=
  ⟨issuing_iss (by decide +kernel), by decide +kernel, by decide +kernel, by decide +kernel, by decide +kernel, by decide +kernel⟩

end Sys2Proof.Tests
end

