-- ==== Sys2Proof/Tests/Scheduler.lean ====
section
/-! SUPPORT. Witnesses of the statements about the end of groups, regrouping, pre-emption and enq. -/

namespace Sys2Proof.Tests

open Sys2Proof.Machine Sys2Proof.Claims

set_option maxRecDepth 100000
set_option Elab.async false

/-! ## Ends of groups -/

/-- The kernel with a successor, and with groups of its own number. -/
def endKernel (succ groups : Nat) : KDesc := { stageKernel with succDesc := succ, wgm1 := groups - 1, vgran := 1 }

/-- The descriptor of the successor as the launch keeps it. -/
def nextKernel (m : Nat) : KDesc := { stageKernel with m := m, wgm1 := 0, vgran := 1 }

/-- A group of a kernel of one granule. -/
def smallGroup (k : KDesc) (gi slot : Nat) : Group := Group.start stageLaunch k 0 0 gi 0 slot 0 (0x200000 + 4096 * gi) 0

/-- A part whose unit runs such a kernel with these groups beside the first, whose launch keeps a successor, and whose workgroup has handles. -/
def endPart (k : KDesc) (f : Group → Group) (others : List Group) (succ : KDesc) (hs : List Handle) : State :=
  { base with sched := { stageSched with
      groups := f (smallGroup k 0 0) :: others, units := [{ stageUnit with kd := k }], wgs := [{ stageWg with handles := hs }],
      launches := [{ stageLaunch with kd := k, succs := [(0x8100, succ)] }] } }

/-- LastSlot as a Bool. -/
def lastB (s : State) : Bool :=
  let c := iss s
  decide (c.g.st = .running ∧ c.g.hdl = none ∧ (c.g.pcSlot (otherSlot c.which)).mask = 0 ∧ c.g.stack = [] ∧ c.g.slot < 32 ∧ s.queued c.g = false ∧
    c.g.watching .pending = false ∧ c.g.watching .struck = false)

theorem lastSlot {s : State} (h : lastB s = true) : LastSlot s (iss s) := by
  have h := of_decide_eq_true h
  exact ⟨h.1, h.2.1, h.2.2.1, h.2.2.2.1, h.2.2.2.2.1, h.2.2.2.2.2.1, h.2.2.2.2.2.2.1, h.2.2.2.2.2.2.2⟩

/-- A group whose two slots have elements each, with a JOIN entry that names all of them. -/
def split (g : Group) : Group :=
  { g with slot0 := { g.slot0 with mask := 0xF }, slot1 := { g.slot0 with mask := 0xF0 }, stack := [⟨.join, 0x10040, 0xFF, 0, 0⟩] }

/-- GroupEnds: exit and exit.succ of one continuation of two. -/
theorem met_exit_of_a_slot : let s := endPart (endKernel 0x8100 1) split [] (nextKernel 1) []
    Ready s (iss s) .exit ∧ Ready s (iss s) .exitSucc ∧ s.queued (iss s).g = false ∧ (iss s).g.hdl = none ∧
      ((iss s).g.pcSlot (otherSlot (iss s).which)).mask ≠ 0 ∧ (iss s).goesOn = true ∧ SpillFree s (iss s) ∧ HandlerFree s (iss s) 0x04 0x20000 :=
  ⟨ready (by decide +kernel), ready (by decide +kernel), by decide +kernel, by decide +kernel, by decide +kernel, by decide +kernel, spillFree (by decide +kernel),
    handlerFree (by decide +kernel)⟩

/-- GroupEnds: exit with another group that goes on, without and with a successor kernel; of the last group. -/
theorem met_exit : ∀ succ others, (succ, others) = ((0 : Nat), (2 : Nat)) ∨ (succ, others) = (0x8100, 2) ∨ (succ, others) = (0x8100, 1) →
    let s := endPart (endKernel succ others) id (if others = 2 then [smallGroup (endKernel succ 2) 1 31] else []) (nextKernel 1) []
    Ready s (iss s) .exit ∧ LastSlot s (iss s) ∧ wgOf s (iss s) = some stageWg ∧ HoldsNone stageWg (iss s).g.gi (fun _ => False) (fun _ => False) ∧
      MayRelease (iss s) 2 ∧ (iss s).u.kd.succDesc = succ ∧ (OthersGoOn s (iss s) ↔ others = 2) ∧ ∀ h ∈ s.unitGroups (iss s).g.unit, h.st ≠ .ended true := by
  intro succ others h
  rcases h with h | h | h <;> cases h <;>
    exact ⟨ready (by decide +kernel), lastSlot (by decide +kernel), by decide +kernel, ⟨by decide, by decide⟩, mayRelease (by decide +kernel), by decide +kernel,
      by unfold OthersGoOn; decide +kernel, by decide +kernel⟩

/-- A handle held by group 0. -/
def aHandle (name : Nat) : Handle := ⟨name, 0, [7], 0, []⟩

/-- GroupEnds: exit of a group with handles 3 and 15; exit.succ without a successor, and with one whose M differs. -/
theorem met_exit_traps : (let s := endPart (endKernel 0 1) id [] (nextKernel 1) [aHandle 15, aHandle 3]
     Ready s (iss s) .exit ∧ LastSlot s (iss s) ∧ wgOf s (iss s) = some { stageWg with handles := [aHandle 15, aHandle 3] } ∧
       (aHandle 3).owner = (iss s).g.gi ∧ (∀ x ∈ [aHandle 15, aHandle 3], x.owner = (iss s).g.gi → 3 ≤ x.name) ∧ HandlerFree s (iss s) 0x11 0x20000) ∧
    (let s := endPart (endKernel 0 1) id [] (nextKernel 1) []
     Ready s (iss s) .exitSucc ∧ LastSlot s (iss s) ∧ (iss s).u.kd.succDesc = 0 ∧ HandlerFree s (iss s) 0x14 0x20000) ∧
    (let s := endPart (endKernel 0x8100 1) id [] (nextKernel 2) []
     Ready s (iss s) .exitSucc ∧ LastSlot s (iss s) ∧ wgOf s (iss s) = some stageWg ∧ stageWg.regroup = none ∧ (iss s).g.loads = [] ∧ (iss s).g.atoms = [] ∧
       (iss s).g.meq = [] ∧ (∃ s1, (iss s).readSucc = .ok (s1, nextKernel 2)) ∧ (iss s).u.succRead = false ∧
       (iss s).u.kd.succReason (nextKernel 2) = some 2 ∧ (nextKernel 2).m ≠ (iss s).u.kd.m ∧ HandlerFree s (iss s) 0x14 0x20000) :=
  ⟨⟨ready (by decide +kernel), lastSlot (by decide +kernel), by decide +kernel, by decide +kernel, by decide +kernel, handlerFree (by decide +kernel)⟩,
    ⟨ready (by decide +kernel), lastSlot (by decide +kernel), by decide +kernel, handlerFree (by decide +kernel)⟩,
    ⟨ready (by decide +kernel), lastSlot (by decide +kernel), by decide +kernel, rfl, by decide +kernel, by decide +kernel, by decide +kernel, ⟨_, rfl⟩,
      by decide +kernel, by decide +kernel, by decide +kernel, handlerFree (by decide +kernel)⟩⟩

/-- GroupEnds: exit.succ whose checks pass, with a group that goes on and of the last group; it carries a handle. -/
theorem met_exit_succ : ∀ others, others = 2 ∨ others = 1 →
    let k := { endKernel 0x8100 others with imask := 2 ^ (41 + 3) }
    let s := endPart k id (if others = 2 then [smallGroup k 1 31] else []) (nextKernel 1) [aHandle 3]
    let w := { stageWg with handles := [aHandle 3] }
    Ready s (iss s) .exitSucc ∧ LastSlot s (iss s) ∧ wgOf s (iss s) = some w ∧ (iss s).u.kd.succDesc ≠ 0 ∧ w.regroup = none ∧ (iss s).g.loads = [] ∧
      (∃ s1, (iss s).checkSucc = .ok (s1, nextKernel 1) ∧ s1.releaseGate (iss s).g.core (iss s).u.kd.succScope = none) ∧
      HoldsNone w (iss s).g.gi (fun n => (iss s).g.gi < (nextKernel 1).groups ∧ (iss s).u.kd.imask.testBit (41 + n) = true)
        (fun n => (iss s).g.gi < (nextKernel 1).groups ∧ (iss s).u.kd.imask.testBit (25 + n) = true) ∧
      (∀ x ∈ s.unitWgs (iss s).g.unit, x.tiles.length ≤ (nextKernel 1).tiles ∧ (x.handles.flatMap (·.banks)).length ≤ (nextKernel 1).banks) ∧
      MayRelease (iss s) (iss s).u.kd.succScope ∧ (OthersGoOn s (iss s) ↔ others = 2) := by
  intro others h
  rcases h with rfl | rfl <;>
    exact ⟨ready (by decide +kernel), lastSlot (by decide +kernel), by decide +kernel, by decide +kernel, rfl, by decide +kernel,
      ⟨_, of_isOk (base, stageKernel) (by decide +kernel) |>.trans rfl, none_of (by decide +kernel)⟩, ⟨by decide +kernel, by decide +kernel⟩, by decide +kernel,
      mayRelease (by decide +kernel), by unfold OthersGoOn; decide +kernel⟩

/-! ## Regrouping -/

/-- A part with two groups of one granule; s9 a mask or an offset, s10 an offset; the second group as given; a regroup active or a move under way. -/
def regroupPart (x y : Nat) (second : Group → Group) (active : Option Nat) (mv : Option Move) : State :=
  { base with sched := { stageSched with
      groups := [((smallGroup (endKernel 0 2) 0 0).setS 9 (BitVec.ofNat 64 x)).setS 10 (BitVec.ofNat 64 y), second (smallGroup (endKernel 0 2) 1 31)],
      units := [{ stageUnit with kd := endKernel 0 2 }], wgs := [{ stageWg with regroup := active, moving := mv }],
      launches := [{ stageLaunch with kd := endKernel 0 2 }] } }

/-- The second group waiting in mregroup or mrestore with these operands. -/
def arrivedWith (x y : Nat) (g : Group) : Group :=
  { g with st := .wait .regroup, prevSt := .running, regroup := some (BitVec.ofNat 64 x, BitVec.ofNat 64 y) }

/-- Regrouping: mregroup and mrestore with the other group still running. -/
theorem met_regroup_first : let s := regroupPart 1 3840 id none none
    (∀ i, i = .mregroup 9 10 ∨ i = .mrestore 9 → Ready s (iss s) i) ∧ (iss s).mask = fullMask (iss s).g.members ∧
      wgOf s (iss s) = some stageWg ∧ stageWg.moving = none ∧ s.pendingRegs (iss s).g = [] ∧ regroupTable (iss s) (.mregroup 9 10) = some ((1, 3840), false) ∧
      regroupTable (iss s) (.mrestore 9) = some ((1, 1), true) ∧ (∃ h ∈ siblings s (iss s), h.hasEnded = false ∧ h.st ≠ .wait .regroup) ∧
      (∀ h ∈ siblings s (iss s), h.hasEnded = false) ∧ (siblings s (iss s)).length + 1 = (iss s).u.kd.groups := by
  refine ⟨?_, by decide +kernel, by decide +kernel, rfl, by decide +kernel, by decide +kernel, by decide +kernel, by decide +kernel, by decide +kernel, by decide +kernel⟩
  intro i h
  rcases h with rfl | rfl <;> exact ready (by decide +kernel)

/-- Regrouping: the last arrival of both, and one that names no granule. -/
theorem met_regroup_last : (let s := regroupPart 1 3840 (arrivedWith 1 3840) none none
     Ready s (iss s) (.mregroup 9 10) ∧ LastArrival s (iss s) ∧ wgOf s (iss s) = some stageWg ∧
       s.regroupReason (iss s).u stageWg (arrived s (iss s) (1, 3840)) false = none) ∧
    (let s := regroupPart 3840 0 (arrivedWith 3840 3840) (some 3840) none
     Ready s (iss s) (.mrestore 9) ∧ LastArrival s (iss s) ∧ wgOf s (iss s) = some { stageWg with regroup := some 3840 } ∧
       s.regroupReason (iss s).u { stageWg with regroup := some 3840 } (arrived s (iss s) (3840, 3840)) true = none) ∧
    (let s := regroupPart (2 ^ 16) 0 (arrivedWith (2 ^ 16) 0) none none
     Ready s (iss s) (.mregroup 9 10) ∧ LastArrival s (iss s) ∧ s.regroupReason (iss s).u stageWg (arrived s (iss s) (2 ^ 16, 0)) false = some 1 ∧
       handlerAddress s (iss s) 0x15 0x20000 ∧ CalmWg s (iss s)) :=
  ⟨⟨ready (by decide +kernel), ⟨by decide +kernel, by decide +kernel⟩, by decide +kernel, by decide +kernel⟩,
    ⟨ready (by decide +kernel), ⟨by decide +kernel, by decide +kernel⟩, by decide +kernel, by decide +kernel⟩,
    ready (by decide +kernel), ⟨by decide +kernel, by decide +kernel⟩, by decide +kernel, by unfold handlerAddress; decide +kernel,
    by decide +kernel, by decide +kernel, by decide +kernel⟩

/-- Regrouping: a move that exchanges two member slots, and the one back. -/
theorem met_regroup_move : ∀ back, back = true ∨ back = false → let v : Move := ⟨back, 1, 3840, [1, 0]⟩
    let s := regroupPart 0 0 (arrivedWith 1 3840) (if back then some 3840 else none) (some v)
    let u := { stageUnit with kd := endKernel 0 2 }
    s.mgmt.devState ≠ .fatal ∧ s.unit? 0 = some u ∧ (∃ w, s.wg? 0 0 = some w ∧ w.moving = some v) ∧ 0 < u.kd.m ∧ (s.wgOrder 0 0).length = u.kd.groups ∧
      (∀ g ∈ s.wgOrder 0 0, s.group? g.core g.slot = some g ∧ g.vregs.length = 8 * u.kd.vgran ∧ ∀ row ∈ g.vregs, row.length = 32 * u.kd.m) ∧
      s.barrierTouched u.cluster v.offset 256 = none ∧ s.barrierTouched u.cluster (v.offset + 128) 2 = none ∧
      moveSource v (0 * u.kd.m + 0) 1 := by
  intro back h
  rcases h with rfl | rfl
  · exact ⟨by decide +kernel, by decide +kernel, ⟨{ stageWg with regroup := some 3840, moving := some ⟨true, 1, 3840, [1, 0]⟩ }, by decide +kernel, rfl⟩,
      by decide, by decide +kernel, by decide +kernel, by decide +kernel, by decide +kernel, rfl, fun k hk => by
        have : k = 0 := Nat.lt_one_iff.mp hk
        subst this
        decide⟩
  · exact ⟨by decide +kernel, by decide +kernel, ⟨{ stageWg with regroup := none, moving := some ⟨false, 1, 3840, [1, 0]⟩ }, by decide +kernel, rfl⟩,
      by decide, by decide +kernel, by decide +kernel, by decide +kernel, by decide +kernel, rfl⟩

/-! ## Pre-emption -/

/-- A part with one group of one granule as given, its kernel with a pre-emption handler or none. -/
def preemptPart (h : Nat) (wanted : Bool) (f : Group → Group) : State :=
  { base with cur := none, sched := { stageSched with
      groups := [f (smallGroup { endKernel 0 1 with preemptH := h } 0 0)],
      units := [{ stageUnit with kd := { endKernel 0 1 with preemptH := h }, wanted := wanted }] } }

/-- Preemption: a group asked to give way while it runs, without and with a handler, and in FAULTWAIT. -/
theorem met_preempt : ∀ h wait, (h, wait) = ((0 : Nat), false) ∨ (h, wait) = (0x30000, false) ∨ (h, wait) = (0x30000, true) →
    let s := preemptPart h true (fun g => { g with preemptReq := true, st := if wait then .faultWait 0 (some 1) else .running })
    s.mgmt.devState ≠ .fatal ∧ ∃ g u l, s.group? 0 0 = some g ∧ s.unit? g.unit = some u ∧ s.launch? u.launch = some l ∧
      s.regionOpen l.ctx l.region = true ∧ s.mayPreempt g = true ∧ g.inFaultWait = wait ∧ u.kd.preemptH = h := by
  intro h wait e
  rcases e with e | e | e <;> cases e <;>
    exact ⟨by decide +kernel, _, _, _, of_isSome stageGroup (by decide +kernel), of_isSome stageUnit (by decide +kernel), of_isSome stageLaunch (by decide +kernel),
      by decide +kernel, by decide +kernel, by decide +kernel, by decide +kernel⟩

/-- Preemption: a unit whose one group is saved can be saved. -/
theorem met_unit_save : let s := preemptPart 0 true (fun g => { g with saved := some (savedWhole (endKernel 0 1)) })
    s.mgmt.devState ≠ .fatal ∧ ∃ g u l, s.group? 0 0 = some g ∧ s.unit? g.unit = some u ∧ s.launch? u.launch = some l ∧
      s.regionOpen l.ctx l.region = true ∧ s.mayPreempt g = false ∧ s.saveReady u = true ∧ s.saveGate u l.ctx = none ∧ (s.saveUnit u).isSome = true :=
  ⟨by decide +kernel, _, _, _, of_isSome stageGroup (by decide +kernel), of_isSome stageUnit (by decide +kernel), of_isSome stageLaunch (by decide +kernel),
    by decide +kernel, by decide +kernel, by decide +kernel, none_of (by decide +kernel), by decide +kernel⟩

/-- Preemption: yield in a handler and outside of one; the limit of a pre-emption handler. -/
theorem met_yield_and_limit : (let s := partH (fun g => (g.setS 9 0x10008).setS 10 3)
     Ready s (iss s) (.yield 9 10) ∧ (iss s).g.st = .handler ∧ ((iss s).g.s 9).toNat % 2 = 0 ∧ s.queued (iss s).g = false) ∧
    (Ready base (iss base) (.yield 9 10) ∧ (iss base).g.st = .running ∧ HandlerFree base (iss base) 0x02 0x20000) ∧
    (let s := preemptPart 0x30000 true (fun g => { inHandler g with st := .phandler, hdl := some ⟨true, ⟨0x20000, 1, 0, 0, 0⟩, 0, 4096, false, true⟩ })
     s.mgmt.devState ≠ .fatal ∧ ∃ g u f, s.group? 0 0 = some g ∧ s.unit? g.unit = some u ∧ g.hdl = some f ∧ g.st = .phandler ∧ f.restored = false ∧
       4096 ≤ f.retired ∧ g.saved = none ∧ g.blocked = none ∧ s.queued g = false ∧ s.devGate g.spill 96 = none ∧ ∀ w, s.codeWord g f.slot.pc = some w → isYield w = false) :=
  ⟨⟨ready (by decide +kernel), by decide +kernel, by decide +kernel, by decide +kernel⟩,
    ⟨ready (by decide +kernel), by decide +kernel, handlerFree (by decide +kernel)⟩,
    by decide +kernel, _, _, ⟨true, ⟨0x20000, 1, 0, 0, 0⟩, 0, 4096, false, true⟩, of_isSome stageGroup (by decide +kernel), of_isSome stageUnit (by decide +kernel),
      by decide +kernel, by decide +kernel, rfl, by decide, by decide +kernel, by decide +kernel, by decide +kernel, none_of (by decide +kernel), by decide +kernel⟩

/-! ## enq -/

/-- A device-produced queue of 2^6 entries at 0x4000. -/
def aQueue (ctx : Nat) (producer : Bool) (st : QState) : Queue :=
  { id := 1023, ctx := ctx, qbase := 0x4000, qlog := 6, producer := producer, stopOnErr := false, region := 0, st := st, heldFrom := st, err := 0,
    wptr := 0, parsed := 0, retired := 0, doneIdx := [], doorbell := false, polled := 0 }

/-- A part with that queue, s9 its id and s10 the record's address, WPTR as given. -/
def enqPart (q : Queue) (id rec wptr : Nat) : State :=
  let s := net (fun g => (g.setS 9 (BitVec.ofNat 64 id)).setS 10 (BitVec.ofNat 64 rec))
  { s with sched := { s.sched with queues := [q] }, ms := { s.ms with mem := s.ms.mem.writeN 0x4000 (leBytes 8 wptr) } }

/-- A queue that is not bound, another context's, one that is stopped, a full ring, a record that goes in. -/
def enqCases : List (Queue × Nat × Nat) :=
  [(aQueue 0 true .active, 5, 0), (aQueue 1 true .active, 1023, 0), (aQueue 0 true .stopped, 1023, 0), (aQueue 0 true .active, 1023, 64),
    (aQueue 0 true .active, 1023, 63)]

/-- Whether a place was found, and where. -/
def devIs {ε : Type} (x : Except ε Place) (a : Nat) : Bool :=
  match x with
  | .ok p => p == .dev a
  | .error _ => false

theorem devIs_eq {ε : Type} {x : Except ε Place} {a : Nat} (h : devIs x a = true) : x = .ok (.dev a) := by
  cases x with
  | ok p => exact congrArg Except.ok (beq_iff_eq.mp h)
  | error e => cases h

/-- A case as a Bool. -/
def enqB (x : Queue × Nat × Nat) : Bool :=
  let s := enqPart x.1 x.2.1 0x1000 x.2.2
  let c := (iss s).released 6
  let k := { c with st := (c.st.deviceRead (.dev 0x1000) 128).1 }
  readyB s (.enq 8 9 10) && decide (((iss s).g.s 10).toNat % 128 = 0) && mayReleaseB s 6 &&
    (devIs (c.devPlace ((iss s).g.s 10).toNat 128 .read) 0x1000 &&
      (decide (c.st.poisonAt (.dev 0x1000) 128 = false) && decide (s.queue? (((iss s).g.s 9).toNat % 1024) = none ↔ x.2.1 = 5))) &&
    devIs (k.devPlace x.1.qbase 8 .write) 0x4000 &&
    (decide (leNat (k.st.deviceRead (.dev 0x4000) 8).2 = x.2.2) && devIs (k.devPlace (x.1.entry x.2.2) 128 .write) (x.1.entry x.2.2))

/-- Enqueue: a misaligned record; a queue that is not bound, another context's, one that is stopped, a full ring, a record that goes in. -/
theorem met_enqueue : (let s := enqPart (aQueue 0 true .active) 1023 0x1040 0
     Ready s (iss s) (.enq 8 9 10) ∧ ((iss s).g.s 10).toNat % 128 ≠ 0 ∧ WalkFree (iss s) 0 ((iss s).g.s 10).toNat ∧ HandlerFree s (iss s) 0x0B 0x20000) ∧
    ∀ x ∈ enqCases,
      let s := enqPart x.1 x.2.1 0x1000 x.2.2
      let c := (iss s).released 6
      Ready s (iss s) (.enq 8 9 10) ∧ ((iss s).g.s 10).toNat % 128 = 0 ∧ MayRelease (iss s) 6 ∧ c.devPlace ((iss s).g.s 10).toNat 128 .read = .ok (.dev 0x1000) ∧
        c.st.poisonAt (.dev 0x1000) 128 = false ∧ (s.queue? (((iss s).g.s 9).toNat % 1024) = none ↔ x.2.1 = 5) ∧
        (let k := { c with st := (c.st.deviceRead (.dev 0x1000) 128).1 }
         k.devPlace x.1.qbase 8 .write = .ok (.dev 0x4000) ∧ leNat (k.st.deviceRead (.dev 0x4000) 8).2 = x.2.2 ∧
           k.devPlace (x.1.entry x.2.2) 128 .write = .ok (.dev (x.1.entry x.2.2))) := by
  refine ⟨⟨ready (by decide +kernel), by decide +kernel, by unfold WalkFree; decide +kernel, handlerFree (by decide +kernel)⟩, fun x h => ?_⟩
  have p : ∀ x ∈ enqCases, enqB x = true := by decide +kernel
  have e := p x h
  simp only [enqB, Bool.and_eq_true, decide_eq_true_eq] at e
  exact ⟨ready e.1.1.1.1.1, e.1.1.1.1.2, mayRelease e.1.1.1.2, devIs_eq e.1.1.2.1, e.1.1.2.2.1, e.1.1.2.2.2, devIs_eq e.1.2, e.2.1, devIs_eq e.2.2⟩

end Sys2Proof.Tests
end

