-- ==== Sys2Proof/Tests/Slice0.lean ====
section
/-! SUPPORT. The decoder against words of the spec: the worked encodings of its chapters and, for every encoded row of
the opcode table, one word laid out from the row's fixed bits and field positions; the values that Instr.wf refuses. -/

namespace Sys2Proof.Tests

set_option maxRecDepth 100000
set_option Elab.async false

/-! ## Words -/

/-- Words that the spec writes out in its examples. -/
theorem test_decode_spec_words_1 :
    decodeTableWord 32 0xFFA14209 = some (.vaddi 4 5 (-3)) ∧
    decodeTableWord 16 0x3864 = some (.fmulF32Compact 3 7) ∧
    decodeTableWord 16 0x48BC = some (.vmovCompact 5 9) ∧
    decodeTableWord 32 0xC8505011 = some (.faddF32 10 20 (.v 100)) ∧
    decodeTableWord 32 0x18244403 = some (.vaddI32 8 9 (.s 12)) ∧
    decodeTableWord 32 0x03081021 = some (.sadd 1 2 3) ∧
    decodeTableWord 32 0x007D04A5 = some (.sli 9 1000) ∧
    decodeTableWord 32 0xFFFFD031 = some (.bra (-6)) ∧
    decodeTableWord 32 0x82286441 = some (.ld 8 12 10 (some 2)) ∧
    decodeTableWord 32 0x22101865 = some (.mma 3 0 1 2 2) ∧
    decodeTableWord 32 0x00000039 = some .nop := by
  decide +kernel

/-- Words that the spec writes out in its examples. -/
theorem test_decode_spec_words_2 :
    decodeTableWord 32 0x0000003B = some .exit ∧
    decodeTableWord 32 0x00000433 = some .join ∧
    decodeTableWord 32 0x00C040B3 = some (.brd 1 8 6) ∧
    decodeTableWord 32 0xFFFFF037 = some (.loop 0 (-2)) ∧
    decodeTableWord 32 0x000000B5 = some .ret ∧
    decodeTableWord 32 0x822822C7 = some (.ldHn 5 4 10 (some 2)) ∧
    decodeTableWord 32 0xFFF44FC7 = some (.hnchk 9 (-6)) ∧
    decodeTableWord 32 0x86542A45 = some (.lds 4 5 21 (some 6)) ∧
    decodeTableWord 32 0x83401E45 = some (.sts 4 3 16 (some 3)) ∧
    decodeTableWord 32 0x43283849 = some (.atom 0 7 10 3 4) ∧
    decodeTableWord 32 0x6130494B = some (.red 2 9 12 1 6) := by
  decide +kernel

/-- Words that the spec writes out in its examples. -/
theorem test_decode_spec_words_3 :
    decodeTableWord 32 0x600000CD = some (.fenceRel 6) ∧
    decodeTableWord 32 0x7000004D = some (.fenceAcq 7) ∧
    decodeTableWord 32 0x822801CD = some (.pfetch 0 10 (some 2)) ∧
    decodeTableWord 32 0x00285A4D = some (.llcflush 11 10) ∧
    decodeTableWord 32 0x0060004F = some (.cpy 24) ∧
    decodeTableWord 32 0x0060014F = some (.hcpy 24) ∧
    decodeTableWord 32 0x16544057 = some (.xlate 4 21 22) ∧
    decodeTableWord 32 0x0B2890D7 = some (.tlbinv 9 10 11) ∧
    decodeTableWord 32 0x00600053 = some (.rput 24) ∧
    decodeTableWord 32 0x006000D3 = some (.rget 24) ∧
    decodeTableWord 32 0x0B289055 = some (.ctarm 9 10 11) := by
  decide +kernel

/-- Words that the spec writes out in its examples. -/
theorem test_decode_spec_words_4 :
    decodeTableWord 32 0x002890D5 = some (.ctdisarm 9 10) ∧
    decodeTableWord 32 0x0B289155 = some (.ctquery 9 10 11) ∧
    decodeTableWord 32 0x1655413B = some (.enq 20 21 22) ∧
    decodeTableWord 32 0x0A0C3B05 = some (.vbfx 7 3 (.v 5)) ∧
    decodeTableWord 32 0x3058A385 = some (.vsubI64 20 22 (.v 24)) ∧
    decodeTableWord 32 0x6001830B = some (.vori 6 6 (-256)) ∧
    decodeTableWord 32 0xA002410D = some (.vclz 2 9) ∧
    decodeTableWord 32 0x14101E07 = some (.vcmpLtN32 3 4 (.s 10)) ∧
    decodeTableWord 32 0x100004A3 = some (.saddi 9 0 128) ∧
    decodeTableWord 32 0x012800A7 = some (.scmpi 10 1) ∧
    decodeTableWord 32 0x040421A9 = some (.pandn 4 1 2) := by
  decide +kernel

/-- Words that the spec writes out in its examples. -/
theorem test_decode_spec_words_5 :
    decodeTableWord 32 0x04782E2B = some (.pins 5 30 2) ∧
    decodeTableWord 32 0x00004103 = some (.vmulI32 8 0 (.v 0)) ∧
    decodeTableWord 32 0x8C82008F = some (.vcmpiGtI32 1 8 100) ∧
    decodeTableWord 32 0x122050AB = some (.vsel 1 10 8 9) ∧
    decodeTableWord 32 0x000483A9 = some (.ppopc 16 1) ∧
    decodeTableWord 32 0x00048DAB = some (.pext 17 1 0) ∧
    decodeTableWord 32 0x24306783 = some (.vaddI64 12 12 (.s 18)) ∧
    decodeTableWord 32 0x800052C3 = some (.st 5 10 0 (some 0)) ∧
    decodeTableWord 32 0x1C305599 = some (.fmaF64 3 10 12 14) ∧
    decodeTableWord 32 0x0A101995 = some (.fmaH2 0 3 4 (.v 5)) ∧
    decodeTableWord 32 0x0C101297 = some (.fcmpLtF64 2 4 (.v 6)) := by
  decide +kernel

/-- Words that the spec writes out in its examples. -/
theorem test_decode_spec_words_6 :
    decodeTableWord 32 0x8A18209B = some (.cvt 1 4 6 5 8) ∧
    decodeTableWord 32 0x1220399D = some (.fdivF32 7 8 9) ∧
    decodeTableWord 32 0x06182F1D = some (.froundF32 5 6 3) ∧
    decodeTableWord 32 0x0654A19F = some (.shflXor 20 21 3) ∧
    decodeTableWord 32 0x2A24A29F = some (.vmovs 20 9 21) ∧
    decodeTableWord 32 0x00204C1F = some (.mstatMeanF32 9 8) ∧
    decodeTableWord 32 0x22205E1F = some (.mstatQuantF32 11 8 17) ∧
    decodeTableWord 32 0x0B283161 = some (.tld 3 10 11) ∧
    decodeTableWord 32 0x00242063 = some (.aballoc 2 9) ∧
    decodeTableWord 32 0x2210B0E5 = some (.mmaZ 22 0 1 2 2) ∧
    decodeTableWord 32 0x4132F867 = some (.mmas 31 2 3 1 4) := by
  decide +kernel

/-- Words that the spec writes out in its examples. -/
theorem test_decode_spec_words_7 :
    decodeTableWord 32 0x8080F869 = some (.mmaMb 31 0 8 0 8) ∧
    decodeTableWord 32 0x1305606F = some (.mred 3 5 3 1) ∧
    decodeTableWord 32 0x0001406B = some (.mfence 20) ∧
    decodeTableWord 32 0x005000EB = some (.mwait 20) ∧
    decodeTableWord 32 0x023050ED = some (.acst 10 12 2) ∧
    decodeTableWord 32 0x00C840F1 = some (.xaddF64 8 2 3) ∧
    decodeTableWord 32 0x00C855F1 = some (.xroundF64 3 10 2 3) ∧
    decodeTableWord 32 0x08C80271 = some (.xmerge 2 3 4 0) ∧
    decodeTableWord 32 0x00299073 = some (.xpack 2 3 10) ∧
    decodeTableWord 32 0x16500051 = some (.binit 20 22) ∧
    decodeTableWord 32 0x155040D1 = some (.barr 4 20 21) := by
  decide +kernel

/-- Words that the spec writes out in its examples. -/
theorem test_decode_spec_words_8 :
    decodeTableWord 32 0x17500151 = some (.bexp 20 23) ∧
    decodeTableWord 32 0x155041D1 = some (.bwait 4 20 21) ∧
    decodeTableWord 32 0x15509251 = some (.btest 9 20 21) ∧
    decodeTableWord 32 0x005002D1 = some (.binval 20) ∧
    decodeTableWord 32 0x4100008F = some (.vcmpiLtI32 1 0 8) ∧
    decodeTableWord 32 0x0025403D = some (.mfcr 20 9) ∧
    decodeTableWord 32 0x002400BD = some (.mtcr 0 9) ∧
    decodeTableWord 32 0x0000C13D = some (.clock 12) ∧
    decodeTableWord 32 0x000081BD = some (.mode 8 0) ∧
    decodeTableWord 32 0x010081BD = some (.mode 8 1) ∧
    decodeTableWord 32 0x19000409 = some (.vaddi 8 0 200) := by
  decide +kernel

/-- Words that the spec writes out in its examples. -/
theorem test_decode_spec_words_9 :
    decodeTableWord 32 0x00002031 = some (.bra 4) ∧
    decodeTableWord 32 0x00006825 = some (.sli 16 3) ∧
    decodeTableWord 32 0x00A24489 = some (.vaddi 9 9 5) ∧
    decodeTableWord 32 0xC68ACA25 = some (.slih 20 0x23456) ∧
    decodeTableWord 32 0xBC4D4A25 = some (.slih 20 0x1E26A) ∧
    decodeTableWord 32 0xF9BDEA25 = some (.slih 20 0x3CDEF) ∧
    decodeTableWord 32 0xFE000489 = some (.vaddi 9 0 (-16)) ∧
    decodeTableWord 32 0x6F2C47C9 = some (.atom 15 8 11 15 6) ∧
    decodeTableWord 32 0x3040829F = some (.vmovs 16 16 24) ∧
    decodeTableWord 32 0x1B657055 = some (.ctarm 23 25 27) ∧
    decodeTableWord 32 0x442C284B = some (.red 0 5 11 4 4) := by
  decide +kernel

/-- Words that the spec writes out in its examples. -/
theorem test_decode_spec_words_10 :
    decodeTableWord 32 0x6F30284B = some (.red 0 5 12 15 6) ∧
    decodeTableWord 32 0x400000CD = some (.fenceRel 4) ∧
    decodeTableWord 32 0x6000004D = some (.fenceAcq 6) ∧
    decodeTableWord 32 0x00482063 = some (.aballoc 2 18) ∧
    decodeTableWord 32 0x15581161 = some (.tld 1 22 21) ∧
    decodeTableWord 32 0x0268F8ED = some (.acst 31 26 2) ∧
    decodeTableWord 32 0x5F283049 = some (.atom 0 6 10 15 5) ∧
    decodeTableWord 32 0x201000E5 = some (.mmaZ 0 0 1 0 2) ∧
    decodeTableWord 32 0x22100151 = some (.bexp 4 34) ∧
    decodeTableWord 32 0x00903243 = some (.st 4 6 36 none) ∧
    decodeTableWord 32 0x180C2219 = some (.fnmaF32 0 4 3 12) := by
  decide +kernel

/-- Words that the spec writes out in its examples. -/
theorem test_decode_spec_words_11 :
    decodeTableWord 32 0x80406447 = some (.ldHn 8 12 16 (some 0)) ∧
    decodeTableWord 32 0x00404171 = some (.xaddF32 8 0 1) ∧
    decodeTableWord 32 0x2820AE9F = some (.mstatRankF32 21 8 20) ∧
    decodeTableWord 32 0x6A50584B = some (.red 0 11 20 10 6) ∧
    decodeTableWord 32 0x000000BB = some .exitSucc ∧
    decodeTableWord 32 0x002C0173 = some (.xld 0 0 11) ∧
    decodeTableWord 32 0x00009471 = some (.xroundF64 0 18 0 0) := by
  decide +kernel

/-- Major 0x01 of R69 and R60 to R64, every field at a value of its own. -/
theorem test_decode_major_01 :
    decodeTableWord 32 0xDA868003 = some (.vaddI32 80 33 (.v 109)) ∧
    decodeTableWord 32 0x07673483 = some (.vsubI32 102 89 (.s 3)) ∧
    decodeTableWord 32 0xBEF36103 = some (.vmulI32 108 60 (.v 95)) ∧
    decodeTableWord 32 0x281EA583 = some (.vmulhI32 84 7 (.s 20)) ∧
    decodeTableWord 32 0xF8C07A03 = some (.vmulhN32 15 48 (.v 124)) ∧
    decodeTableWord 32 0x60838683 = some (.vminI32 112 32 (.s 48)) ∧
    decodeTableWord 32 0xBE3A3303 = some (.vmaxI32 70 14 (.v 95)) ∧
    decodeTableWord 32 0x37781783 = some (.vaddI64 2 94 (.s 27)) := by
  decide +kernel

/-- Major 0x02 of R69 and R60 to R64, every field at a value of its own. -/
theorem test_decode_major_02 :
    decodeTableWord 32 0xAE91A805 = some (.vshl 53 36 (.v 87)) ∧
    decodeTableWord 32 0x63C3B485 = some (.vshr 118 112 (.s 49)) ∧
    decodeTableWord 32 0x9388A905 = some (.vsar 21 98 (.v 73)) ∧
    decodeTableWord 32 0x71409585 = some (.vand 18 80 (.s 56)) ∧
    decodeTableWord 32 0x81C3EA05 = some (.vor 125 112 (.v 64)) ∧
    decodeTableWord 32 0x3790DE85 = some (.vxor 27 100 (.s 27)) ∧
    decodeTableWord 32 0xABFBDB05 = some (.vbfx 123 126 (.v 85)) ∧
    decodeTableWord 32 0x4A5B8785 = some (.vsubI64 112 22 (.s 37)) := by
  decide +kernel

/-- Major 0x03 of R69 and R60 to R64, every field at a value of its own. -/
theorem test_decode_major_03 :
    decodeTableWord 32 0xB3F01807 = some (.vcmpEqI32 3 124 (.v 89)) ∧
    decodeTableWord 32 0x35C42C87 = some (.vcmpNeI32 5 113 (.s 26)) ∧
    decodeTableWord 32 0xB3E41107 = some (.vcmpLtI32 2 121 (.v 89)) ∧
    decodeTableWord 32 0x049C2587 = some (.vcmpLeI32 4 39 (.s 2)) ∧
    decodeTableWord 32 0xAAD81A07 = some (.vcmpLtN32 3 54 (.v 85)) ∧
    decodeTableWord 32 0x10881687 = some (.vcmpLeN32 2 34 (.s 8)) ∧
    decodeTableWord 32 0x809C1B07 = some (.vcmpEqI64 3 39 (.v 64)) ∧
    decodeTableWord 32 0x575C2F87 = some (.vcmpLtI64 5 87 (.s 43)) := by
  decide +kernel

/-- Major 0x04 of R69 and R60 to R64, every field at a value of its own. -/
theorem test_decode_major_04 :
    decodeTableWord 32 0xB5EA0489 = some (.vaddi 9 40 1455) := by
  decide +kernel

/-- Major 0x05 of R69 and R60 to R64, every field at a value of its own. -/
theorem test_decode_major_05 :
    decodeTableWord 32 0x3D8A348B = some (.vandi 105 40 492) ∧
    decodeTableWord 32 0x57AA6D0B = some (.vori 90 41 189) ∧
    decodeTableWord 32 0x968F5F0B = some (.vxori 62 61 180) := by
  decide +kernel

/-- Major 0x06 of R69 and R60 to R64, every field at a value of its own. -/
theorem test_decode_major_06 :
    decodeTableWord 32 0x03E8440D = some (.vshli 8 33 31) ∧
    decodeTableWord 32 0x231E818D = some (.vshri 3 122 24) ∧
    decodeTableWord 32 0x41BB570D = some (.vsari 46 109 13) ∧
    decodeTableWord 32 0x6351C18D = some (.vroli 3 71 26) ∧
    decodeTableWord 32 0x800BDB0D = some (.vpopc 54 47) ∧
    decodeTableWord 32 0xA012D88D = some (.vclz 49 75) ∧
    decodeTableWord 32 0xC000B60D = some (.vbrev 108 2) := by
  decide +kernel

/-- Major 0x07 of R69 and R60 to R64, every field at a value of its own. -/
theorem test_decode_major_07 :
    decodeTableWord 32 0x0B81820F = some (.vcmpiEq 4 6 92) ∧
    decodeTableWord 32 0x2C9EC28F = some (.vcmpiNe 5 123 100) ∧
    decodeTableWord 32 0x4FB8408F = some (.vcmpiLtI32 1 97 125) ∧
    decodeTableWord 32 0x7D9E438F = some (.vcmpiLeI32 7 121 236) ∧
    decodeTableWord 32 0x96B0818F = some (.vcmpiGtI32 3 66 181) ∧
    decodeTableWord 32 0xBD88428F = some (.vcmpiGeI32 5 33 236) ∧
    decodeTableWord 32 0xD793008F = some (.vcmpiLtN32 1 76 188) ∧
    decodeTableWord 32 0xE249838F = some (.vcmpiGeN32 7 38 18) := by
  decide +kernel

/-- Major 0x08 of R69 and R60 to R64, every field at a value of its own. -/
theorem test_decode_major_08 :
    decodeTableWord 32 0x17E9C411 = some (.faddF32 56 122 (.s 11)) ∧
    decodeTableWord 32 0xDCB0D891 = some (.fsubF32 27 44 (.v 110)) ∧
    decodeTableWord 32 0x564FB511 = some (.fmulF32 118 19 (.s 43)) ∧
    decodeTableWord 32 0x97DD2191 = some (.fminF32 36 119 (.v 75)) ∧
    decodeTableWord 32 0x51614611 = some (.fmaxF32 40 88 (.s 40)) ∧
    decodeTableWord 32 0x945D4291 = some (.fminNanF32 40 23 (.v 74)) ∧
    decodeTableWord 32 0x4E528F11 = some (.fmaxNanF32 81 20 (.s 39)) ∧
    decodeTableWord 32 0x8C55F391 = some (.fcpsgnF32 62 21 (.v 70)) := by
  decide +kernel

/-- Major 0x09 of R69 and R60 to R64, every field at a value of its own. -/
theorem test_decode_major_09 :
    decodeTableWord 32 0x67FC5C13 = some (.faddF64 11 127 (.s 51)) ∧
    decodeTableWord 32 0xD87C2893 = some (.fsubF64 5 31 (.v 108)) ∧
    decodeTableWord 32 0x74875513 = some (.fmulF64 106 33 (.s 58)) ∧
    decodeTableWord 32 0xA4DAA193 = some (.fminF64 84 54 (.v 82)) ∧
    decodeTableWord 32 0x09F84613 = some (.fmaxF64 8 126 (.s 4)) ∧
    decodeTableWord 32 0xD5033A93 = some (.fminNanF64 103 64 (.v 106)) ∧
    decodeTableWord 32 0x206F6713 = some (.fmaxNanF64 108 27 (.s 16)) ∧
    decodeTableWord 32 0xA17BF393 = some (.fcpsgnF64 126 94 (.v 80)) := by
  decide +kernel

/-- Major 0x0a of R69 and R60 to R64, every field at a value of its own. -/
theorem test_decode_major_0a :
    decodeTableWord 32 0x6E587615 = some (.faddH2 1 14 22 (.s 55)) ∧
    decodeTableWord 32 0xEA20A295 = some (.fsubH2 1 20 8 (.v 117)) ∧
    decodeTableWord 32 0x2AEC9F15 = some (.fmulH2 1 19 59 (.s 21)) ∧
    decodeTableWord 32 0xD0FFDB95 = some (.fmaH2 1 123 63 (.v 104)) := by
  decide +kernel

/-- Major 0x0b of R69 and R60 to R64, every field at a value of its own. -/
theorem test_decode_major_0b :
    decodeTableWord 32 0x4A902417 = some (.fcmpEqF32 4 36 (.s 37)) ∧
    decodeTableWord 32 0xA4D02097 = some (.fcmpLtF32 4 52 (.v 82)) ∧
    decodeTableWord 32 0x2CC40D17 = some (.fcmpLeF32 1 49 (.s 22)) ∧
    decodeTableWord 32 0xFFE03197 = some (.fcmpUnF32 6 120 (.v 127)) ∧
    decodeTableWord 32 0x2EB03E17 = some (.fcmpEqF64 7 44 (.s 23)) ∧
    decodeTableWord 32 0xC4FC0A97 = some (.fcmpLtF64 1 63 (.v 98)) ∧
    decodeTableWord 32 0x5D942F17 = some (.fcmpLeF64 5 101 (.s 46)) ∧
    decodeTableWord 32 0xDB940B97 = some (.fcmpUnF64 1 101 (.v 109)) := by
  decide +kernel

/-- Major 0x0c of R69 and R60 to R64, every field at a value of its own. -/
theorem test_decode_major_0c :
    decodeTableWord 32 0x0B566199 = some (.fmaF32 3 76 85 5) ∧
    decodeTableWord 32 0xB7217B19 = some (.fnmaF32 2 47 72 91) ∧
    decodeTableWord 32 0x7FAD2599 = some (.fmaF64 3 36 107 63) ∧
    decodeTableWord 32 0xB3FB1F19 = some (.fnmaF64 2 99 126 89) := by
  decide +kernel

/-- Major 0x0d of R69 and R60 to R64, every field at a value of its own. -/
theorem test_decode_major_0d :
    decodeTableWord 32 0xBDED319B = some (.cvt 3 38 123 6 11) := by
  decide +kernel

/-- Major 0x0e of R69 and R60 to R64, every field at a value of its own. -/
theorem test_decode_major_0e_1 :
    decodeTableWord 32 0x012CB81D = some (.frcpF32 23 75) ∧
    decodeTableWord 32 0x000B709D = some (.frsqrtF32 110 2) ∧
    decodeTableWord 32 0x011DE91D = some (.fsqrtF32 61 71) ∧
    decodeTableWord 32 0x5487219D = some (.fdivF32 100 33 42) ∧
    decodeTableWord 32 0x0092B21D = some (.fexp2F32 86 36) ∧
    decodeTableWord 32 0x0095E29D = some (.flog2F32 60 37) ∧
    decodeTableWord 32 0x01074B1D = some (.fsinF32 105 65) ∧
    decodeTableWord 32 0x015E9B9D = some (.fcosF32 83 87) ∧
    decodeTableWord 32 0x00BB3C1D = some (.fsqrtF64 103 46) ∧
    decodeTableWord 32 0xA6916C9D = some (.fdivF64 45 36 83) ∧
    decodeTableWord 32 0x017D6D1D = some (.frcpF64 45 95) := by
  decide +kernel

/-- Major 0x0e of R69 and R60 to R64, every field at a value of its own. -/
theorem test_decode_major_0e_2 :
    decodeTableWord 32 0x01AFCD9D = some (.ftanhF32 121 107) ∧
    decodeTableWord 32 0x00B5AE1D = some (.fclassF32 53 45) ∧
    decodeTableWord 32 0x01B3BE9D = some (.fclassF64 119 108) ∧
    decodeTableWord 32 0x07C0BF1D = some (.froundF32 23 112 3) ∧
    decodeTableWord 32 0x05F5D79D = some (.froundF64 58 125 2) := by
  decide +kernel

/-- Major 0x0f of R69 and R60 to R64, every field at a value of its own. -/
theorem test_decode_major_0f_1 :
    decodeTableWord 32 0x86AFD81F = some (.shflIdx 123 43 67) ∧
    decodeTableWord 32 0x7F10989F = some (.shflUp 19 68 63) ∧
    decodeTableWord 32 0x6C68B11F = some (.shflDown 22 26 54) ∧
    decodeTableWord 32 0x6FE1799F = some (.shflXor 47 120 55) ∧
    decodeTableWord 32 0xB295F21F = some (.mshfl 62 37 89) ∧
    decodeTableWord 32 0x5774329F = some (.vmovs 6 93 43) ∧
    decodeTableWord 32 0x16DAF31F = some (.vlane 94 54 11) ∧
    decodeTableWord 32 0x01927C1F = some (.mstatMeanF32 79 100) ∧
    decodeTableWord 32 0x012FC49F = some (.mstatVarF32 120 75) ∧
    decodeTableWord 32 0x015A1D1F = some (.mstatMeanF64 67 86) ∧
    decodeTableWord 32 0x00DBC59F = some (.mstatVarF64 120 54) := by
  decide +kernel

/-- Major 0x0f of R69 and R60 to R64, every field at a value of its own. -/
theorem test_decode_major_0f_2 :
    decodeTableWord 32 0x49413E1F = some (.mstatQuantF32 39 80 36) ∧
    decodeTableWord 32 0xA5BF269F = some (.mstatRankF32 100 111 82) ∧
    decodeTableWord 32 0x01751F1F = some (.mstatMinF32 35 93) ∧
    decodeTableWord 32 0x0068279F = some (.mstatMaxF32 4 26) := by
  decide +kernel

/-- Major 0x10 of R69 and R60 to R64, every field at a value of its own. -/
theorem test_decode_major_10_1 :
    decodeTableWord 32 0x1D98B021 = some (.sadd 11 38 29) ∧
    decodeTableWord 32 0x0CAA80A1 = some (.ssub 40 42 12) ∧
    decodeTableWord 32 0x2CC4F121 = some (.smul 15 49 44) ∧
    decodeTableWord 32 0x2EA4C1A1 = some (.smulhI64 12 41 46) ∧
    decodeTableWord 32 0x3F7C3221 = some (.smulhN64 3 31 63) ∧
    decodeTableWord 32 0x042CF2A1 = some (.sand 15 11 4) ∧
    decodeTableWord 32 0x0827A321 = some (.sor 58 9 8) ∧
    decodeTableWord 32 0x0CF953A1 = some (.sxor 21 62 12) ∧
    decodeTableWord 32 0x2435F421 = some (.sshl 31 13 36) ∧
    decodeTableWord 32 0x1E6C34A1 = some (.sshr 3 27 30) ∧
    decodeTableWord 32 0x2B657521 = some (.ssar 23 25 43) := by
  decide +kernel

/-- Major 0x10 of R69 and R60 to R64, every field at a value of its own. -/
theorem test_decode_major_10_2 :
    decodeTableWord 32 0x261685A1 = some (.sminI64 40 5 38) ∧
    decodeTableWord 32 0x2E40E621 = some (.smaxI64 14 16 46) ∧
    decodeTableWord 32 0x0163A6A1 = some (.sminN64 58 24 1) ∧
    decodeTableWord 32 0x3D697721 = some (.smaxN64 23 26 61) ∧
    decodeTableWord 32 0x00DD27A1 = some (.smov 18 55) ∧
    decodeTableWord 32 0x00E1B821 = some (.spopc 27 56) ∧
    decodeTableWord 32 0x00B488A1 = some (.sclz 8 45) ∧
    decodeTableWord 32 0x18936921 = some (.sdivI64 54 36 24) ∧
    decodeTableWord 32 0x240FE9A1 = some (.sdivN64 62 3 36) ∧
    decodeTableWord 32 0x07528A21 = some (.sremI64 40 20 7) ∧
    decodeTableWord 32 0x218D3AA1 = some (.sremN64 19 35 33) := by
  decide +kernel

/-- Major 0x10 of R69 and R60 to R64, every field at a value of its own. -/
theorem test_decode_major_10_3 :
    decodeTableWord 32 0x26F56B21 = some (.sshli 22 61 38) ∧
    decodeTableWord 32 0x17F93BA1 = some (.sshri 19 62 23) ∧
    decodeTableWord 32 0x1B275C21 = some (.ssari 53 9 27) := by
  decide +kernel

/-- Major 0x11 of R69 and R60 to R64, every field at a value of its own. -/
theorem test_decode_major_11 :
    decodeTableWord 32 0xBD2D4DA3 = some (.saddi 27 53 1513) ∧
    decodeTableWord 32 0x50528F23 = some (.sandi 30 10 642) ∧
    decodeTableWord 32 0xF42673A3 = some (.sori 39 25 1953) ∧
    decodeTableWord 32 0x44137F23 = some (.sxori 62 13 544) := by
  decide +kernel

/-- Major 0x12 of R69 and R60 to R64, every field at a value of its own. -/
theorem test_decode_major_12 :
    decodeTableWord 32 0x1740B3A5 = some (.sli 39 47621) ∧
    decodeTableWord 32 0x803E0BA5 = some (.slih 23 496) := by
  decide +kernel

/-- Major 0x13 of R69 and R60 to R64, every field at a value of its own. -/
theorem test_decode_major_13 :
    decodeTableWord 32 0x07640027 = some (.scmp 25 7) ∧
    decodeTableWord 32 0x125400A7 = some (.scmpi 21 18) ∧
    decodeTableWord 32 0x29540127 = some (.stest 21 41) := by
  decide +kernel

/-- Major 0x14 of R69 and R60 to R64, every field at a value of its own. -/
theorem test_decode_major_14 :
    decodeTableWord 32 0x0C101829 = some (.pand 3 4 6) ∧
    decodeTableWord 32 0x040C20A9 = some (.por 4 3 2) ∧
    decodeTableWord 32 0x08143129 = some (.pxor 6 5 4) ∧
    decodeTableWord 32 0x020C11A9 = some (.pandn 2 3 1) ∧
    decodeTableWord 32 0x00083A29 = some (.pnot 7 2) ∧
    decodeTableWord 32 0x00003AA9 = some (.pset 7) ∧
    decodeTableWord 32 0x00002329 = some (.pclr 4) ∧
    decodeTableWord 32 0x00100BA9 = some (.ppopc 1 4) := by
  decide +kernel

/-- Major 0x15 of R69 and R60 to R64, every field at a value of its own. -/
theorem test_decode_major_15 :
    decodeTableWord 32 0x409242AB = some (.vsel 5 72 36 32) ∧
    decodeTableWord 32 0x00F7C42B = some (.vmov 120 61) ∧
    decodeTableWord 32 0x000F2CAB = some (.vbcast 101 3) ∧
    decodeTableWord 32 0x0010152B = some (.pmov 2 4) ∧
    decodeTableWord 32 0x021C95AB = some (.pext 18 7 1) ∧
    decodeTableWord 32 0x044C362B = some (.pins 6 19 2) ∧
    decodeTableWord 32 0x001606AB = some (.vmovp 64 5) ∧
    decodeTableWord 32 0x010C272B = some (.pmovv 4 67) := by
  decide +kernel

/-- The compact halfwords of R60. -/
theorem test_decode_half_1 :
    decodeTableWord 16 0xE540 = some (.faddF32Compact 42 28) ∧
    decodeTableWord 16 0xECE2 = some (.fsubF32Compact 39 29) ∧
    decodeTableWord 16 0xEE04 = some (.fmulF32Compact 48 29) ∧
    decodeTableWord 16 0x0906 = some (.fmaxF32Compact 8 1) ∧
    decodeTableWord 16 0x2E28 = some (.fminF32Compact 49 5) ∧
    decodeTableWord 16 0x528A = some (.vaddI32Compact 20 10) ∧
    decodeTableWord 16 0xBC6C = some (.vsubI32Compact 35 23) ∧
    decodeTableWord 16 0xA2CE = some (.vmulI32Compact 22 20) ∧
    decodeTableWord 16 0xC270 = some (.vandCompact 19 24) ∧
    decodeTableWord 16 0x0C52 = some (.vorCompact 34 1) ∧
    decodeTableWord 16 0x63D4 = some (.vxorCompact 30 12) := by
  decide +kernel

/-- The compact halfwords of R60. -/
theorem test_decode_half_2 :
    decodeTableWord 16 0xB316 = some (.vshlCompact 24 22) ∧
    decodeTableWord 16 0xDE18 = some (.vshrCompact 48 27) ∧
    decodeTableWord 16 0x2CDA = some (.vsarCompact 38 5) ∧
    decodeTableWord 16 0x087C = some (.vmovCompact 3 1) ∧
    decodeTableWord 16 0x923E = some (.vnotCompact 17 18) := by
  decide +kernel

/-- Major 0x18 of R69 and R60 to R64, every field at a value of its own. -/
theorem test_decode_major_18 :
    decodeTableWord 32 0xE9463031 = some (.bra 1910982) ∧
    decodeTableWord 32 0x37176DB1 = some (.brc 11 451309) := by
  decide +kernel

/-- Major 0x19 of R69 and R60 to R64, every field at a value of its own. -/
theorem test_decode_major_19 :
    decodeTableWord 32 0x61F17B33 = some (.brd 6 559 783) ∧
    decodeTableWord 32 0x00000433 = some .join := by
  decide +kernel

/-- Major 0x1a of R69 and R60 to R64, every field at a value of its own. -/
theorem test_decode_major_1a :
    decodeTableWord 32 0x07747835 = some (.call 61071) ∧
    decodeTableWord 32 0x000000B5 = some .ret ∧
    decodeTableWord 32 0x0000E135 = some (.jmpi 28) := by
  decide +kernel

/-- Major 0x1b of R69 and R60 to R64, every field at a value of its own. -/
theorem test_decode_major_1b :
    decodeTableWord 32 0xDAFFA6B7 = some (.loop 13 1794036) := by
  decide +kernel

/-- Major 0x1c of R69 and R60 to R64, every field at a value of its own. -/
theorem test_decode_major_1c :
    decodeTableWord 32 0x00000039 = some .nop ∧
    decodeTableWord 32 0x270000B9 = some (.trap 39) ∧
    decodeTableWord 32 0x01000139 = some (.tret 1) ∧
    decodeTableWord 32 0x32B401B9 = some (.yield 45 50) ∧
    decodeTableWord 32 0x1399C239 = some (.ginsp 28 38 19) ∧
    decodeTableWord 32 0x32A802B9 = some (.gresume 42 50) := by
  decide +kernel

/-- Major 0x1d of R69 and R60 to R64, every field at a value of its own. -/
theorem test_decode_major_1d :
    decodeTableWord 32 0x0000003B = some .exit ∧
    decodeTableWord 32 0x000000BB = some .exitSucc ∧
    decodeTableWord 32 0x14EDF13B = some (.enq 31 59 20) := by
  decide +kernel

/-- Major 0x1e of R69 and R60 to R64, every field at a value of its own. -/
theorem test_decode_major_1e :
    decodeTableWord 32 0x002CA03D = some (.mfcr 10 11) ∧
    decodeTableWord 32 0x0070A0BD = some (.mtcr 10 28) ∧
    decodeTableWord 32 0x0002613D = some (.clock 38) ∧
    decodeTableWord 32 0x0102F1BD = some (.mode 47 1) := by
  decide +kernel

/-- Major 0x1f of R69 and R60 to R64, every field at a value of its own. -/
theorem test_decode_major_1f :
    decodeTableWord 32 0x00EC003F = some (.mkey 59) ∧
    decodeTableWord 32 0x14C400BF = some (.mregroup 49 20) ∧
    decodeTableWord 32 0x00B4013F = some (.mrestore 45) := by
  decide +kernel

/-- Major 0x20 of R69 and R60 to R64, every field at a value of its own. -/
theorem test_decode_major_20 :
    decodeTableWord 32 0xB9D79C41 = some (.ld 8 115 53 (some 57)) := by
  decide +kernel

/-- Major 0x21 of R69 and R60 to R64, every field at a value of its own. -/
theorem test_decode_major_21 :
    decodeTableWord 32 0x0019F2C3 = some (.st 5 62 6 none) := by
  decide +kernel

/-- Major 0x22 of R69 and R60 to R64, every field at a value of its own. -/
theorem test_decode_major_22 :
    decodeTableWord 32 0x942489C5 = some (.lds 3 17 9 (some 20)) ∧
    decodeTableWord 32 0x00B50645 = some (.sts 4 32 45 none) := by
  decide +kernel

/-- Major 0x23 of R69 and R60 to R64, every field at a value of its own. -/
theorem test_decode_major_23 :
    decodeTableWord 32 0xBF8042C7 = some (.ldHn 5 8 32 (some 63)) ∧
    decodeTableWord 32 0x665227C7 = some (.hnchk 4 13097) := by
  decide +kernel

/-- Major 0x24 of R69 and R60 to R64, every field at a value of its own. -/
theorem test_decode_major_24 :
    decodeTableWord 32 0xF6E52EC9 = some (.atom 13 37 57 6 15) := by
  decide +kernel

/-- Major 0x25 of R69 and R60 to R64, every field at a value of its own. -/
theorem test_decode_major_25 :
    decodeTableWord 32 0x6D6C514B = some (.red 2 10 27 13 6) := by
  decide +kernel

/-- Major 0x26 of R69 and R60 to R64, every field at a value of its own. -/
theorem test_decode_major_26 :
    decodeTableWord 32 0x7000004D = some (.fenceAcq 7) ∧
    decodeTableWord 32 0xD00000CD = some (.fenceRel 13) ∧
    decodeTableWord 32 0xD000014D = some (.fenceFull 13) ∧
    decodeTableWord 32 0x00AC09CD = some (.pfetch 1 43 none) ∧
    decodeTableWord 32 0x00C4624D = some (.llcflush 12 49) := by
  decide +kernel

/-- Major 0x27 of R69 and R60 to R64, every field at a value of its own. -/
theorem test_decode_major_27 :
    decodeTableWord 32 0x00A8004F = some (.cpy 42) ∧
    decodeTableWord 32 0x008800CF = some (.cpy2 34) ∧
    decodeTableWord 32 0x00E8014F = some (.hcpy 58) := by
  decide +kernel

/-- Major 0x28 of R69 and R60 to R64, every field at a value of its own. -/
theorem test_decode_major_28 :
    decodeTableWord 32 0x3B380051 = some (.binit 14 59) ∧
    decodeTableWord 32 0x15A0B0D1 = some (.barr 11 40 21) ∧
    decodeTableWord 32 0x15640151 = some (.bexp 25 21) ∧
    decodeTableWord 32 0x2DD821D1 = some (.bwait 2 54 45) ∧
    decodeTableWord 32 0x2D939251 = some (.btest 57 36 45) ∧
    decodeTableWord 32 0x00B802D1 = some (.binval 46) := by
  decide +kernel

/-- Major 0x29 of R69 and R60 to R64, every field at a value of its own. -/
theorem test_decode_major_29 :
    decodeTableWord 32 0x00FC0053 = some (.rput 63) ∧
    decodeTableWord 32 0x006000D3 = some (.rget 24) := by
  decide +kernel

/-- Major 0x2a of R69 and R60 to R64, every field at a value of its own. -/
theorem test_decode_major_2a :
    decodeTableWord 32 0x07E50055 = some (.ctarm 16 57 7) ∧
    decodeTableWord 32 0x004CE0D5 = some (.ctdisarm 14 19) ∧
    decodeTableWord 32 0x12D14155 = some (.ctquery 20 52 18) := by
  decide +kernel

/-- Major 0x2b of R69 and R60 to R64, every field at a value of its own. -/
theorem test_decode_major_2b :
    decodeTableWord 32 0x05A34057 = some (.xlate 52 40 5) ∧
    decodeTableWord 32 0x0BF7A0D7 = some (.tlbinv 58 61 11) := by
  decide +kernel

/-- Major 0x30 of R69 and R60 to R64, every field at a value of its own. -/
theorem test_decode_major_30 :
    decodeTableWord 32 0x00005061 = some (.tclaim 5) ∧
    decodeTableWord 32 0x0000C0E1 = some (.trel 12) ∧
    decodeTableWord 32 0x05A8F161 = some (.tld 15 42 5) ∧
    decodeTableWord 32 0x0000F1E1 = some (.tzero 15) := by
  decide +kernel

/-- Major 0x31 of R69 and R60 to R64, every field at a value of its own. -/
theorem test_decode_major_31 :
    decodeTableWord 32 0x006CC063 = some (.aballoc 12 27) ∧
    decodeTableWord 32 0x000020E3 = some (.abfree 2) ∧
    decodeTableWord 32 0x0000A163 = some (.abzero 10) := by
  decide +kernel

/-- Major 0x32 of R69 and R60 to R64, every field at a value of its own. -/
theorem test_decode_major_32 :
    decodeTableWord 32 0x64739865 = some (.mma 19 3 7 4 6) ∧
    decodeTableWord 32 0x812C58E5 = some (.mmaZ 11 12 2 1 8) := by
  decide +kernel

/-- Major 0x33 of R69 and R60 to R64, every field at a value of its own. -/
theorem test_decode_major_33 :
    decodeTableWord 32 0x629E2867 = some (.mmas 5 14 9 2 6) ∧
    decodeTableWord 32 0x6A2168E7 = some (.mmasZ 13 1 2 10 6) := by
  decide +kernel

/-- Major 0x34 of R69 and R60 to R64, every field at a value of its own. -/
theorem test_decode_major_34 :
    decodeTableWord 32 0x781B2869 = some (.mmaMb 5 11 1 8 7) ∧
    decodeTableWord 32 0x82C6F8E9 = some (.mmaMbZ 31 6 12 2 8) := by
  decide +kernel

/-- Major 0x35 of R69 and R60 to R64, every field at a value of its own. -/
theorem test_decode_major_35 :
    decodeTableWord 32 0x0003106B = some (.mfence 49) ∧
    decodeTableWord 32 0x00F400EB = some (.mwait 61) := by
  decide +kernel

/-- Major 0x36 of R69 and R60 to R64, every field at a value of its own. -/
theorem test_decode_major_36 :
    decodeTableWord 32 0x05B9786D = some (.acld 47 46 5) ∧
    decodeTableWord 32 0x0D2010ED = some (.acst 2 8 13) := by
  decide +kernel

/-- Major 0x37 of R69 and R60 to R64, every field at a value of its own. -/
theorem test_decode_major_37 :
    decodeTableWord 32 0x760F406F = some (.mred 2 15 6 7) := by
  decide +kernel

/-- Major 0x38 of R69 and R60 to R64, every field at a value of its own. -/
theorem test_decode_major_38 :
    decodeTableWord 32 0x013C0071 = some (.xinit 15 4) ∧
    decodeTableWord 32 0x014B28F1 = some (.xaddF64 101 2 5) ∧
    decodeTableWord 32 0x01147971 = some (.xaddF32 15 5 4) ∧
    decodeTableWord 32 0x867961F1 = some (.xaddpF32 44 14 1 67) ∧
    decodeTableWord 32 0xD6D00271 = some (.xmerge 4 3 11 6) ∧
    decodeTableWord 32 0x009DF5F1 = some (.xroundF64 3 62 7 2) ∧
    decodeTableWord 32 0x00E066F1 = some (.xroundF32 1 12 8 3) := by
  decide +kernel

/-- Major 0x39 of R69 and R60 to R64, every field at a value of its own. -/
theorem test_decode_major_39 :
    decodeTableWord 32 0x00FA4873 = some (.xpack 9 4 62) ∧
    decodeTableWord 32 0x00FC90F3 = some (.xunpack 2 1 63) ∧
    decodeTableWord 32 0x00FD2173 = some (.xld 4 2 63) ∧
    decodeTableWord 32 0x000669F3 = some (.xst 13 4 1) := by
  decide +kernel

/-! ## Reserved values -/

/-- Each reserved value is refused (R71). -/
theorem test_ill_formed_cvt :
    Instr.wf (.cvt 0 1 2 14 8) = false ∧
    Instr.wf (.cvt 0 1 2 8 14) = false ∧
    Instr.wf (.cvt 0 1 2 8 8) = false ∧
    Instr.wf (.cvt 1 2 3 5 7) = false := by
  decide +kernel

/-- Each reserved value is refused (R71). -/
theorem test_ill_formed_compact_zero :
    Instr.wf (.faddF32Compact 0 0) = false := by
  decide +kernel

/-- Each reserved value is refused (R71). -/
theorem test_ill_formed_branches :
    Instr.wf (.brc 0 1) = false ∧
    Instr.wf (.brc 12 1) = false ∧
    Instr.wf (.brd 1 1 1) = false ∧
    Instr.wf (.tret 2) = false := by
  decide +kernel

/-- Each reserved value is refused (R71). -/
theorem test_ill_formed_control_registers :
    Instr.wf (.mfcr 1 22) = false ∧
    Instr.wf (.mtcr 22 1) = false ∧
    Instr.wf (.mode 1 2) = false := by
  decide +kernel

/-- Each reserved value is refused (R71). -/
theorem test_ill_formed_element_types :
    Instr.wf (.ld 15 1 2 none) = false ∧
    Instr.wf (.st 15 1 2 none) = false ∧
    Instr.wf (.lds 6 1 2 none) = false ∧
    Instr.wf (.sts 6 1 2 none) = false ∧
    Instr.wf (.ldHn 3 1 2 none) = false ∧
    Instr.wf (.ldHn 10 1 2 none) = false := by
  decide +kernel

/-- Each reserved value is refused (R71). -/
theorem test_ill_formed_red_and_pfetch :
    Instr.wf (.red 12 1 2 3 4) = false ∧
    Instr.wf (.red 14 1 2 3 4) = false ∧
    Instr.wf (.pfetch 2 1 none) = false := by
  decide +kernel

/-- Each reserved value is refused (R71). -/
theorem test_ill_formed_barrier_scope :
    Instr.wf (.barr 1 2 3) = false ∧
    Instr.wf (.bwait 1 2 3) = false := by
  decide +kernel

/-- Each reserved value is refused (R71). -/
theorem test_ill_formed_matrix_handles :
    Instr.wf (.tclaim 16) = false ∧
    Instr.wf (.trel 16) = false ∧
    Instr.wf (.tld 16 1 2) = false ∧
    Instr.wf (.tzero 16) = false ∧
    Instr.wf (.aballoc 16 1) = false ∧
    Instr.wf (.abfree 16) = false ∧
    Instr.wf (.abzero 16) = false := by
  decide +kernel

/-- Each reserved value is refused (R71). -/
theorem test_ill_formed_matrix_types :
    Instr.wf (.mma 1 2 3 4 10) = false ∧
    Instr.wf (.mmaZ 1 2 3 4 10) = false ∧
    Instr.wf (.mmas 1 2 3 4 3) = false ∧
    Instr.wf (.mmas 1 2 3 4 8) = false ∧
    Instr.wf (.mmasZ 1 2 3 4 3) = false ∧
    Instr.wf (.mmasZ 1 2 3 4 8) = false ∧
    Instr.wf (.mmaMb 1 2 3 4 10) = false ∧
    Instr.wf (.mmaMbZ 1 2 3 4 10) = false ∧
    Instr.wf (.mred 1 2 3 10) = false := by
  decide +kernel

/-- Each reserved value is refused (R71). -/
theorem test_ill_formed_accumulator_slots :
    Instr.wf (.xinit 1 7) = false ∧
    Instr.wf (.xaddF64 1 2 7) = false ∧
    Instr.wf (.xaddF32 1 2 7) = false ∧
    Instr.wf (.xaddpF32 1 2 7 3) = false ∧
    Instr.wf (.xmerge 1 7 2 3) = false ∧
    Instr.wf (.xmerge 1 3 2 7) = false ∧
    Instr.wf (.xroundF64 0 1 2 7) = false ∧
    Instr.wf (.xroundF32 0 1 2 7) = false ∧
    Instr.wf (.xpack 1 7 2) = false ∧
    Instr.wf (.xunpack 1 7 2) = false ∧
    Instr.wf (.xld 1 7 2) = false ∧
    Instr.wf (.xst 1 7 2) = false := by
  decide +kernel

/-- The values at the edge of each range stand (R71). -/
theorem test_well_formed_edges_1 :
    Instr.wf (.cvt 0 1 2 13 8) = true ∧
    Instr.wf (.cvt 1 2 3 5 8) = true ∧
    Instr.wf (.faddF32Compact 0 1) = true ∧
    Instr.wf (.brc 1 1) = true ∧
    Instr.wf (.brc 11 1) = true ∧
    Instr.wf (.brd 1 2 1) = true ∧
    Instr.wf (.tret 1) = true ∧
    Instr.wf (.mfcr 1 21) = true ∧
    Instr.wf (.mtcr 21 1) = true ∧
    Instr.wf (.mode 1 1) = true ∧
    Instr.wf (.ld 14 1 2 none) = true ∧
    Instr.wf (.lds 5 1 2 none) = true := by
  decide +kernel

/-- The values at the edge of each range stand (R71). -/
theorem test_well_formed_edges_2 :
    Instr.wf (.ldHn 4 1 2 none) = true ∧
    Instr.wf (.ldHn 9 1 2 none) = true ∧
    Instr.wf (.red 11 1 2 3 4) = true ∧
    Instr.wf (.red 15 1 2 3 4) = true ∧
    Instr.wf (.pfetch 1 1 none) = true ∧
    Instr.wf (.barr 2 2 3) = true ∧
    Instr.wf (.tclaim 15) = true ∧
    Instr.wf (.mma 1 2 3 4 9) = true ∧
    Instr.wf (.mmas 1 2 3 4 4) = true ∧
    Instr.wf (.mmas 1 2 3 4 7) = true ∧
    Instr.wf (.xinit 1 6) = true := by
  decide +kernel

/-- Majors 0x00 and 0x3F and the halfword 0x0000 are no instruction (R61, R71). -/
theorem test_refused_majors :
    readWord 0x00000001 = .error .reservedMajor ∧ readWord 0x0000007F = .error .reservedMajor ∧
    readWord 0x0000002D = .error .reservedMajor ∧ readHalf 0x0000 = .error .reservedValue :=
  ⟨rfl, rfl, rfl, rfl⟩

/-- Bit [31] beside a uniform second source (R63), a nonzero field of nop (R62) and an index without its present bit
(R62) are refused. -/
theorem test_refused_bits :
    readWord 0x98244403 = .error .reservedBits ∧ readWord 0x00001039 = .error .reservedBits ∧
    readWord 0x02286441 = .error .reservedBits :=
  ⟨rfl, rfl, rfl⟩

/-- A condition of 12 and a control register index of 22 are refused (R66, R74). -/
theorem test_refused_values :
    readWord 0x00000631 = .error .reservedValue ∧
    readWord 0x0059403D = .error .reservedValue ∧
    decodeTableWord 32 0x0055403D = some (.mfcr 20 21) :=
  ⟨rfl, rfl, by decide +kernel⟩

end Sys2Proof.Tests
end

