-- ==== Sys2Proof/Tests/Values.lean ====
section
/-! SUPPORT. Witnesses of the statements about arithmetic: states and operands that meet the hypotheses of each clause. -/

namespace Sys2Proof.Tests

open Sys2Proof.Machine Sys2Proof.Claims

set_option maxRecDepth 100000
set_option Elab.async false

/-- A part whose s5 is a value. -/
def partS (x : Word64) : State := part (fun g => g.setS 5 x)

/-! ## Integer, uniform and predicate instructions -/

/-- IntegerVector: a second source in a vector register, and in the last uniform register with the last vector register. -/
theorem met_integer_vector : (∃ f, wordTable (.vaddI32 2 3 (.v 4)) = some (2, 3, .v 4, f) ∧ Ready base (iss base) (.vaddI32 2 3 (.v 4))) ∧
    ∃ f, wordTable (.vbfx 127 127 (.s 63)) = some (127, 127, .s 63, f) ∧ Ready base (iss base) (.vbfx 127 127 (.s 63)) :=
  ⟨⟨_, rfl, ready (by decide +kernel)⟩, ⟨_, rfl, ready (by decide +kernel)⟩⟩

/-- IntegerPair. -/
theorem met_integer_pair : ∃ f, pairTable (.vaddI64 126 4 (.v 6)) = some (126, 4, .v 6, f) ∧ Ready base (iss base) (.vaddI64 126 4 (.v 6)) :=
  ⟨_, rfl, ready (by decide +kernel)⟩

/-- IntegerImmediate. -/
theorem met_integer_immediate : ∃ f, immediateTable (.vaddi 2 3 (-1024)) = some (2, 3, f) ∧ Ready base (iss base) (.vaddi 2 3 (-1024)) :=
  ⟨_, rfl, ready (by decide +kernel)⟩

/-- IntegerCompare, its three clauses. -/
theorem met_integer_compare : (∃ f, compareTable (.vcmpLtI32 7 3 (.v 4)) = some (7, 3, .v 4, f) ∧ Ready base (iss base) (.vcmpLtI32 7 3 (.v 4))) ∧
    (∃ f, comparePairTable (.vcmpEqI64 1 2 (.v 4)) = some (1, 2, .v 4, f) ∧ Ready base (iss base) (.vcmpEqI64 1 2 (.v 4))) ∧
    ∃ f, compareImmediateTable (.vcmpiGeN32 1 2 (-128)) = some (1, 2, f) ∧ Ready base (iss base) (.vcmpiGeN32 1 2 (-128)) :=
  ⟨⟨_, rfl, ready (by decide +kernel)⟩, ⟨_, rfl, ready (by decide +kernel)⟩, ⟨_, rfl, ready (by decide +kernel)⟩⟩

/-- UniformArithmetic: the most negative dividend and divisor 0, in the registers at the ends of the file. -/
theorem met_uniform_arithmetic : ∃ s x, (iss s).g.s 4 = BitVec.ofInt 64 (-2 ^ 63) ∧ (iss s).g.s 9 = 0 ∧
    uniformTable (iss s) (.sdivI64 63 4 9) = some (63, x) ∧ Ready s (iss s) (.sdivI64 63 4 9) :=
  ⟨part (fun g => g.setS 4 (BitVec.ofInt 64 (-2 ^ 63))), _, by decide +kernel, by decide +kernel, rfl, ready (by decide +kernel)⟩

/-- UniformCondition. -/
theorem met_uniform_condition : ∃ eq lt lo, conditionTable (iss base) (.scmpi 4 (-32)) = some (eq, lt, lo) ∧
    Ready base (iss base) (.scmpi 4 (-32)) := ⟨_, _, _, rfl, ready (by decide +kernel)⟩

/-- PredicateOperations: a predicate that is its own source. -/
theorem met_predicate_operations : ∃ w x, predicateTable (iss base) (.pnot 7 7) = some (7, w, x) ∧ Ready base (iss base) (.pnot 7 7) :=
  ⟨_, _, rfl, ready (by decide +kernel)⟩

/-- MovesAndCompact, its two clauses. -/
theorem met_moves_and_compact : (∃ x, moveTable (iss base) (.vsel 7 2 3 4) = some (2, x) ∧ Ready base (iss base) (.vsel 7 2 3 4)) ∧
    ∃ f, compactTable (.vsubI32Compact 5 5) = some (5, 5, f) ∧ Ready base (iss base) (.vsubI32Compact 5 5) :=
  ⟨⟨_, rfl, ready (by decide +kernel)⟩, ⟨_, rfl, ready (by decide +kernel)⟩⟩

/-! ## Numbers, floating-point and lane instructions -/

/-- RoundingKeepsCodes: the greatest finite code of f16. -/
theorem met_rounding_keeps : fmtF16 ∈ ieeeFormats ∧ ∃ neg m e, 0x7BFF < 2 ^ fmtF16.width ∧ fmtF16.decode 0x7BFF = .fin neg m e :=
  ⟨by decide +kernel, false, 0x7FF, 5, by decide +kernel, by decide +kernel⟩

/-- RoundingNearest: 1 + 2^-30 goes to f32 without overflow. -/
theorem met_rounding_nearest : fmtF32 ∈ ieeeFormats ∧ (2 ^ 30 + 1 ≠ 0) ∧
    (roundFmt fmtF32 0 false { m := 2 ^ 30 + 1, e := -30, more := false }).2.getLsbD 2 = false :=
  ⟨by decide +kernel, by decide, by decide +kernel⟩

/-- MinimumMaximum: two NaN, the first, the second, and zeros of both signs. -/
theorem met_minimum_maximum : fmtF32 ∈ ieeeFormats ∧ 0x7FC00001 < 2 ^ fmtF32.width ∧ fmtF32.decode 0x7FC00001 = .nan ∧
    fmtF32.decode 0x80000000 ≠ .nan ∧ (fmtF32.decode 0x80000000).isZero = true ∧ (fmtF32.decode 0).isZero = true ∧
    (fmtF32.decode 0x80000000).neg ≠ (fmtF32.decode 0).neg := by decide +kernel

/-- FloatVector, its two clauses. -/
theorem met_float_vector : (∃ x, floatTable (iss base) (.fmaF32 3 2 3 4) = some (2, x) ∧ Ready base (iss base) (.fmaF32 3 2 3 4)) ∧
    ∃ x, floatPairTable (iss base) (.faddF64 2 4 (.s 63)) = some (2, x) ∧ Ready base (iss base) (.faddF64 2 4 (.s 63)) :=
  ⟨⟨_, rfl, ready (by decide +kernel)⟩, ⟨_, rfl, ready (by decide +kernel)⟩⟩

/-- FloatCompare. -/
theorem met_float_compare : ∃ x, floatCompareTable (iss base) (.fcmpUnF32 7 3 (.v 4)) = some (7, x, fmtF32, 3) ∧
    Ready base (iss base) (.fcmpUnF32 7 3 (.v 4)) := ⟨_, rfl, ready (by decide +kernel)⟩

/-- A queue entry of the staged group's core. -/
def anEntry : QEntry := { core := 0, slot := 0, dst := 2, pair := true, mask := 1, values := [7], flags := 16 }

/-- A part whose queues hold n entries each. -/
def partQ (n : Nat) : State := { base with eng := { Engines.reset with sfq := List.replicate n anEntry, cvtq := List.replicate n anEntry } }

/-- SpecialFunctionIssue and ConversionIssue with 31 entries in the queues: both use registers that no entry names. -/
theorem met_queue_issue : (∃ x, queueTable (iss (partQ 31)) (.frcpF32 8 4) = some (8, false, x) ∧
      Ready (partQ 31) (iss (partQ 31)) (.frcpF32 8 4) ∧ entriesOf (partQ 31).eng.sfq (iss (partQ 31)).g.core < 32) ∧
    Ready (partQ 31) (iss (partQ 31)) (.cvt 1 4 6 5 8) ∧ entriesOf (partQ 31).eng.cvtq (iss (partQ 31)).g.core < 32 :=
  ⟨⟨_, rfl, ready (by decide +kernel), by decide +kernel⟩, ready (by decide +kernel), by decide +kernel⟩

/-- QueueEntryCompletes: an entry behind one of another core, in both queues. -/
theorem met_queue_entry : ∃ (s : State) (g : Group), s.mgmt.devState ≠ .fatal ∧ (∀ p ∈ [{ anEntry with core := 1 }], p.core ≠ anEntry.core) ∧
    s.group? anEntry.core anEntry.slot = some g ∧ s.eng.sfq = [{ anEntry with core := 1 }] ++ anEntry :: [] ∧
    s.eng.cvtq = [{ anEntry with core := 1 }] ++ anEntry :: [] :=
  ⟨{ base with eng := { Engines.reset with sfq := [{ anEntry with core := 1 }, anEntry], cvtq := [{ anEntry with core := 1 }, anEntry] } },
    stageGroup, by decide +kernel, by decide, by decide +kernel, rfl, rfl⟩

/-- LaneMovement: a movement, and vmovs of element 31 of a group of one member. -/
theorem met_lane_movement : (∃ x, shuffleTable (iss base) (.shflDown 2 2 5) = some (2, x) ∧ Ready base (iss base) (.shflDown 2 2 5)) ∧
    Ready (partS 31) (iss (partS 31)) (.vmovs 20 9 5) ∧ ((iss (partS 31)).g.s 5).toNat % 256 < 32 * (iss (partS 31)).g.members :=
  ⟨⟨_, rfl, ready (by decide +kernel)⟩, ready (by decide +kernel), by decide +kernel⟩

end Sys2Proof.Tests
end

section
/-! PROOFS. Number formats (spec file 02): dyadic numbers as rationals, what the codes of an IEEE format decode to, and the values
of consecutive magnitude codes (R31). -/

namespace Sys2Proof.Machine

open Sys2Proof.Claims

/-! ## Powers of two -/

/-- The rational 2^e. -/
def pow2 (e : Int) : Rat := 2 ^ e

theorem two_ne_zero_rat : (2 : Rat) ≠ 0 := by decide

theorem pow2_pos (e : Int) : 0 < pow2 e := Rat.zpow_pos (by decide)

theorem pow2_add (p q : Int) : pow2 (p + q) = pow2 p * pow2 q := Rat.zpow_add two_ne_zero_rat p q

theorem pow2_succ (e : Int) : pow2 (e + 1) = pow2 e + pow2 e := by
  have h : pow2 (e + 1) = pow2 e * 2 := Rat.zpow_add_one two_ne_zero_rat e
  grind

theorem pow2_natCast (n : Nat) : pow2 n = ((2 ^ n : Nat) : Rat) := by
  rw [Rat.natCast_pow]; exact Rat.zpow_natCast 2 n

theorem pow2_mul_toNat {p q : Int} (h : p ≤ q) : pow2 p * ((2 ^ (q - p).toNat : Nat) : Rat) = pow2 q := by
  rw [← pow2_natCast, ← pow2_add, Int.toNat_of_nonneg (by omega), show p + (q - p) = q by omega]

theorem pow2_le {p q : Int} (h : p ≤ q) : pow2 p ≤ pow2 q := by
  have h1 : ((1 : Nat) : Rat) ≤ ((2 ^ (q - p).toNat : Nat) : Rat) := Rat.natCast_le_natCast.2 Nat.one_le_two_pow
  have h2 := Rat.mul_le_mul_of_nonneg_left h1 (Rat.le_of_lt (pow2_pos p))
  rw [pow2_mul_toNat h] at h2
  grind

/-! ## Exact dyadic numbers as rationals -/

/-- The rational number that a dyadic number is. -/
def Dy.val (a : Dy) : Rat := a.m * pow2 a.e

theorem Dy.val_add (a b : Dy) : (a.add b).val = a.val + b.val := by
  unfold Dy.add Dy.val
  split
  · next h =>
    have := pow2_mul_toNat h
    push_cast at this ⊢; grind
  · next h =>
    have := pow2_mul_toNat (Int.le_of_not_le h)
    push_cast at this ⊢; grind

theorem Dy.m_nonpos_iff (a : Dy) : a.m ≤ 0 ↔ a.val ≤ 0 := by
  rw [← Int.not_lt, ← Rat.not_lt, Dy.val, Rat.mul_pos_iff_of_pos_right (pow2_pos _), Rat.intCast_pos]

theorem Dy.m_ne_zero_iff (a : Dy) : a.m ≠ 0 ↔ a.val ≠ 0 := by
  have := pow2_pos a.e
  rw [Dy.val, Ne, Ne, Rat.mul_eq_zero, Rat.intCast_eq_zero_iff, or_iff_left (by grind)]

theorem Dy.val_ofMag (neg : Bool) (m : Nat) (e : Int) :
    (Dy.ofMag neg m e).val = if neg then -(m * pow2 e) else m * pow2 e := by
  cases neg
  · simp only [Dy.ofMag, Dy.val, Bool.false_eq_true, if_false, Rat.intCast_natCast]
  · simp only [Dy.ofMag, Dy.val, if_true, Rat.intCast_neg, Rat.intCast_natCast, Rat.neg_mul]

theorem dyLe_iff (a b : Dy) : dyLe a b ↔ a.val ≤ b.val := by
  rw [dyLe, Dy.m_nonpos_iff, Dy.val_add, show Dy.val { m := -b.m, e := b.e } = -b.val by rw [Dy.val, Dy.val, Rat.intCast_neg, Rat.neg_mul]]
  grind

theorem abs_mul_of_pos (x : Rat) {y : Rat} (h : 0 < y) : (x * y).abs = x.abs * y := by
  by_cases hx : 0 ≤ x
  · rw [Rat.abs_of_nonneg hx, Rat.abs_of_nonneg (Rat.mul_nonneg hx (Rat.le_of_lt h))]
  · have hn : x * y < 0 := (Rat.mul_neg_iff_of_pos_right h).2 (Rat.not_le.1 hx)
    rw [Rat.abs_of_nonpos (Rat.le_of_lt (Rat.not_le.1 hx)), Rat.abs_of_nonpos (Rat.le_of_lt hn), Rat.neg_mul]

theorem abs_intCast (m : Int) : (m : Rat).abs = (m.natAbs : Int) := by
  rcases Int.le_total 0 m with h | h
  · rw [Rat.abs_of_nonneg (Rat.intCast_nonneg.2 h), Int.natAbs_of_nonneg h]
  · rw [Rat.abs_of_nonpos (Rat.intCast_nonpos.2 h), Int.ofNat_natAbs_of_nonpos h, Rat.intCast_neg]

theorem distance_val (m : Nat) (e : Int) (n : Nat) (d : Int) : (distance m e n d).val = (m * pow2 e - n * pow2 d).abs := by
  have hs := Dy.val_add (Dy.ofMag false m e) (Dy.ofMag true n d)
  rw [Dy.val_ofMag, Dy.val_ofMag, if_neg Bool.false_ne_true, if_pos rfl, ← Rat.sub_eq_add_neg] at hs
  rw [← hs, Dy.val, Dy.val, abs_mul_of_pos _ (pow2_pos _), abs_intCast]
  rfl

/-! ## The codes of an IEEE format (R31) -/

/-- The layout of R31: infinities and NaN stand above the finite codes, in an exponent field of at least two codes. -/
structure Fmt.IsIeee (f : Fmt) : Prop where
  hasSpecials : f.allFinite = false
  fields : f.frac + 2 ≤ f.width

theorem isIeee_of_mem {f : Fmt} (h : f ∈ ieeeFormats) : f.IsIeee := by
  simp only [ieeeFormats, List.mem_cons, List.not_mem_nil, or_false] at h
  obtain rfl | rfl | rfl | rfl := h <;> exact ⟨rfl, by decide⟩

/-- The sign of a code. -/
def Fmt.isNeg (f : Fmt) (c : Nat) : Bool := c / f.signBit % 2 == 1

/-- The significand of a finite magnitude code. -/
def Fmt.sig (f : Fmt) (mag : Nat) : Nat :=
  if mag / 2 ^ f.frac = 0 then mag % 2 ^ f.frac else 2 ^ f.frac + mag % 2 ^ f.frac

/-- The exponent of the last bit of that significand. -/
def Fmt.expo (f : Fmt) (mag : Nat) : Int :=
  if mag / 2 ^ f.frac = 0 then f.emin - f.frac else (mag / 2 ^ f.frac : Nat) - f.bias - f.frac

/-- The value of a finite magnitude code. -/
def Fmt.magVal (f : Fmt) (mag : Nat) : Rat := f.sig mag * pow2 (f.expo mag)

theorem Fmt.signBit_pos (f : Fmt) : 0 < f.signBit := Nat.two_pow_pos _

theorem Fmt.infMag_add {f : Fmt} (h : f.IsIeee) : f.infMag + 2 ^ f.frac = f.signBit := by
  have hw := h.fields
  rw [Fmt.infMag, Fmt.emask, Fmt.signBit, ← Nat.succ_mul, Nat.succ_eq_add_one, Nat.sub_add_cancel Nat.one_le_two_pow,
    ← Nat.pow_add, Nat.sub_add_cancel (by omega)]

theorem Fmt.infMag_pos {f : Fmt} (h : f.IsIeee) : 0 < f.infMag := by
  have hw := h.fields
  exact Nat.mul_pos (Nat.sub_pos_of_lt (Nat.one_lt_two_pow (by omega))) (Nat.two_pow_pos _)

theorem Fmt.infMag_lt_signBit {f : Fmt} (h : f.IsIeee) : f.infMag < f.signBit := by
  have := f.infMag_add h; have := Nat.two_pow_pos f.frac; omega

theorem Fmt.le_maxMag_iff {f : Fmt} {mag : Nat} (h : f.IsIeee) : mag ≤ f.maxMag ↔ mag < f.infMag := by
  have := f.infMag_pos h
  rw [Fmt.maxMag, h.hasSpecials, if_neg Bool.false_ne_true]
  omega

/-- A magnitude code below infinity's decodes to its significand and exponent. -/
theorem Fmt.decode_of_lt {f : Fmt} {c : Nat} (h : f.IsIeee) (hc : c % f.signBit < f.infMag) :
    f.decode c = .fin (f.isNeg c) (f.sig (c % f.signBit)) (f.expo (c % f.signBit)) := by
  have he : c % f.signBit / 2 ^ f.frac ≠ f.emask := Nat.ne_of_lt ((Nat.div_lt_iff_lt_mul (Nat.two_pow_pos _)).2 hc)
  simp only [Fmt.decode, h.hasSpecials, Bool.not_false, Bool.true_and, beq_iff_eq, he, if_false, Fmt.sig, Fmt.expo]
  split <;> rfl

/-- From infinity's magnitude code on the exponent field is all ones, and the fraction counts from infinity's code. -/
theorem Fmt.exp_eq_emask {f : Fmt} {c : Nat} (h : f.IsIeee) (hc : f.infMag ≤ c % f.signBit) :
    c % f.signBit / 2 ^ f.frac = f.emask ∧ c % f.signBit % 2 ^ f.frac = c % f.signBit - f.infMag := by
  have hs := f.infMag_add h
  have hm := Nat.mod_lt c f.signBit_pos
  have he : c % f.signBit / 2 ^ f.frac = f.emask :=
    Nat.div_eq_of_lt_le hc (by rw [Nat.succ_mul]; exact hs ▸ hm)
  refine ⟨he, ?_⟩
  rw [Nat.mod_eq_sub, he, Nat.mul_comm]; rfl

theorem Fmt.decode_of_eq {f : Fmt} {c : Nat} (h : f.IsIeee) (hc : c % f.signBit = f.infMag) :
    f.decode c = .inf (f.isNeg c) := by
  obtain ⟨he, hf⟩ := f.exp_eq_emask h (Nat.le_of_eq hc.symm)
  have h0 : c % f.signBit - f.infMag = 0 := by omega
  simp only [Fmt.decode, h.hasSpecials, he, hf, h0, Bool.not_false, Bool.true_and, beq_self_eq_true, if_true, Fmt.isNeg]

theorem Fmt.decode_of_gt {f : Fmt} {c : Nat} (h : f.IsIeee) (hc : f.infMag < c % f.signBit) : f.decode c = .nan := by
  obtain ⟨he, hf⟩ := f.exp_eq_emask h (Nat.le_of_lt hc)
  have h0 : c % f.signBit - f.infMag ≠ 0 := by omega
  simp only [Fmt.decode, h.hasSpecials, he, hf, Bool.not_false, Bool.true_and, beq_self_eq_true, if_true, beq_iff_eq, h0, if_false]

/-- What a code that decodes to a finite value holds. -/
theorem Fmt.decode_fin {f : Fmt} {c : Nat} {s : Bool} {m : Nat} {e : Int} (h : f.IsIeee) (hd : f.decode c = .fin s m e) :
    c % f.signBit < f.infMag ∧ s = f.isNeg c ∧ m = f.sig (c % f.signBit) ∧ e = f.expo (c % f.signBit) := by
  obtain hc | hc | hc := Nat.lt_trichotomy (c % f.signBit) f.infMag
  · rw [Fmt.decode_of_lt h hc, Fp.fin.injEq] at hd
    exact ⟨hc, hd.1.symm, hd.2.1.symm, hd.2.2.symm⟩
  · rw [Fmt.decode_of_eq h hc] at hd; cases hd
  · rw [Fmt.decode_of_gt h hc] at hd; cases hd

/-- A code is NaN exactly where its magnitude is above infinity's. -/
theorem Fmt.decode_eq_nan {f : Fmt} {c : Nat} (h : f.IsIeee) : f.decode c = .nan ↔ f.infMag < c % f.signBit := by
  refine ⟨fun hd => ?_, Fmt.decode_of_gt h⟩
  obtain hc | hc | hc := Nat.lt_trichotomy (c % f.signBit) f.infMag
  · rw [Fmt.decode_of_lt h hc] at hd; cases hd
  · rw [Fmt.decode_of_eq h hc] at hd; cases hd
  · exact hc

/-! ## A code from its sign and magnitude -/

theorem Fmt.signed_mod {f : Fmt} {neg : Bool} {mag : Nat} (h : mag < f.signBit) : f.signed neg mag % f.signBit = mag := by
  cases neg
  · exact Nat.mod_eq_of_lt h
  · exact (Nat.add_mod_left ..).trans (Nat.mod_eq_of_lt h)

theorem Fmt.isNeg_signed {f : Fmt} {neg : Bool} {mag : Nat} (h : mag < f.signBit) : f.isNeg (f.signed neg mag) = neg := by
  cases neg
  · rw [Fmt.isNeg, Fmt.signed, if_neg Bool.false_ne_true, Nat.div_eq_of_lt h]; rfl
  · rw [Fmt.isNeg, Fmt.signed, if_pos rfl, Nat.add_div_left _ f.signBit_pos, Nat.div_eq_of_lt h]; rfl

/-- A code of the format is its sign and its magnitude. -/
theorem Fmt.signed_isNeg_mod {f : Fmt} {c : Nat} (h : f.IsIeee) (hc : c < 2 ^ f.width) :
    f.signed (f.isNeg c) (c % f.signBit) = c := by
  have hw := h.fields
  have h2 : 2 ^ f.width = 2 * f.signBit := by
    rw [Fmt.signBit, ← Nat.pow_succ', Nat.succ_eq_add_one, Nat.sub_add_cancel (by omega)]
  have hq : c / f.signBit < 2 := (Nat.div_lt_iff_lt_mul f.signBit_pos).2 (h2 ▸ hc)
  have hd := Nat.div_add_mod c f.signBit
  obtain hq | hq := Nat.le_one_iff_eq_zero_or_eq_one.1 (Nat.le_of_lt_succ hq)
  · rw [hq, Nat.mul_zero, Nat.zero_add] at hd
    rw [Fmt.isNeg, hq]; exact hd
  · rw [hq, Nat.mul_one] at hd
    rw [Fmt.isNeg, hq]; exact hd

/-- A sign and a magnitude below infinity's decode to that sign, significand and exponent. -/
theorem Fmt.decode_signed {f : Fmt} {neg : Bool} {mag : Nat} (h : f.IsIeee) (hm : mag < f.infMag) :
    f.decode (f.signed neg mag) = .fin neg (f.sig mag) (f.expo mag) := by
  have hs := Nat.lt_trans hm (f.infMag_lt_signBit h)
  rw [Fmt.decode_of_lt h (by rwa [Fmt.signed_mod hs]), Fmt.signed_mod hs, Fmt.isNeg_signed hs]

/-! ## Values of magnitude codes -/

/-- A magnitude code is subnormal, or r past the start of the binade t above the lowest. -/
theorem Fmt.mag_cases (f : Fmt) (mag : Nat) :
    mag < 2 ^ f.frac ∨ ∃ t r, r < 2 ^ f.frac ∧ mag = t * 2 ^ f.frac + (2 ^ f.frac + r) := by
  rcases Nat.lt_or_ge mag (2 ^ f.frac) with h | h
  · exact .inl h
  · obtain ⟨k, rfl⟩ := Nat.exists_eq_add_of_le h
    have hk := Nat.div_add_mod' k (2 ^ f.frac)
    exact .inr ⟨k / 2 ^ f.frac, k % 2 ^ f.frac, Nat.mod_lt _ (Nat.two_pow_pos _), by omega⟩

theorem Fmt.sig_expo_subnormal {f : Fmt} {n : Nat} (h : n < 2 ^ f.frac) : f.sig n = n ∧ f.expo n = f.emin - f.frac := by
  simp only [Fmt.sig, Fmt.expo, Nat.div_eq_of_lt h, Nat.mod_eq_of_lt h, if_true, and_self]

theorem Fmt.sig_expo_normal {f : Fmt} {t r : Nat} (h : r < 2 ^ f.frac) :
    f.sig (t * 2 ^ f.frac + (2 ^ f.frac + r)) = 2 ^ f.frac + r ∧
      f.expo (t * 2 ^ f.frac + (2 ^ f.frac + r)) = f.emin - f.frac + t := by
  have hq : (t * 2 ^ f.frac + (2 ^ f.frac + r)) / 2 ^ f.frac = t + 1 := by
    rw [← Nat.add_assoc, ← Nat.succ_mul, Nat.mul_comm, Nat.mul_add_div (Nat.two_pow_pos _), Nat.div_eq_of_lt h]
  have hr : (t * 2 ^ f.frac + (2 ^ f.frac + r)) % 2 ^ f.frac = r := by
    rw [← Nat.add_assoc, ← Nat.succ_mul, Nat.mul_comm, Nat.mul_add_mod, Nat.mod_eq_of_lt h]
  rw [Fmt.sig, Fmt.expo, hq, hr, if_neg (Nat.succ_ne_zero t), if_neg (Nat.succ_ne_zero t), Fmt.emin]
  exact ⟨rfl, by omega⟩

/-- A code n above the start of binade t has n units of that binade's last place, up to the start of the next binade. -/
theorem Fmt.magVal_binade {f : Fmt} {t n : Nat} (hn : t = 0 ∨ 2 ^ f.frac ≤ n) (hle : n ≤ 2 ^ f.frac + 2 ^ f.frac) :
    f.magVal (t * 2 ^ f.frac + n) = n * pow2 (f.emin - f.frac + t) := by
  rcases Nat.lt_or_ge n (2 ^ f.frac) with hlt | hge
  · obtain rfl := hn.resolve_right (Nat.not_le.2 hlt)
    obtain ⟨hs, he⟩ := Fmt.sig_expo_subnormal hlt
    rw [Fmt.magVal, Nat.zero_mul, Nat.zero_add, hs, he, Int.natCast_zero, Int.add_zero]
  · obtain ⟨r, rfl⟩ := Nat.exists_eq_add_of_le hge
    obtain hr | rfl : r < 2 ^ f.frac ∨ r = 2 ^ f.frac := by omega
    · obtain ⟨hs, he⟩ := Fmt.sig_expo_normal (t := t) hr
      rw [Fmt.magVal, hs, he]
    · obtain ⟨hs, he⟩ := Fmt.sig_expo_normal (t := t + 1) (Nat.two_pow_pos f.frac)
      have hnext : t * 2 ^ f.frac + (2 ^ f.frac + 2 ^ f.frac) = (t + 1) * 2 ^ f.frac + (2 ^ f.frac + 0) := by
        rw [Nat.succ_mul]; omega
      rw [hnext, Fmt.magVal, hs, he, Nat.add_zero, Int.natCast_add, Int.natCast_one, ← Int.add_assoc, pow2_succ, Rat.natCast_add]
      grind

theorem Fmt.expo_ge (f : Fmt) (mag : Nat) : f.emin - f.frac ≤ f.expo mag := by
  obtain h | ⟨t, r, h, rfl⟩ := f.mag_cases mag
  · exact Int.le_of_eq (Fmt.sig_expo_subnormal h).2.symm
  · rw [(Fmt.sig_expo_normal h).2]; omega

theorem Fmt.sig_lt (f : Fmt) (mag : Nat) : f.sig mag < 2 ^ f.frac + 2 ^ f.frac := by
  obtain h | ⟨t, r, h, rfl⟩ := f.mag_cases mag
  · rw [(Fmt.sig_expo_subnormal h).1]; omega
  · rw [(Fmt.sig_expo_normal h).1]; omega

theorem Fmt.sig_eq_zero (f : Fmt) {mag : Nat} : f.sig mag = 0 ↔ mag = 0 := by
  have hp := Nat.two_pow_pos f.frac
  obtain h | ⟨t, r, h, rfl⟩ := f.mag_cases mag
  · rw [(Fmt.sig_expo_subnormal h).1]
  · rw [(Fmt.sig_expo_normal h).1]; omega

/-- Consecutive magnitude codes have ascending values. -/
theorem Fmt.magVal_lt_succ (f : Fmt) (mag : Nat) : f.magVal mag < f.magVal (mag + 1) := by
  obtain ⟨t, n, hn, hlt, rfl⟩ : ∃ t n, (t = 0 ∨ 2 ^ f.frac ≤ n) ∧ n < 2 ^ f.frac + 2 ^ f.frac ∧ mag = t * 2 ^ f.frac + n := by
    obtain h | ⟨t, r, h, rfl⟩ := f.mag_cases mag
    · exact ⟨0, mag, .inl rfl, by omega, by omega⟩
    · exact ⟨t, 2 ^ f.frac + r, .inr (by omega), by omega, rfl⟩
  rw [Fmt.magVal_binade hn (Nat.le_of_lt hlt), Nat.add_assoc, Fmt.magVal_binade (hn.imp_right (by omega)) hlt]
  exact Rat.mul_lt_mul_of_pos_right (Rat.natCast_lt_natCast.2 n.lt_succ_self) (pow2_pos _)

theorem Fmt.magVal_mono (f : Fmt) {a b : Nat} (h : a ≤ b) : f.magVal a ≤ f.magVal b := by
  induction h with
  | refl => exact Rat.le_refl
  | step _ ih => exact Rat.le_trans ih (Rat.le_of_lt (f.magVal_lt_succ _))

/-- The values of magnitude codes stand in the order of the codes. -/
theorem Fmt.magVal_le_iff (f : Fmt) {a b : Nat} : f.magVal a ≤ f.magVal b ↔ a ≤ b := by
  refine ⟨fun h => Nat.le_of_not_lt fun hlt => ?_, f.magVal_mono⟩
  exact Rat.not_le.2 (f.magVal_lt_succ b) (Rat.le_trans (f.magVal_mono hlt) h)

theorem Fmt.magVal_zero (f : Fmt) : f.magVal 0 = 0 := by
  rw [Fmt.magVal, f.sig_eq_zero.2 rfl]; exact Rat.zero_mul _

end Sys2Proof.Machine
end

section
/-! PROOFS. Rounding (R38): the parts of round_fmt, rounding to nearest, and codes that stay. -/

namespace Sys2Proof.Machine

open Sys2Proof.Claims

/-! ## round_fmt (R38) in parts -/

/-- The exponent e of round_fmt: the magnitude's binade, or the lowest. -/
def roundExp (f : Fmt) (x : Mag) : Int := max ((Nat.log2 x.m : Int) + x.e) f.emin

/-- The exponent of the spacing q of round_fmt. -/
def roundUnit (f : Fmt) (x : Mag) : Int := roundExp f x - f.frac

/-- The multiple of the spacing that a magnitude goes to. -/
def roundCount (f : Fmt) (mode : Fin 4) (neg : Bool) (x : Mag) : Nat :=
  (x.cut (roundUnit f x)).1 +
    if (x.cut (roundUnit f x)).2.1 && roundsUp mode neg (x.cut (roundUnit f x)).2.2 ((x.cut (roundUnit f x)).1 % 2 == 1) then 1 else 0

/-- The magnitude code of that multiple, before overflow is judged. -/
def roundMag (f : Fmt) (mode : Fin 4) (neg : Bool) (x : Mag) : Nat :=
  (roundExp f x - f.emin).toNat * 2 ^ f.frac + roundCount f mode neg x

/-- The flags of a rounding without overflow. -/
def roundFlags (f : Fmt) (x : Mag) : Flags :=
  if (x.cut (roundUnit f x)).2.1 then (if (Nat.log2 x.m : Int) + x.e < f.emin then flagNX ||| flagUF else flagNX) else 0

theorem roundFmt_zero (f : Fmt) (mode : Fin 4) (neg : Bool) (e : Int) :
    roundFmt f mode neg { m := 0, e := e, more := false } = (f.signed neg 0, 0) := rfl

theorem not_isZeroMag {x : Mag} (hm : x.m ≠ 0) : ¬(x.m == 0 && !x.more) = true := by
  rw [beq_eq_false_iff_ne.2 hm, Bool.false_and]; exact Bool.false_ne_true

/-- round_fmt of a magnitude that goes to no code above the largest finite one. -/
theorem roundFmt_of_le {f : Fmt} {mode : Fin 4} {neg : Bool} {x : Mag} (hm : x.m ≠ 0) (h : roundMag f mode neg x ≤ f.maxMag) :
    roundFmt f mode neg x = (f.signed neg (roundMag f mode neg x), roundFlags f x) := by
  unfold roundFmt
  rw [if_neg (not_isZeroMag hm)]
  exact if_neg (Nat.not_lt.2 h)

/-- The flags of round_fmt of a magnitude that goes above the largest finite code. -/
theorem roundFmt_flags_of_lt {f : Fmt} {mode : Fin 4} {neg : Bool} {x : Mag} (hm : x.m ≠ 0)
    (h : f.maxMag < roundMag f mode neg x) : (roundFmt f mode neg x).2 = roundFlags f x ||| flagOF ||| flagNX := by
  unfold roundFmt
  rw [if_neg (not_isZeroMag hm)]
  exact congrArg Prod.snd (if_pos h)

/-- A rounding that does not set OF goes to no code above the largest finite one. -/
theorem roundMag_le_of_noOverflow {f : Fmt} {mode : Fin 4} {neg : Bool} {x : Mag} (hm : x.m ≠ 0)
    (h : (roundFmt f mode neg x).2.getLsbD 2 = false) : roundMag f mode neg x ≤ f.maxMag := by
  refine Nat.le_of_not_lt fun hlt => ?_
  rw [roundFmt_flags_of_lt hm hlt, BitVec.getLsbD_or, BitVec.getLsbD_or, Bool.or_eq_false_iff, Bool.or_eq_false_iff] at h
  exact absurd h.1.2 (by decide)

theorem roundFlags_nx (f : Fmt) (x : Mag) : (roundFlags f x).getLsbD 4 = (x.cut (roundUnit f x)).2.1 := by
  unfold roundFlags
  cases (x.cut (roundUnit f x)).2.1
  · rw [if_neg Bool.false_ne_true]; decide
  · rw [if_pos rfl]; split <;> decide

/-! ## The cut of a magnitude -/

/-- The value of an exact magnitude. -/
def Mag.val (x : Mag) : Rat := x.m * pow2 x.e

/-- What the comparison of a remainder with one half of its unit says. -/
def HalfIs (half : Ordering) (δ unit : Rat) : Prop :=
  match half with
  | .lt => δ + δ < unit
  | .eq => δ + δ = unit
  | .gt => unit < δ + δ

/-- The comparison of an integer remainder with one half of its divisor, at a scale. -/
theorem halfIs_compare (r d : Nat) {u : Rat} (hu : 0 < u) : HalfIs (compare (2 * r) d) (r * u) (d * u) := by
  have hr : (r * u + r * u : Rat) = (2 * r : Nat) * u := by push_cast; grind
  cases h : compare (2 * r) d <;> simp only [HalfIs, hr]
  case lt => exact Rat.mul_lt_mul_of_pos_right (Rat.natCast_lt_natCast.2 (Nat.compare_eq_lt.1 h)) hu
  case eq => rw [Nat.compare_eq_eq.1 h]
  case gt => exact Rat.mul_lt_mul_of_pos_right (Rat.natCast_lt_natCast.2 (Nat.compare_eq_gt.1 h)) hu

/-- An exact magnitude is a multiple of the unit and a remainder δ below it: the cut tells whether there is one, and on which side of
one half. -/
theorem Mag.cut_spec {x : Mag} (hx : x.more = false) (q : Int) :
    ∃ δ : Rat, 0 ≤ δ ∧ δ < pow2 q ∧ x.val = (x.cut q).1 * pow2 q + δ ∧ ((x.cut q).2.1 = true ↔ δ ≠ 0) ∧
      HalfIs (x.cut q).2.2 δ (pow2 q) := by
  have hu := pow2_pos x.e
  unfold Mag.cut Mag.val
  split
  · next h =>
    have hz := pow2_mul_toNat h
    refine ⟨0, Rat.le_refl, pow2_pos q, ?_, ?_, ?_⟩
    · rw [← hz, Rat.natCast_mul]; grind
    · rw [hx]; exact iff_of_false Bool.false_ne_true (fun h => h rfl)
    · have := pow2_pos q
      simp only [HalfIs]; grind
  · next h =>
    have hd : 0 < 2 ^ (q - x.e).toNat := Nat.two_pow_pos _
    have hz := pow2_mul_toNat (Int.le_of_not_le h)
    dsimp only
    generalize 2 ^ (q - x.e).toNat = d at hd hz ⊢
    have hr : ((x.m % d : Nat) : Rat) < d := Rat.natCast_lt_natCast.2 (Nat.mod_lt x.m hd)
    have hm : (x.m : Rat) = d * (x.m / d : Nat) + (x.m % d : Nat) := by
      rw [← Rat.natCast_mul, ← Rat.natCast_add, Nat.div_add_mod]
    have hunit : pow2 q = d * pow2 x.e := by rw [← hz]; exact Rat.mul_comm ..
    refine ⟨(x.m % d : Nat) * pow2 x.e, Rat.mul_nonneg Rat.natCast_nonneg (Rat.le_of_lt hu), ?_, ?_, ?_, ?_⟩
    · rw [hunit]; exact Rat.mul_lt_mul_of_pos_right hr hu
    · rw [hunit, hm]; grind
    · rw [hx, Bool.or_false, bne_iff_ne, Ne, Ne, Rat.mul_eq_zero, Rat.natCast_eq_zero_iff, or_iff_left (by grind)]
    · rw [hx, Bool.and_false, if_neg Bool.false_ne_true, hunit]
      exact halfIs_compare (x.m % d) d hu

/-! ## Rounding to nearest -/

theorem le_abs (x : Rat) : x ≤ x.abs ∧ -x ≤ x.abs := by
  rcases Rat.le_total (a := 0) (b := x) with h | h
  · rw [Rat.abs_of_nonneg h]; grind
  · rw [Rat.abs_of_nonpos h]; grind

/-- A multiple a of the unit and a remainder δ below it lie δ from the multiples below and the unit less δ from those above. -/
theorem dist_multiple (a : Nat) {δ u : Rat} (hu : 0 < u) (k : Int) :
    δ ≤ (a * u + δ - k * u).abs ∨ u - δ ≤ (a * u + δ - k * u).abs := by
  have habs := le_abs (a * u + δ - k * u)
  by_cases hk : (a : Int) < k
  · have h := Rat.mul_le_mul_of_nonneg_right (Rat.intCast_le_intCast.2 hk) (Rat.le_of_lt hu)
    rw [Rat.intCast_add, Rat.intCast_natCast] at h
    exact .inr (by grind)
  · have h := Rat.mul_le_mul_of_nonneg_right (Rat.intCast_le_intCast.2 (Int.not_lt.1 hk)) (Rat.le_of_lt hu)
    rw [Rat.intCast_natCast] at h
    exact .inl (by grind)

/-- The multiple that mode 0 takes for a multiple a of the unit and a remainder δ: the lower one up to half a unit, the upper one from
half a unit on. -/
theorem roundsUp_rne {a : Nat} {δ u : Rat} {rem odd : Bool} {half : Ordering} (neg : Bool) (hrem : rem = true ↔ δ ≠ 0)
    (hhalf : HalfIs half δ u) :
    (a + (if rem && roundsUp 0 neg half odd then 1 else 0) = a ∧ (δ = 0 ∨ δ ≤ u - δ)) ∨
      (a + (if rem && roundsUp 0 neg half odd then 1 else 0) = a + 1 ∧ δ ≠ 0 ∧ u - δ ≤ δ) := by
  cases rem
  · exact .inl ⟨rfl, .inl (Classical.byContradiction fun h => absurd (hrem.2 h) Bool.false_ne_true)⟩
  · have hδ := hrem.1 rfl
    cases half <;> simp only [HalfIs] at hhalf
    case lt => exact .inl ⟨rfl, .inr (by grind)⟩
    case gt => exact .inr ⟨rfl, hδ, by grind⟩
    case eq => cases odd
               · exact .inl ⟨rfl, .inr (by grind)⟩
               · exact .inr ⟨rfl, hδ, by grind⟩

/-- In mode 0 no multiple of the spacing lies nearer to an exact magnitude than the one that it goes to, and the cut leaves a
remainder exactly where that one is not the magnitude. -/
theorem roundCount_spec (f : Fmt) (neg : Bool) {x : Mag} (hx : x.more = false) :
    (∀ k : Int, (x.val - roundCount f 0 neg x * pow2 (roundUnit f x)).abs ≤ (x.val - k * pow2 (roundUnit f x)).abs) ∧
      ((x.cut (roundUnit f x)).2.1 = true ↔ x.val - roundCount f 0 neg x * pow2 (roundUnit f x) ≠ 0) := by
  obtain ⟨δ, h0, h1, hval, hrem, hhalf⟩ := Mag.cut_spec hx (roundUnit f x)
  have hu := pow2_pos (roundUnit f x)
  rw [hrem, hval]
  rcases roundsUp_rne neg hrem hhalf with ⟨hn, hδ⟩ | ⟨hn, hδ, hle⟩
  · have hd : (((x.cut (roundUnit f x)).1 * pow2 (roundUnit f x) + δ - roundCount f 0 neg x * pow2 (roundUnit f x) : Rat)) = δ := by
      rw [roundCount, hn]; grind
    rw [hd, Rat.abs_of_nonneg h0]
    refine ⟨fun k => ?_, .rfl⟩
    have := dist_multiple (x.cut (roundUnit f x)).1 (δ := δ) hu k
    have := le_abs ((x.cut (roundUnit f x)).1 * pow2 (roundUnit f x) + δ - k * pow2 (roundUnit f x))
    grind
  · have hd : (((x.cut (roundUnit f x)).1 * pow2 (roundUnit f x) + δ - roundCount f 0 neg x * pow2 (roundUnit f x) : Rat)) =
        -(pow2 (roundUnit f x) - δ) := by
      rw [roundCount, hn, Rat.natCast_add]; grind
    rw [hd, Rat.abs_neg, Rat.abs_of_nonneg (by grind)]
    refine ⟨fun k => ?_, by grind⟩
    have := dist_multiple (x.cut (roundUnit f x)).1 (δ := δ) hu k
    grind

/-! ## The binade of a magnitude -/

theorem pow2_frac_mul_roundUnit (f : Fmt) (x : Mag) : ((2 ^ f.frac : Nat) : Rat) * pow2 (roundUnit f x) = pow2 (roundExp f x) := by
  rw [← pow2_natCast, ← pow2_add, roundUnit]; congr 1; omega

theorem Mag.val_lt (f : Fmt) (x : Mag) : x.val < ((2 ^ f.frac + 2 ^ f.frac : Nat) : Rat) * pow2 (roundUnit f x) := by
  have hm : (x.m : Rat) < pow2 (Nat.log2 x.m + 1 : Nat) := by
    rw [pow2_natCast]; exact Rat.natCast_lt_natCast.2 Nat.lt_log2_self
  have hlt := Rat.mul_lt_mul_of_pos_right hm (pow2_pos x.e)
  rw [← pow2_add] at hlt
  have hle : pow2 ((Nat.log2 x.m + 1 : Nat) + x.e) ≤ pow2 (roundExp f x + 1) := pow2_le (by rw [roundExp]; omega)
  have hE := pow2_frac_mul_roundUnit f x
  have h2 := pow2_succ (roundExp f x)
  rw [Mag.val, Rat.natCast_add]
  grind

/-- Above the lowest binade a magnitude reaches the start of its binade. -/
theorem Mag.le_val {f : Fmt} {x : Mag} (hm : x.m ≠ 0) (he : roundExp f x ≠ f.emin) :
    ((2 ^ f.frac : Nat) : Rat) * pow2 (roundUnit f x) ≤ x.val := by
  have hE : roundExp f x = (Nat.log2 x.m : Int) + x.e := by rw [roundExp] at he ⊢; omega
  rw [pow2_frac_mul_roundUnit, hE, pow2_add, pow2_natCast]
  exact Rat.mul_le_mul_of_nonneg_right (Rat.natCast_le_natCast.2 (Nat.log2_self_le hm)) (Rat.le_of_lt (pow2_pos _))

/-- A multiple of the spacing above one at or above the magnitude, or below one at or below it, is not the nearest. -/
theorem roundCount_bounds (f : Fmt) (neg : Bool) {x : Mag} (hm : x.m ≠ 0) (hx : x.more = false) :
    roundCount f 0 neg x ≤ 2 ^ f.frac + 2 ^ f.frac ∧ (roundExp f x ≠ f.emin → 2 ^ f.frac ≤ roundCount f 0 neg x) := by
  have hu := pow2_pos (roundUnit f x)
  have near := (roundCount_spec f neg hx).1
  constructor
  · refine Nat.le_of_not_lt fun hc => ?_
    have hc' := Rat.mul_lt_mul_of_pos_right (Rat.natCast_lt_natCast.2 hc) hu
    have h := near (2 ^ f.frac + 2 ^ f.frac : Nat)
    have hv := x.val_lt f
    rw [Rat.intCast_natCast, Rat.abs_of_nonpos (by grind), Rat.abs_of_nonpos (by grind)] at h
    grind
  · refine fun he => Nat.le_of_not_lt fun hc => ?_
    have hc' := Rat.mul_lt_mul_of_pos_right (Rat.natCast_lt_natCast.2 hc) hu
    have h := near (2 ^ f.frac : Nat)
    have hv := Mag.le_val hm he
    rw [Rat.intCast_natCast, Rat.abs_of_nonneg (by grind), Rat.abs_of_nonneg (by grind)] at h
    grind

/-- The value of the code that a magnitude goes to. -/
theorem magVal_roundMag (f : Fmt) (neg : Bool) {x : Mag} (hm : x.m ≠ 0) (hx : x.more = false) :
    f.magVal (roundMag f 0 neg x) = roundCount f 0 neg x * pow2 (roundUnit f x) := by
  obtain ⟨hle, hge⟩ := roundCount_bounds f neg hm hx
  have hE : f.emin ≤ roundExp f x := Int.le_max_right _ _
  have hu : f.emin - f.frac + (roundExp f x - f.emin).toNat = roundUnit f x := by rw [roundUnit]; omega
  have hstart : (roundExp f x - f.emin).toNat = 0 ∨ 2 ^ f.frac ≤ roundCount f 0 neg x := by
    by_cases he : roundExp f x = f.emin
    · exact .inl (by omega)
    · exact .inr (hge he)
  rw [roundMag, Fmt.magVal_binade hstart hle, hu]

/-- No code's value lies nearer to an exact magnitude than the multiple of the spacing that it goes to: a value with a last place
of the spacing or more is such a multiple, and one with a smaller last place lies below the start of the magnitude's binade. -/
theorem roundCount_nearest_code (f : Fmt) (neg : Bool) {x : Mag} (hm : x.m ≠ 0) (hx : x.more = false) (mag : Nat) :
    (x.val - roundCount f 0 neg x * pow2 (roundUnit f x)).abs ≤ (x.val - f.magVal mag).abs := by
  have near := (roundCount_spec f neg hx).1
  by_cases hlt : f.expo mag < roundUnit f x
  · have he : roundExp f x ≠ f.emin := by have := f.expo_ge mag; rw [roundUnit] at hlt; omega
    have hstart := Mag.le_val hm he
    have hsig := Rat.mul_le_mul_of_nonneg_right (Rat.natCast_le_natCast.2 (Nat.le_of_lt (f.sig_lt mag))) (Rat.le_of_lt (pow2_pos (f.expo mag)))
    have hunit := Rat.mul_le_mul_of_nonneg_left (pow2_le (show f.expo mag + 1 ≤ roundUnit f x by omega))
      (Rat.natCast_nonneg (a := 2 ^ f.frac))
    rw [pow2_succ] at hunit
    rw [Rat.natCast_add, ← Fmt.magVal] at hsig
    have h := near (2 ^ f.frac : Nat)
    refine Rat.le_trans h ?_
    rw [Rat.intCast_natCast, Rat.abs_of_nonneg (by grind), Rat.abs_of_nonneg (by grind)]
    grind
  · have h := near (f.sig mag * 2 ^ (f.expo mag - roundUnit f x).toNat : Nat)
    have hz := pow2_mul_toNat (Int.not_lt.1 hlt)
    rwa [Rat.intCast_natCast, Rat.natCast_mul, Rat.mul_assoc, Rat.mul_comm ((2 ^ (f.expo mag - roundUnit f x).toNat : Nat) : Rat), hz] at h

/-! ## The nearest code -/

/-- The distance of an exact magnitude and the value of a magnitude code. -/
theorem distance_sig_expo (f : Fmt) (x : Mag) (mag : Nat) :
    (distance x.m x.e (f.sig mag) (f.expo mag)).val = (x.val - f.magVal mag).abs := distance_val ..

theorem roundFmt_nearest {f : Fmt} (h : f.IsIeee) (neg : Bool) {x : Mag} (hm : x.m ≠ 0) (hx : x.more = false)
    (hof : (roundFmt f 0 neg x).2.getLsbD 2 = false) :
    ∃ n d, f.decode (roundFmt f 0 neg x).1 = .fin neg n d ∧
      (∀ c k j, f.decode c = .fin neg k j → dyLe (distance x.m x.e n d) (distance x.m x.e k j)) ∧
      ((roundFmt f 0 neg x).2.getLsbD 4 = true ↔ (distance x.m x.e n d).m ≠ 0) := by
  have hle := roundMag_le_of_noOverflow hm hof
  rw [roundFmt_of_le hm hle]
  refine ⟨_, _, Fmt.decode_signed h ((Fmt.le_maxMag_iff h).1 hle), fun c k j hc => ?_, ?_⟩
  · obtain ⟨-, -, rfl, rfl⟩ := Fmt.decode_fin h hc
    rw [dyLe_iff, distance_sig_expo, distance_sig_expo, magVal_roundMag f neg hm hx]
    exact roundCount_nearest_code f neg hm hx _
  · rw [Dy.m_ne_zero_iff, distance_sig_expo, magVal_roundMag f neg hm hx, Ne, Rat.abs_eq_zero_iff, roundFlags_nx]
    exact (roundCount_spec f neg hx).2

theorem roundingNearest : RoundingNearest := fun _ hf neg _ _ hm hof => roundFmt_nearest (isIeee_of_mem hf) neg hm rfl hof

/-! ## Codes that stay -/

/-- An exact magnitude with the last place of its rounding is a multiple of the spacing: it stays, with no flag. -/
theorem roundMag_of_exact {f : Fmt} (mode : Fin 4) (neg : Bool) {x : Mag} (hx : x.more = false) (hu : roundUnit f x = x.e) :
    roundMag f mode neg x = (roundExp f x - f.emin).toNat * 2 ^ f.frac + x.m ∧ roundFlags f x = 0 := by
  have hc : x.cut (roundUnit f x) = (x.m, false, .lt) := by
    rw [Mag.cut, hu, if_pos (Int.le_refl _), hx, Int.sub_self, Int.toNat_zero, Nat.pow_zero, Nat.mul_one]
  rw [roundMag, roundCount, roundFlags, hc]
  exact ⟨rfl, rfl⟩

/-- The exact magnitude that a magnitude code stands for. -/
def Fmt.exact (f : Fmt) (mag : Nat) : Mag := { m := f.sig mag, e := f.expo mag, more := false }

/-- A magnitude code from its exponent and its significand: codes are consecutive across binades. -/
theorem Fmt.expo_sig (f : Fmt) (mag : Nat) : (f.expo mag + f.frac - f.emin).toNat * 2 ^ f.frac + f.sig mag = mag := by
  obtain h | ⟨t, r, h, rfl⟩ := f.mag_cases mag
  · obtain ⟨hs, he⟩ := Fmt.sig_expo_subnormal h
    rw [hs, he, show f.emin - f.frac + f.frac - f.emin = 0 by omega, Int.toNat_zero, Nat.zero_mul, Nat.zero_add]
  · obtain ⟨hs, he⟩ := Fmt.sig_expo_normal (f := f) (t := t) h
    rw [hs, he, show f.emin - f.frac + t + f.frac - f.emin = t by omega, Int.toNat_natCast]

/-- The binade of a nonzero code's value is the one of the code, the lowest for a subnormal code. -/
theorem roundExp_exact (f : Fmt) {mag : Nat} (h0 : mag ≠ 0) : roundExp f (f.exact mag) = f.expo mag + f.frac := by
  simp only [roundExp, Fmt.exact]
  obtain h | ⟨t, r, h, rfl⟩ := f.mag_cases mag
  · obtain ⟨hs, he⟩ := Fmt.sig_expo_subnormal h
    have hl : Nat.log2 mag < f.frac := (Nat.log2_lt h0).2 h
    rw [hs, he]; omega
  · obtain ⟨hs, he⟩ := Fmt.sig_expo_normal (f := f) (t := t) h
    have hl : Nat.log2 (2 ^ f.frac + r) = f.frac := by
      rw [Nat.log2_eq_iff (by omega), Nat.pow_succ]; omega
    rw [hs, he, hl]; omega

/-- The value of a nonzero finite magnitude code has the code's own last place, and goes back to the code. -/
theorem roundMag_exact (f : Fmt) (mode : Fin 4) (neg : Bool) {mag : Nat} (h0 : mag ≠ 0) :
    roundMag f mode neg (f.exact mag) = mag ∧ roundFlags f (f.exact mag) = 0 := by
  have hE := roundExp_exact f h0
  have hu : roundUnit f (f.exact mag) = (f.exact mag).e := by rw [roundUnit, hE]; exact Int.add_sub_cancel ..
  obtain ⟨hmag, hfl⟩ := roundMag_of_exact (x := f.exact mag) mode neg rfl hu
  rw [hE] at hmag
  exact ⟨hmag.trans (f.expo_sig mag), hfl⟩

theorem roundingKeepsCodes : RoundingKeepsCodes := by
  intro f hf mode c neg m e hc hd
  have h := isIeee_of_mem hf
  obtain ⟨hlt, rfl, rfl, rfl⟩ := Fmt.decode_fin h hd
  have hcode := f.signed_isNeg_mod h hc
  by_cases h0 : c % f.signBit = 0
  · rw [f.sig_eq_zero.2 h0, roundFmt_zero, ← h0, hcode]
  · obtain ⟨hmag, hfl⟩ := roundMag_exact f mode (f.isNeg c) h0
    have hle : roundMag f mode (f.isNeg c) (f.exact (c % f.signBit)) ≤ f.maxMag := hmag.symm ▸ (Fmt.le_maxMag_iff h).2 hlt
    have hround := roundFmt_of_le (x := f.exact (c % f.signBit)) (mt f.sig_eq_zero.1 h0) hle
    rwa [hmag, hfl, hcode] at hround

/-- Settles O50: a code's value has the code's own spacing, so it goes back to the code; a magnitude goes to the nearest multiple
of its binade's spacing, and every code is such a multiple or lies below the binade. -/
theorem rounding : Obligations.Rounding := ⟨roundingKeepsCodes, roundingNearest⟩

end Sys2Proof.Machine
end

section
/-! PROOFS. The order of values (R31), minimum and maximum (R35), the float compares (R318), and the completion of an instruction
that changes its own group alone. -/

namespace Sys2Proof.Machine

open Sys2Proof.Claims

/-! ## The order of values (R31, R35) -/

/-- The magnitude code, signed: the key of R318 by the model's two parts of a code. -/
theorem Fmt.valueKey_eq (f : Fmt) (c : Nat) :
    f.valueKey c = if f.isNeg c then -((c % f.signBit : Nat) : Int) else (c % f.signBit : Nat) := rfl

theorem Fmt.orderKey_eq (f : Fmt) (c : Nat) :
    f.orderKey c = if f.isNeg c then -((c % f.signBit : Nat) : Int) - 1 else (c % f.signBit : Nat) := rfl

/-- The order of R35 refines the order of R318. -/
theorem Fmt.valueKey_le_of_orderKey_le {f : Fmt} {x y : Nat} : f.orderKey x ≤ f.orderKey y → f.valueKey x ≤ f.valueKey y := by
  rw [Fmt.orderKey_eq, Fmt.orderKey_eq, Fmt.valueKey_eq, Fmt.valueKey_eq]
  cases f.isNeg x <;> cases f.isNeg y <;> simp only [if_true, Bool.false_eq_true, if_false] <;> omega

theorem valueLe_fin (s t : Bool) (m n : Nat) (e d : Int) :
    valueLe (.fin s m e) (.fin t n d) ↔
      (if s then -(m * pow2 e) else m * pow2 e) ≤ if t then -(n * pow2 d) else n * pow2 d := by
  rw [valueLe, Dy.m_nonpos_iff, Dy.val_add, Dy.val_ofMag, Dy.val_ofMag]
  cases t <;> simp only [Bool.not_true, Bool.not_false, Bool.false_eq_true, if_true, if_false] <;> grind

theorem valueLe_fin_inf (s t : Bool) (m : Nat) (e : Int) : valueLe (.fin s m e) (.inf t) ↔ t = false := by
  refine ⟨fun h => h.resolve_left nofun, .inr⟩

theorem valueLe_inf (s : Bool) (y : Fp) : valueLe (.inf s) y ↔ s = true ∨ y = .inf false := by rw [valueLe]

/-- The values of signed magnitude codes stand in the order of the signed codes. -/
theorem Fmt.signed_magVal_le (f : Fmt) (s t : Bool) (a b : Nat) :
    ((if s then -f.magVal a else f.magVal a) ≤ if t then -f.magVal b else f.magVal b) ↔
      (if s then -(a : Int) else a) ≤ if t then -(b : Int) else b := by
  have h0 (n : Nat) : 0 ≤ f.magVal n ∧ (f.magVal n ≤ 0 ↔ n = 0) := by
    rw [← f.magVal_zero, f.magVal_le_iff, f.magVal_le_iff, Nat.le_zero]
    exact ⟨Nat.zero_le n, .rfl⟩
  obtain ⟨ha, ha0⟩ := h0 a
  obtain ⟨hb, hb0⟩ := h0 b
  cases s <;> cases t <;> simp only [if_true, Bool.false_eq_true, if_false]
  case false.false => rw [f.magVal_le_iff, Int.ofNat_le]
  case true.true => rw [Rat.neg_le_neg_iff, f.magVal_le_iff, Int.neg_le_neg_iff, Int.ofNat_le]
  case true.false => exact iff_of_true (by grind) (by omega)
  case false.true =>
    constructor
    · intro h
      have := ha0.1 (by grind); have := hb0.1 (by grind); omega
    · intro h
      have := ha0.2 (by omega); have := hb0.2 (by omega); grind

/-- A signed code stands under that of an infinity above it exactly where the infinity is positive. -/
theorem signed_le_inf_iff (s t : Bool) {a b : Nat} (h : a < b) :
    t = false ↔ (if s then -(a : Int) else a) ≤ if t then -(b : Int) else b := by
  cases t
  · exact iff_of_true rfl (by cases s <;> simp only [if_true, Bool.false_eq_true, if_false] <;> omega)
  · exact iff_of_false nofun (by cases s <;> simp only [if_true, Bool.false_eq_true, if_false] <;> omega)

theorem inf_le_signed_iff (s t : Bool) {a b : Nat} (h : b < a) :
    s = true ↔ (if s then -(a : Int) else a) ≤ if t then -(b : Int) else b := by
  cases s
  · exact iff_of_false nofun (by cases t <;> simp only [if_true, Bool.false_eq_true, if_false] <;> omega)
  · exact iff_of_true rfl (by cases t <;> simp only [if_true, Bool.false_eq_true, if_false] <;> omega)

theorem inf_le_inf_iff (s t : Bool) {a : Nat} (h : 0 < a) :
    (s = true ∨ t = false) ↔ (if s then -(a : Int) else a) ≤ if t then -(a : Int) else a := by
  cases t
  · exact iff_of_true (.inr rfl) (by cases s <;> simp only [if_true, Bool.false_eq_true, if_false] <;> omega)
  · rw [or_iff_left nofun]
    cases s
    · exact iff_of_false nofun (by simp only [if_true, Bool.false_eq_true, if_false]; omega)
    · exact iff_of_true rfl (Int.le_refl _)

/-- The model's compare key gives the order of values of two codes that are not NaN. -/
theorem Fmt.valueLe_decode {f : Fmt} {x y : Nat} (h : f.IsIeee) (hx : f.decode x ≠ .nan) (hy : f.decode y ≠ .nan) :
    valueLe (f.decode x) (f.decode y) ↔ f.valueKey x ≤ f.valueKey y := by
  have hp := f.infMag_pos h
  rw [Ne, Fmt.decode_eq_nan h, Nat.not_lt] at hx hy
  rw [Fmt.valueKey_eq, Fmt.valueKey_eq]
  rcases Nat.lt_or_eq_of_le hx with hx | hx <;> rcases Nat.lt_or_eq_of_le hy with hy | hy
  · rw [Fmt.decode_of_lt h hx, Fmt.decode_of_lt h hy, valueLe_fin]
    exact f.signed_magVal_le ..
  · rw [Fmt.decode_of_lt h hx, Fmt.decode_of_eq h hy, valueLe_fin_inf]
    exact signed_le_inf_iff _ _ (by omega)
  · rw [Fmt.decode_of_eq h hx, Fmt.decode_of_lt h hy, valueLe_inf, or_iff_left nofun]
    exact inf_le_signed_iff _ _ (by omega)
  · rw [Fmt.decode_of_eq h hx, Fmt.decode_of_eq h hy, valueLe_inf, Fp.inf.injEq, hx, hy]
    exact inf_le_inf_iff _ _ hp

theorem Fmt.isNan_iff {f : Fmt} {c : Nat} : f.isNan c = true ↔ f.decode c = .nan := by rw [Fmt.isNan, beq_iff_eq]

/-! ## Minimum and maximum (R35) -/

/-- Minimum and maximum of two numbers: the operand that stands first, or last, in the order of R35. -/
theorem fMinMax_of_ne_nan {f : Fmt} {x y : Nat} (isMax prop : Bool) (hx : f.decode x ≠ .nan) (hy : f.decode y ≠ .nan) :
    (fMinMax f isMax prop x y = x ∨ fMinMax f isMax prop x y = y) ∧
      if isMax then f.orderKey x ≤ f.orderKey (fMinMax f isMax prop x y) ∧ f.orderKey y ≤ f.orderKey (fMinMax f isMax prop x y)
      else f.orderKey (fMinMax f isMax prop x y) ≤ f.orderKey x ∧ f.orderKey (fMinMax f isMax prop x y) ≤ f.orderKey y := by
  unfold fMinMax
  rw [if_neg (mt Fmt.isNan_iff.1 hx), if_neg (mt Fmt.isNan_iff.1 hy)]
  cases isMax <;> simp only [if_true, Bool.false_eq_true, if_false] <;> split
  case false.isTrue h => exact ⟨.inr rfl, Int.le_of_lt h, Int.le_refl _⟩
  case false.isFalse h => exact ⟨.inl rfl, Int.le_refl _, Int.not_lt.1 h⟩
  case true.isTrue h => exact ⟨.inr rfl, Int.le_of_lt h, Int.le_refl _⟩
  case true.isFalse h => exact ⟨.inl rfl, Int.le_refl _, Int.not_lt.1 h⟩

/-- A zero's sign, and its place in the order of R35. -/
theorem Fmt.of_isZero {f : Fmt} {c : Nat} (h : f.IsIeee) (hz : (f.decode c).isZero = true) :
    (f.decode c).neg = f.isNeg c ∧ f.orderKey c = if f.isNeg c then -1 else 0 := by
  obtain ⟨s, e, hd⟩ : ∃ s e, f.decode c = .fin s 0 e := by
    cases hd : f.decode c with
    | nan => rw [hd] at hz; cases hz
    | inf s => rw [hd] at hz; cases hz
    | fin s m e => cases m with
      | zero => exact ⟨s, e, rfl⟩
      | succ m => rw [hd] at hz; cases hz
  obtain ⟨-, rfl, hm, -⟩ := Fmt.decode_fin h hd
  rw [hd, Fmt.orderKey_eq, f.sig_eq_zero.1 hm.symm]
  exact ⟨rfl, rfl⟩

theorem minimumMaximum : MinimumMaximum := by
  intro f hf isMax prop x y _ _
  have h := isIeee_of_mem hf
  refine ⟨fun hx hy => ?_, fun hx hy => ?_, fun hx hy => ?_, fun hx hy => ?_⟩
  · rw [fMinMax, if_pos (Fmt.isNan_iff.2 hx), Fmt.isNan_iff.2 hy, Bool.or_true, if_pos rfl]
  · rw [fMinMax, if_pos (Fmt.isNan_iff.2 hx), Bool.eq_false_iff.2 (mt Fmt.isNan_iff.1 hy), Bool.or_false]
  · rw [fMinMax, if_neg (mt Fmt.isNan_iff.1 hx), if_pos (Fmt.isNan_iff.2 hy)]
  · obtain ⟨hr, hord⟩ := fMinMax_of_ne_nan isMax prop hx hy
    generalize fMinMax f isMax prop x y = r at hr hord ⊢
    have hnan : f.decode r ≠ .nan := by rcases hr with rfl | rfl <;> assumption
    have le {a b : Nat} (ha : f.decode a ≠ .nan) (hb : f.decode b ≠ .nan) (hab : f.orderKey a ≤ f.orderKey b) :
        valueLe (f.decode a) (f.decode b) := (Fmt.valueLe_decode h ha hb).2 (Fmt.valueKey_le_of_orderKey_le hab)
    refine ⟨hr, ?_, fun hzx hzy => ?_⟩
    · cases isMax
      · exact ⟨le hnan hx hord.1, le hnan hy hord.2⟩
      · exact ⟨le hx hnan hord.1, le hy hnan hord.2⟩
    · have hzr : (f.decode r).isZero = true := by rcases hr with rfl | rfl <;> assumption
      obtain ⟨hnx, hkx⟩ := Fmt.of_isZero h hzx
      obtain ⟨hny, hky⟩ := Fmt.of_isZero h hzy
      obtain ⟨hnr, hkr⟩ := Fmt.of_isZero h hzr
      rw [hnx, hny, hnr]
      rw [hkx, hky, hkr] at hord
      -- what is left is a table of the three zeros' signs
      revert hord
      cases isMax <;> cases f.isNeg x <;> cases f.isNeg y <;> cases f.isNeg r <;> decide

/-! ## The relations of R318 -/

theorem not_isNan_or {f : Fmt} {x y : Nat} : (!(f.isNan x || f.isNan y)) = true ↔ f.decode x ≠ .nan ∧ f.decode y ≠ .nan := by
  simp [Fmt.isNan]

/-- The model's relation of two codes is the relation of their values. -/
theorem fCompare_iff {f : Fmt} (h : f.IsIeee) (k : Fin 4) (x y : Nat) :
    fCompare f k x y = true ↔ floatRelation k (f.decode x) (f.decode y) := by
  match k with
  | 0 =>
    rw [fCompare, Bool.and_eq_true, not_isNan_or, beq_iff_eq, and_assoc]
    refine and_congr_right fun hx => and_congr_right fun hy => ?_
    rw [Fmt.valueLe_decode h hx hy, Fmt.valueLe_decode h hy hx, Int.le_antisymm_iff]
  | 1 =>
    rw [fCompare, Bool.and_eq_true, not_isNan_or, decide_eq_true_iff, and_assoc]
    refine and_congr_right fun hx => and_congr_right fun hy => ?_
    rw [Fmt.valueLe_decode h hy hx, Int.not_le]
  | 2 =>
    rw [fCompare, Bool.and_eq_true, not_isNan_or, decide_eq_true_iff, and_assoc]
    refine and_congr_right fun hx => and_congr_right fun hy => ?_
    rw [Fmt.valueLe_decode h hx hy]
  | 3 => rw [fCompare, Bool.or_eq_true, Fmt.isNan_iff, Fmt.isNan_iff]; rfl

/-! ## Instructions that complete in their own group -/

/-- Nothing of a handler comes before an instruction that may issue. -/
theorem handlerFirst_of_issuable {s : State} {c : Iss} (h : Issuable s c) : c.handlerFirst = none := by
  cases hh : c.g.hdl with
  | none => exact Iss.handlerFirst_none hh
  | some x =>
    obtain ⟨hframed, hqueue, hyield⟩ := h.inHandler x hh
    have hfirst : (x.retired == 0 && c.st.queued c.g) = false := by
      rw [State.issuing_st h.issuing]; simpa using hqueue
    have hlast : (x.pre && !x.restored && decide (4096 ≤ x.retired) && !isYield c.raw.toNat) = false := by
      simpa using hyield
    simp [Iss.handlerFirst, Iss.frameFirst, hh, hframed, hfirst, hlast]

/-- A ready instruction whose own execution puts its group back as g completes with that group moved on, and with nothing else
changed. -/
theorem completes_of_done {s : State} {c : Iss} {i : Instr} {body : Iss → Eff} {g : Group} {P : Group → Prop} (h : Ready s c i)
    (hexec : exec i s = runInstr s (operands i) body) (hbody : body c = c.done g) (hcore : g.core = c.g.core)
    (hslot : g.slot = c.g.slot) (hunit : g.unit = c.g.unit) (hP : P (movedOn c g)) : Completes i s c P := by
  have hrun := runInstr_ready body h.issuing (handlerFirst_of_issuable h.toIssuable) h.noFence h.noLate h.checked h.clear
  rw [Iss.acquired_none h.noAcquire, hbody, Iss.done] at hrun
  obtain ⟨t, ht, hgroup, hms, heng, hfab, hmgmt, hgroups, hqueues, hlaunches, hunits, hcur⟩ :=
    Iss.conclude_done (g := g.advance c.which c.len) h.issuing (by simpa using hcore) (by simpa using hslot) (by simpa using hunit)
  exact ⟨t, _, hexec.trans (hrun.trans ht), hgroup, ⟨hms, heng, hfab, hmgmt, hgroups, hqueues, hlaunches, hunits, hcur⟩, hP⟩

/-! ## Predicates -/

theorem getLsbD_maskOf (es : List Nat) (k : Mask) (e : Nat) :
    (es.foldl (fun k e => k ||| BitVec.ofNat 256 (2 ^ e)) k).getLsbD e = (k.getLsbD e || decide (e < 256 ∧ e ∈ es)) := by
  induction es generalizing k with
  | nil => simp
  | cons x xs ih =>
    rw [List.foldl_cons, ih, BitVec.getLsbD_or, BitVec.getLsbD_ofNat, Nat.testBit_two_pow, Bool.or_assoc]
    congr 1
    rw [Bool.eq_iff_iff]
    simp only [Bool.or_eq_true, Bool.and_eq_true, decide_eq_true_iff, List.mem_cons]
    rw [← and_or_left, eq_comm (a := x)]

/-- The elements where a test holds. -/
theorem getLsbD_maskWhere (n : Nat) (f : Nat → Bool) (e : Nat) :
    (maskWhere n f).getLsbD e = decide (e < 256 ∧ e < n ∧ f e = true) := by
  rw [maskWhere, maskOf, getLsbD_maskOf]; simp

/-- A bit of a register whose elements in m are replaced by those of x. -/
theorem getLsbD_masked (old m x : Mask) (e : Nat) :
    ((old &&& ~~~m) ||| (x &&& m)).getLsbD e = if m.getLsbD e = true then x.getLsbD e else old.getLsbD e := by
  rcases Nat.lt_or_ge e 256 with he | he
  · rw [BitVec.getLsbD_or, BitVec.getLsbD_and, BitVec.getLsbD_and, BitVec.getLsbD_not]
    cases m.getLsbD e <;> simp [he]
  · simp [BitVec.getLsbD_of_ge _ _ he]

/-- A predicate register after one is written in the elements of a mask. -/
theorem Group.p_setP (g : Group) (d : Nat) (m x : Mask) (r : Nat) :
    (g.setP d m x).p r = if r = d ∧ r < g.pregs.length then (g.p r &&& ~~~m) ||| (x &&& m) else g.p r := by
  unfold Group.setP Group.p
  simp only [List.getD_eq_getElem?_getD, List.getElem?_modify]
  by_cases hd : r = d
  · by_cases hr : r < g.pregs.length
    · subst hd; simp [hr]
    · simp [hr]
  · simp [hd, Ne.symm hd]

theorem movedOn_setP (c : Iss) (g : Group) (d : Nat) (m x : Mask) :
    movedOn c (g.setP d m x) = { movedOn c g with pregs := (g.setP d m x).pregs } := by
  simp only [movedOn, Group.stamp_def, Group.advance, Group.setPcSlot_def, Group.pcSlot_def, Group.setP]

theorem movedOn_pregs (c : Iss) (g : Group) : (movedOn c g).pregs = g.pregs := by simp [movedOn, Group.advance]

/-- A predicate written where a test holds. -/
theorem predicateWritten_setP (c : Iss) (d : Nat) (f : Nat → Bool) :
    PredicateWritten c d (fun e => decide (e < c.g.width ∧ f e = true)) (movedOn c (c.g.setP d c.mask (maskWhere c.g.width f))) := by
  refine ⟨by rw [movedOn_pregs]; exact movedOn_setP .., fun r e => ?_⟩
  rw [Group.p, movedOn_pregs, ← Group.p, Group.p_setP]
  by_cases hd : r = d ∧ r < c.g.pregs.length
  · rw [if_pos hd, getLsbD_masked, getLsbD_maskWhere]
    by_cases he : c.mask.getLsbD e = true
    · rw [if_pos he, if_pos ⟨hd.1, he, hd.2⟩]
      simp [BitVec.lt_of_getLsbD he]
    · rw [if_neg he, if_neg (fun h => he h.2.1)]
  · rw [if_neg hd, if_neg (fun h => hd ⟨h.1, h.2.2⟩)]

/-! ## Float compares (R318) -/

/-- What FloatCompare asks of the group: predicate p takes the relation of the values of x's two codes in the active elements. -/
def ComparedAs (c : Iss) (p : Nat) (x : Nat → Nat × Nat) (f : Fmt) (k : Fin 4) (g : Group) : Prop :=
  ∃ y : Nat → Bool, (∀ e, y e = true ↔ e < c.g.width ∧ floatRelation k (f.decode (x e).1) (f.decode (x e).2)) ∧ PredicateWritten c p y g

/-- The body of a compare: bit e of the predicate takes the model's relation of the codes of element e. -/
theorem completes_of_fCompare {i : Instr} {p : Nat} {x : Nat → Nat × Nat} {f : Fmt} {k : Fin 4} {s : State} {c : Iss}
    {body : Iss → Eff} (hf : f.IsIeee) (h : Ready s c i) (hexec : exec i s = runInstr s (operands i) body)
    (hbody : body c = c.done (c.g.setP p c.mask (maskWhere c.g.width (fun e => fCompare f k (x e).1 (x e).2)))) :
    Completes i s c (ComparedAs c p x f k) :=
  completes_of_done h hexec hbody rfl rfl rfl
    ⟨_, fun e => by rw [decide_eq_true_iff, fCompare_iff hf], predicateWritten_setP c p _⟩

theorem completes_fcmp32 {i : Instr} {p a : Nat} {b : VSrc} {k : Fin 4} {s : State} {c : Iss} (h : Ready s c i)
    (hexec : exec i s = fcmp32 s p a b k) (hops : operands i = [opPd 11 p, opV 18 a, opSrc b false]) :
    Completes i s c (ComparedAs c p (fun e => (code c a e, code2 c b e)) fmtF32 k) :=
  completes_of_fCompare (isIeee_of_mem (by decide)) h (hexec.trans (by rw [hops]; rfl)) rfl

theorem completes_fcmp64 {i : Instr} {p a : Nat} {b : VSrc} {k : Fin 4} {s : State} {c : Iss} (h : Ready s c i)
    (hexec : exec i s = fcmp64 s p a b k) (hops : operands i = [opPd 11 p, opW 18 a, opSrc b true]) :
    Completes i s c (ComparedAs c p (fun e => (code64 c a e, code642 c b e)) fmtF64 k) :=
  completes_of_fCompare (isIeee_of_mem (by decide)) h (hexec.trans (by rw [hops]; rfl)) rfl

theorem floatCompare : FloatCompare := by
  intro i p x f k s c hi h
  unfold floatCompareTable at hi
  split at hi
  case h_9 => cases hi
  all_goals cases hi
  case h_1 | h_2 | h_3 | h_4 => exact completes_fcmp32 h rfl rfl
  case h_5 | h_6 | h_7 | h_8 => exact completes_fcmp64 h rfl rfl

/-- Settles O51: the model's keys order the codes as their values, since consecutive magnitude codes have ascending values. -/
theorem compareMinimumMaximum : Obligations.CompareMinimumMaximum := ⟨minimumMaximum, floatCompare⟩

end Sys2Proof.Machine
end

section
/-! PROOFS. Status words (R84, R85), and what an operation of the device keeps of that on which a status word rests: the arbiter,
the ports, the links, the host lines that dies hold, and the pending fault entries. -/

namespace Sys2Proof.Machine

open Sys2Proof.Claims

/-! ## Folds -/

/-- What a reflexive and transitive relation says of every step it says of a run of steps. -/
theorem foldl_rel {α β : Type} {R : α → α → Prop} (refl : ∀ s, R s s) (trans : ∀ {s t u}, R s t → R t u → R s u)
    {f : α → β → α} (step : ∀ s x, R s (f s x)) (xs : List β) (s : α) : R s (xs.foldl f s) := by
  induction xs generalizing s with
  | nil => exact refl s
  | cons x xs ih => exact trans (step s x) (ih _)

/-! ## Bytes of a number -/

theorem leNat_leBytes (n x : Nat) : leNat (leBytes n x) = x % 2 ^ (8 * n) := by
  induction n generalizing x with
  | zero => simp [leBytes, leNat, Nat.mod_one]
  | succ n ih =>
    rw [leBytes, leNat, ih, BitVec.toNat_ofNat, show 8 * (n + 1) = 8 + 8 * n by omega, Nat.pow_add, Nat.mod_mul]

/-- A number of 8 bytes just written, read back. -/
theorem Memory.readLE_writeN_leBytes (m : Memory) (a v : Nat) (h : v < 2 ^ 64) : (m.writeN a (leBytes 8 v)).readLE a 8 = v := by
  have hr := Memory.readN_writeN m a (leBytes 8 v)
  rw [length_leBytes] at hr
  rw [Memory.readLE, hr, leNat_leBytes, Nat.mod_eq_of_lt h]

/-! ## Writes to a host -/

/-- A state with other host memory and other held host lines. -/
def HostStep (s t : State) : Prop :=
  ∃ m hs, t = { s with ms := { s.ms with hostMem := m, hostLines := hs } } ∧ (s.ms.hostLines = [] → hs = [])

theorem HostStep.refl (s : State) : HostStep s s := ⟨_, _, rfl, id⟩

theorem HostStep.trans {s t u : State} (h : HostStep s t) (k : HostStep t u) : HostStep s u := by
  obtain ⟨m, hs, rfl, h⟩ := h
  obtain ⟨m', hs', rfl, k⟩ := k
  exact ⟨m', hs', rfl, fun e => k (h e)⟩

theorem State.hostPut_step (s : State) (p a : Nat) (b : Byte) : HostStep s (s.hostPut p a b) := by
  unfold State.hostPut
  split
  · exact ⟨_, _, rfl, fun e => by rw [e]; rfl⟩
  · exact ⟨_, _, rfl, id⟩

theorem State.hostStore_step (s : State) (p a : Nat) (bs : List Byte) : HostStep s (s.hostStore p a bs) :=
  foldl_rel (R := HostStep) HostStep.refl HostStep.trans (f := fun s (x : Byte × Nat) => s.hostPut p (a + x.2) x.1)
    (fun s x => s.hostPut_step p (a + x.2) x.1) _ s

theorem State.reply_step (s : State) (d : Nat × Nat) (v : Nat) : HostStep s (s.reply d v) := by
  unfold State.reply
  split
  · exact HostStep.refl s
  · exact s.hostStore_step _ _ _

@[simp] theorem State.reply_sched (s : State) (d : Nat × Nat) (v : Nat) : (s.reply d v).sched = s.sched := by
  obtain ⟨m, hs, h, -⟩ := s.reply_step d v; rw [h]
@[simp] theorem State.reply_mgmt (s : State) (d : Nat × Nat) (v : Nat) : (s.reply d v).mgmt = s.mgmt := by
  obtain ⟨m, hs, h, -⟩ := s.reply_step d v; rw [h]
@[simp] theorem State.reply_pfes (s : State) (d : Nat × Nat) (v : Nat) : (s.reply d v).ms.pfes = s.ms.pfes := by
  obtain ⟨m, hs, h, -⟩ := s.reply_step d v; rw [h]
@[simp] theorem State.reply_partials (s : State) (d : Nat × Nat) (v : Nat) : (s.reply d v).ms.partials = s.ms.partials := by
  obtain ⟨m, hs, h, -⟩ := s.reply_step d v; rw [h]
@[simp] theorem State.reply_pendings (s : State) (d : Nat × Nat) (v : Nat) : (s.reply d v).ms.pendings = s.ms.pendings := by
  obtain ⟨m, hs, h, -⟩ := s.reply_step d v; rw [h]
@[simp] theorem State.reply_heldLeaves (s : State) (d : Nat × Nat) (v : Nat) : (s.reply d v).heldLeaves = s.heldLeaves := by
  obtain ⟨m, hs, h, -⟩ := s.reply_step d v; rw [h]; rfl

/-- Where no die caches host memory, bytes are written at the host. -/
theorem State.hostStore_hostOf {s : State} (h : s.ms.hostLines = []) (p a : Nat) (bs : List Byte) :
    (s.hostStore p a bs).hostOf p = (s.hostOf p).writeN a bs := by
  have key : ∀ (bs : List Byte) (k : Nat) (s : State), s.ms.hostLines = [] →
      ((bs.zipIdx k).foldl (fun s x => s.hostPut p (a + x.2) x.1) s).hostOf p = (s.hostOf p).writeN (a + k) bs := by
    intro bs
    induction bs with
    | nil => intros; rfl
    | cons b bs ih =>
      intro k s h
      have hput : s.hostPut p (a + k) b = s.hostWrite p (a + k) [b] := by rw [State.hostPut, h]; rfl
      have hof : (s.hostWrite p (a + k) [b]).hostOf p = (s.hostOf p).write (a + k) b := by
        rw [State.hostWrite, State.hostOf, lookupD_assign, if_pos rfl]; rfl
      rw [List.zipIdx_cons, List.foldl_cons, hput, ih (k + 1) (s.hostWrite p (a + k) [b]) h, hof]
      rfl
  exact key bs 0 s h

/-- A status word stands where STATBASE and the tag say. -/
theorem State.reply_reads {s : State} {d : Nat × Nat} {v : Nat} (hlink : s.linkDead (0x300 + d.1) = false) (hhost : s.ms.hostLines = [])
    (hv : v < 2 ^ 64) : ((s.reply d v).hostOf d.1).readLE (s.statBase d.1 + 8 * d.2) 8 = v := by
  rw [State.reply, hlink, if_neg (by decide), State.serveAt, State.hostStore_hostOf hhost, Memory.readLE_writeN_leBytes _ _ _ hv]

/-! ## What an operation keeps -/

/-- What a reply goes by: where the status words stand, whether the link is dead, which host lines dies hold. -/
structure ReplyPath (s t : State) : Prop where
  ports : t.mgmt.ports = s.mgmt.ports
  links : t.fab.links = s.fab.links
  hosts : s.ms.hostLines = [] → t.ms.hostLines = []

/-- What no trap, kill, fence or access of the device touches. -/
structure Kept (s t : State) : Prop extends ReplyPath s t where
  cmds : t.mgmt.cmds = s.mgmt.cmds
  pfes : t.ms.pfes = s.ms.pfes

theorem ReplyPath.trans {s t u : State} (h : ReplyPath s t) (k : ReplyPath t u) : ReplyPath s u :=
  ⟨k.ports.trans h.ports, k.links.trans h.links, fun e => k.hosts (h.hosts e)⟩

theorem Kept.refl (s : State) : Kept s s := ⟨⟨rfl, rfl, id⟩, rfl, rfl⟩

theorem Kept.trans {s t u : State} (h : Kept s t) (k : Kept t u) : Kept s u :=
  ⟨h.toReplyPath.trans k.toReplyPath, k.cmds.trans h.cmds, k.pfes.trans h.pfes⟩

theorem ReplyPath.reads {s t : State} (h : ReplyPath s t) {d : Nat × Nat} {v : Nat} (hv : v < 2 ^ 64)
    (hlink : s.linkDead (0x300 + d.1) = false) (hhost : s.ms.hostLines = []) :
    ((t.reply d v).hostOf d.1).readLE (s.statBase d.1 + 8 * d.2) 8 = v := by
  have hdead : t.linkDead (0x300 + d.1) = false := by
    rw [State.linkDead, State.linkState, h.links]; exact hlink
  have hbase : t.statBase d.1 = s.statBase d.1 := by unfold State.statBase; rw [h.ports]
  exact hbase ▸ State.reply_reads hdead (h.hosts hhost) hv

/-- A command whose work keeps the arbiter and the reply's path is answered. -/
theorem answered_of {s t : State} (hcmds : t.mgmt.cmds = s.mgmt.cmds) (h : ReplyPath s t) (c : Cmd) {v : Nat} (hv : v < 2 ^ 64) :
    Answered s (t.answer c v) c v := by
  refine ⟨?_, fun hlink hhost => ?_⟩
  · rw [State.answer, State.reply_mgmt]; exact congrArg List.tail hcmds
  · have hpop : ReplyPath s t.popCmd := ⟨h.ports, h.links, h.hosts⟩
    exact hpop.reads (d := (c.port, c.tag)) hv hlink hhost

theorem answered_self (s : State) (c : Cmd) {v : Nat} (hv : v < 2 ^ 64) : Answered s (s.answer c v) c v :=
  answered_of rfl (Kept.refl s).toReplyPath c hv

@[simp] theorem State.answer_sched (s : State) (c : Cmd) (v : Nat) : (s.answer c v).sched = s.sched := by
  rw [State.answer, State.reply_sched]; rfl

end Sys2Proof.Machine
end

section
/-! PROOFS. Frames: what the device's own accesses, kills, fences and traps leave as it was. -/

namespace Sys2Proof.Machine

open Sys2Proof.Claims

/-! ## Contexts up to their bookkeeping -/

/-- A context without the pieces of its save area in use and the events that its workgroups have to admit. -/
def Context.bare (c : Context) : Context := { c with saveUsed := [], events := [] }

/-- An operation that changes no more of a context than its bookkeeping. -/
structure Steady (s t : State) : Prop extends Kept s t where
  ctxs : t.sched.ctxs.map Context.bare = s.sched.ctxs.map Context.bare

theorem Steady.refl (s : State) : Steady s s := ⟨Kept.refl s, rfl⟩

theorem Steady.trans {s t u : State} (h : Steady s t) (k : Steady t u) : Steady s u :=
  ⟨h.toKept.trans k.toKept, k.ctxs.trans h.ctxs⟩

/-- A context that stands after such an operation, from one that stood before. -/
theorem ctx?_of_bare {s t : State} (h : t.sched.ctxs.map Context.bare = s.sched.ctxs.map Context.bare) (k : Nat) :
    (t.ctx? k).map Context.bare = (s.ctx? k).map Context.bare := by
  have key : ∀ cs : List Context, (cs.find? (fun c => c.id == k)).map Context.bare = (cs.map Context.bare).find? (fun c => c.id == k) := by
    intro cs; rw [List.find?_map]; rfl
  rw [State.ctx?, State.ctx?, key, key, h]

theorem Steady.ctx? {s t : State} (h : Steady s t) {k : Nat} {x : Context} (hx : s.ctx? k = some x) :
    ∃ y, t.ctx? k = some y ∧ y.bare = x.bare := by
  have hb := ctx?_of_bare h.ctxs k
  rw [hx] at hb
  exact Option.map_eq_some_iff.1 hb

/-! ## Accesses of the device -/

/-- An access of the device itself: memory and what tracks it, and the watch tables of groups. -/
structure MemStep (s t : State) : Prop where
  sched : t.sched = { s.sched with groups := t.sched.groups }
  eng : t.eng = s.eng
  fab : t.fab = s.fab
  mgmt : t.mgmt = s.mgmt
  hosts : s.ms.hostLines = [] → t.ms.hostLines = []
  pfes : t.ms.pfes = s.ms.pfes

theorem MemStep.refl (s : State) : MemStep s s := ⟨rfl, rfl, rfl, rfl, id, rfl⟩

theorem MemStep.trans {s t u : State} (h : MemStep s t) (k : MemStep t u) : MemStep s u :=
  ⟨by rw [k.sched, h.sched], k.eng.trans h.eng, k.fab.trans h.fab, k.mgmt.trans h.mgmt, fun e => k.hosts (h.hosts e),
    k.pfes.trans h.pfes⟩

theorem MemStep.steady {s t : State} (h : MemStep s t) : Steady s t :=
  ⟨⟨⟨congrArg Mgmt.ports h.mgmt, congrArg Fabric.links h.fab, h.hosts⟩, congrArg Mgmt.cmds h.mgmt, h.pfes⟩, by rw [h.sched]⟩

theorem HostStep.memStep {s t : State} (h : HostStep s t) : MemStep s t := by
  obtain ⟨m, hs, rfl, h⟩ := h
  exact ⟨rfl, rfl, rfl, rfl, h, rfl⟩

/-- A write at the serving copies changes the bytes and the records of their lines. -/
theorem State.serveWrite_eq (s : State) (a : Nat) (bs : List Byte) :
    ∃ ls, s.serveWrite a bs = { s with ms := { s.ms with mem := s.ms.mem.writeN a bs, lines := ls } } :=
  foldl_rel (R := fun s t : State => ∃ ls, t = { s with ms := { s.ms with lines := ls } }) (fun _ => ⟨_, rfl⟩)
    (by rintro s _ _ ⟨_, rfl⟩ ⟨ls, rfl⟩; exact ⟨ls, rfl⟩) (f := fun s n => s.putLine _) (fun _ _ => ⟨_, rfl⟩) _ (s.devWrite a bs)

theorem State.serveWrite_step (s : State) (a : Nat) (bs : List Byte) : MemStep s (s.serveWrite a bs) := by
  obtain ⟨ls, h⟩ := s.serveWrite_eq a bs
  rw [h]; exact ⟨rfl, rfl, rfl, rfl, id, rfl⟩

theorem State.serveAt_step (s : State) (p : Place) (bs : List Byte) : MemStep s (s.serveAt p bs) := by
  cases p with
  | dev a => exact s.serveWrite_step a bs
  | peer i a => exact ⟨rfl, rfl, rfl, rfl, id, rfl⟩
  | host i a => exact (s.hostStore_step i a bs).memStep

theorem State.recall_step (s : State) (n : Nat) : MemStep s (s.recall n) := by
  unfold State.recall State.letGo
  split
  · exact MemStep.refl s
  · next h => simp only [if_neg h]; exact ⟨rfl, rfl, rfl, rfl, id, rfl⟩

theorem State.recalls_step (s : State) (ns : List Nat) : MemStep s (ns.foldl (fun s l => s.recall l) s) :=
  foldl_rel MemStep.refl MemStep.trans State.recall_step ns s

theorem State.deviceRead_step (s : State) (p : Place) (n : Nat) : MemStep s (s.deviceRead p n).1 := s.recalls_step _

theorem State.deviceWrite_step (s : State) (p : Place) (bs : List Byte) : MemStep s (s.deviceWrite p bs) :=
  (s.recalls_step _).trans (State.serveAt_step _ p bs)

theorem State.vread_step {s : State} {ctx va n : Nat} {r : State × List Byte} (h : s.vread ctx va n = some r) : MemStep s r.1 := by
  unfold State.vread at h
  split at h
  · cases h; exact s.deviceRead_step _ n
  · cases h
  · cases h

theorem State.vwrite_step {s t : State} {ctx va : Nat} {bs : List Byte} (h : s.vwrite ctx va bs = some t) : MemStep s t := by
  unfold State.vwrite at h
  split at h
  · cases h; exact s.deviceWrite_step _ bs
  · cases h
  · cases h

/-- Words that are written where the page table lets them be. -/
theorem State.vwrite_getD_step (s : State) (ctx va : Nat) (bs : List Byte) : MemStep s ((s.vwrite ctx va bs).getD s) := by
  cases h : s.vwrite ctx va bs with
  | none => exact MemStep.refl s
  | some t => exact State.vwrite_step h

theorem State.applyToLine_step (s : State) (a n : Nat) (ops : List PartialOp) : MemStep s (s.applyToLine a n ops) :=
  s.serveWrite_step _ _

theorem State.markRegions_step (s : State) (c : Context) (ids : List Nat) (word : Nat) : MemStep s (s.markRegions c ids word) :=
  foldl_rel MemStep.refl MemStep.trans (f := fun st r => st.serveWrite (c.rtab + 64 * r + 24) (leBytes 8 word))
    (fun s _ => s.serveWrite_step _ _) ids s

theorem State.initContext_step (s : State) (c : Context) : MemStep s (s.initContext c) := by
  unfold State.initContext
  have h := s.serveWrite_step c.fqBase (List.replicate 16 0)
  dsimp only
  split
  · exact h.trans (State.serveWrite_step _ _ _)
  · split
    · exact h.trans (State.serveWrite_step _ _ _)
    · exact h

/-! ## Queues -/

/-- A queue whose header is written changes memory and the queues. -/
theorem State.syncQueue_eq (s : State) (q : Queue) : ∃ t qs, MemStep s t ∧ s.syncQueue q = { t with sched := { t.sched with queues := qs } } := by
  unfold State.syncQueue
  split
  · next t h => exact ⟨t, _, State.vwrite_step h, rfl⟩
  · exact ⟨s, _, MemStep.refl s, rfl⟩

theorem State.syncQueue_steady (s : State) (q : Queue) : Steady s (s.syncQueue q) := by
  obtain ⟨t, qs, ht, h⟩ := s.syncQueue_eq q
  rw [h]; exact ht.steady.trans ⟨⟨⟨rfl, rfl, id⟩, rfl, rfl⟩, rfl⟩

theorem State.syncQueue_units (s : State) (q : Queue) : (s.syncQueue q).sched.units = s.sched.units := by
  obtain ⟨t, qs, ht, h⟩ := s.syncQueue_eq q
  rw [h, ht.sched]

theorem State.addLaunch_steady (s : State) (q : Queue) (i : Nat) (r : LaunchRec) (region : Nat) (k : KDesc) (a b : Bool) (c : Option Nat) :
    Steady s (s.addLaunch q i r region k a b c) := ⟨⟨⟨rfl, rfl, id⟩, rfl, rfl⟩, rfl⟩

theorem State.cancelUnparsed_steady (s : State) (q : Queue) : Steady s (s.cancelUnparsed q) := by
  refine (foldl_rel Steady.refl Steady.trans (fun s i => ?_) _ s).trans (State.syncQueue_steady _ _)
  split
  · exact s.addLaunch_steady ..
  · next h => exact (State.vread_step h).steady.trans (State.addLaunch_steady ..)

/-! ## Contexts and groups replaced -/

/-- A change of a context's bookkeeping. -/
theorem State.mapCtx_steady (s : State) (k : Nat) {f : Context → Context} (hf : ∀ c, (f c).bare = c.bare) : Steady s (s.mapCtx k f) := by
  refine ⟨⟨⟨rfl, rfl, id⟩, rfl, rfl⟩, ?_⟩
  rw [State.mapCtx, List.map_map]
  refine List.map_congr_left fun c _ => ?_
  rw [Function.comp]
  split
  · exact hf c
  · rfl

theorem State.putGroup_steady (s : State) (g : Group) : Steady s (s.putGroup g) := ⟨⟨⟨rfl, rfl, id⟩, rfl, rfl⟩, rfl⟩

theorem State.addEvent_steady (s : State) (k : Nat) (e : ExtEvent) : Steady s (s.addEvent k e) := s.mapCtx_steady k fun _ => rfl

/-! ## Kills (R152) -/

/-- A kill of a unit: Steady, and of the units only those of one number go. -/
structure KillStep (s t : State) : Prop extends Steady s t where
  units : ∀ k, s.unit? k = none → t.unit? k = none
  launches : t.sched.launches = s.sched.launches

theorem KillStep.refl (s : State) : KillStep s s := ⟨Steady.refl s, fun _ => id, rfl⟩

theorem KillStep.trans {s t u : State} (h : KillStep s t) (k : KillStep t u) : KillStep s u :=
  ⟨h.toSteady.trans k.toSteady, fun n e => k.units n (h.units n e), k.launches.trans h.launches⟩

theorem State.leaveBar_eq (s : State) (g : Group) : ∃ m, s.leaveBar g = { s with ms := { s.ms with sram := m } } := by
  unfold State.leaveBar
  split
  · exact ⟨_, rfl⟩
  · exact ⟨_, rfl⟩

theorem State.leaveBar_kept (s : State) (g : Group) : Kept s (s.leaveBar g) := by
  obtain ⟨m, h⟩ := s.leaveBar_eq g
  rw [h]; exact ⟨⟨rfl, rfl, id⟩, rfl, rfl⟩

theorem State.dropGroup_step (s : State) (g : Group) : KillStep s (s.dropGroup g) := by
  obtain ⟨m, h⟩ := s.leaveBar_eq g
  unfold State.dropGroup
  rw [h]
  exact ⟨⟨⟨⟨rfl, rfl, id⟩, rfl, rfl⟩, rfl⟩, fun _ => id, rfl⟩

theorem State.scrubScratch_step (s : State) (cluster : Nat) (run : Option (Nat × Nat)) : KillStep s (s.scrubScratch cluster run) := by
  unfold State.scrubScratch
  split
  · exact KillStep.refl s
  · exact ⟨⟨⟨⟨rfl, rfl, id⟩, rfl, rfl⟩, rfl⟩, fun _ => id, rfl⟩

theorem State.freeSave_step (s : State) (ctx : Nat) (ps : List (Nat × Nat)) : KillStep s (s.freeSave ctx ps) :=
  ⟨s.mapCtx_steady ctx fun _ => rfl, fun _ => id, rfl⟩

theorem unit?_filter_none {us : List HUnit} {k : Nat} (n : Nat) (h : us.find? (fun u => u.id == k) = none) :
    (us.filter (fun v => v.id != n)).find? (fun u => u.id == k) = none := by
  rw [List.find?_eq_none] at h ⊢
  exact fun u hu => h u (List.mem_filter.1 hu).1

/-- A unit that gives up everything is gone; nothing of a context but its bookkeeping has changed. -/
theorem State.releaseUnit_step (s : State) (u : HUnit) : KillStep s (s.releaseUnit u) ∧ (s.releaseUnit u).unit? u.id = none := by
  unfold State.releaseUnit
  have hdrop := foldl_rel KillStep.refl KillStep.trans State.dropGroup_step (s.unitGroups u.id) s
  dsimp only
  generalize (s.unitGroups u.id).foldl (fun s g => s.dropGroup g) s = s1 at hdrop ⊢
  have h2 := (hdrop.trans (s1.scrubScratch_step u.cluster (if u.saved then none else u.scratch))).trans
    (State.freeSave_step _ (match s.launch? u.launch with
      | some l => l.ctx
      | none => 0) ((s.unitGroups u.id).map Group.spillPiece ++ u.saveAt))
  refine ⟨⟨⟨⟨⟨h2.ports, h2.links, h2.hosts⟩, h2.cmds, h2.pfes⟩, h2.ctxs⟩,
    fun k e => unit?_filter_none _ (h2.units k e), h2.launches⟩, ?_⟩
  rw [State.unit?, List.find?_eq_none]
  intro v hv
  simpa using (List.mem_filter.1 hv).2

theorem State.killUnit_step (s : State) (u : HUnit) : KillStep s (s.killUnit u) ∧ (s.killUnit u).unit? u.id = none := by
  have hrelease (t : State) (h : KillStep s t) : KillStep s (t.releaseUnit u) ∧ (t.releaseUnit u).unit? u.id = none :=
    ⟨h.trans (t.releaseUnit_step u).1, (t.releaseUnit_step u).2⟩
  exact hrelease _ ⟨⟨⟨⟨rfl, rfl, id⟩, rfl, rfl⟩, rfl⟩, fun _ => id, rfl⟩

/-- Several units killed: each is gone. -/
theorem State.killUnits_step (us : List HUnit) (s : State) :
    KillStep s (us.foldl (fun s u => s.killUnit u) s) ∧ ∀ u ∈ us, (us.foldl (fun s u => s.killUnit u) s).unit? u.id = none := by
  induction us generalizing s with
  | nil => exact ⟨KillStep.refl s, by simp⟩
  | cons u us ih =>
    obtain ⟨hkill, hgone⟩ := s.killUnit_step u
    obtain ⟨hrest, hall⟩ := ih (s.killUnit u)
    refine ⟨hkill.trans hrest, fun v hv => ?_⟩
    rcases List.mem_cons.1 hv with rfl | hv
    · exact hrest.units _ hgone
    · exact hall v hv

theorem State.killLaunch_step (s : State) (id : Nat) : KillStep s (s.killLaunch id) := (State.killUnits_step _ s).1

/-! ## Fences and fault policy (R91 to R93) -/

theorem State.logRecord_kept (s : State) (w0 addr detail : Nat) : Kept s (s.logRecord w0 addr detail) := by
  unfold State.logRecord
  split
  · exact ⟨⟨rfl, rfl, id⟩, rfl, rfl⟩
  · exact ⟨⟨rfl, rfl, id⟩, rfl, rfl⟩

theorem State.stopRegions_kept (s : State) (ctx root : Nat) : Kept s (s.stopRegions ctx root) := by
  unfold State.stopRegions
  split
  · exact Kept.refl s
  · exact ⟨⟨rfl, rfl, id⟩, rfl, rfl⟩

theorem State.startFence_kept (s : State) (ctx root : Nat) (fatal : Bool) (reply : Option (Nat × Nat)) :
    Kept s (s.startFence ctx root fatal reply) := by
  unfold State.startFence
  split
  · exact Kept.refl s
  · have hstop (t : State) (h : Kept s t) : Kept s (t.stopRegions ctx root) := h.trans (t.stopRegions_kept ctx root)
    exact hstop _ ⟨⟨rfl, rfl, id⟩, rfl, rfl⟩

theorem State.fatalRegion_kept (s : State) (ctx r kind addr : Nat) : Kept s (s.fatalRegion ctx r kind addr) := by
  unfold State.fatalRegion
  have hlog (w0 a d : Nat) := s.logRecord_kept w0 a d
  have hfirst : Kept s (if kind == 0 then s else s.logRegion 1 kind ctx r false addr) := by
    split
    · exact Kept.refl s
    · exact hlog ..
  split
  · exact Kept.refl s
  dsimp only
  split
  · split
    · exact hlog ..
    · exact hlog ..
  · exact (hfirst.trans (State.logRecord_kept _ _ _ _)).trans (State.startFence_kept _ _ _ _ _)

theorem State.faultPolicy_kept (s : State) (ctx launch region cause : Nat) : Kept s (s.faultPolicy ctx launch region cause) := by
  unfold State.faultPolicy
  split
  · exact Kept.refl s
  · split
    · exact (s.killLaunch_step launch).toKept.trans ⟨⟨rfl, rfl, id⟩, rfl, rfl⟩
    · exact s.fatalRegion_kept _ _ _ _

/-! ## Traps -/

theorem State.snoop_kept (s : State) (l : Nat) (high : Bool) (port : Nat) : Kept s (s.snoop l high port) := by
  unfold State.snoop
  split
  · exact Kept.refl s
  · exact ⟨⟨rfl, rfl, id⟩, rfl, rfl⟩

theorem State.devGate_kept {s t : State} {a n : Nat} (h : s.devGate a n = some t) : Kept s t := by
  unfold State.devGate at h
  split at h
  · cases h; exact Kept.refl s
  · unfold State.hostGate at h
    split at h
    · cases h
    · cases h; exact s.snoop_kept _ _ _

theorem State.startHandler_kept (s : State) (g : Group) (pc : Nat) (pre : Bool) : Kept s (s.startHandler g pc pre) := by
  have hbars (gs : List Group) : Kept s (gs.foldl (fun s h => s.leaveBar h) s) :=
    foldl_rel Kept.refl Kept.trans State.leaveBar_kept gs s
  have hlast {t : State} (e : Group) (h : Kept s t) : Kept s (match t.devGate g.spill 96 with
      | some s3 => s3.putGroup e
      | none => t.writeFrame e) := by
    split
    · next hg => exact (h.trans (State.devGate_kept hg)).trans (State.putGroup_steady _ e).toKept
    · exact (h.trans (State.serveWrite_step _ _ _).steady.toKept).trans (State.putGroup_steady _ _).toKept
  unfold State.startHandler
  cases pre with
  | true => exact hlast _ (Kept.refl s)
  | false => exact hlast _ ((hbars _).trans ⟨⟨rfl, rfl, id⟩, rfl, rfl⟩)

theorem State.takeTrap_kept (s : State) (g : Group) (slot : Nat) (t : TrapInfo) : Kept s (s.takeTrap g slot t) := by
  unfold State.takeTrap
  split
  · exact Kept.refl s
  split
  · exact Kept.refl s
  split
  · exact s.fatalRegion_kept _ _ _ _
  dsimp only
  split
  · exact s.faultPolicy_kept _ _ _ _
  split
  · exact (s.leaveBar_kept g).trans (State.putGroup_steady _ _).toKept
  · exact (s.leaveBar_kept g).trans (State.startHandler_kept _ _ _ _)

end Sys2Proof.Machine
end

section
/-! PROOFS. The end of fault-waits (R207, R209): groups that issue again, groups that trap. -/

namespace Sys2Proof.Machine

open Sys2Proof.Claims

/-! ## Groups that issue again -/

/-- A group without its state and the report of its fault. -/
def Group.still (g : Group) : Group := { g with st := .running, prevSt := .running, lateTrap := none }

theorem Group.still_detach (g : Group) : g.detach.still = g.still := by
  unfold Group.detach
  split
  · rfl
  · split <;> rfl

theorem Group.still_retryFault (g : Group) : g.retryFault.still = g.still := by
  unfold Group.retryFault
  split <;> rfl

/-- Nothing but the states of groups and the events of contexts has changed. -/
def RetryStep (s t : State) : Prop :=
  ∃ gs cs, t = { s with sched := { s.sched with groups := gs, ctxs := cs } } ∧ cs.map Context.bare = s.sched.ctxs.map Context.bare ∧
    ∀ y ∈ gs, ∃ x ∈ s.sched.groups, y.still = x.still

theorem RetryStep.refl (s : State) : RetryStep s s := ⟨_, _, rfl, rfl, fun y hy => ⟨y, hy, rfl⟩⟩

theorem RetryStep.trans {s t u : State} (h : RetryStep s t) (k : RetryStep t u) : RetryStep s u := by
  obtain ⟨gs, cs, rfl, hc, hg⟩ := h
  obtain ⟨gs', cs', rfl, kc, kg⟩ := k
  refine ⟨gs', cs', rfl, kc.trans hc, fun y hy => ?_⟩
  obtain ⟨x, hx, hyx⟩ := kg y hy
  obtain ⟨z, hz, hxz⟩ := hg x hx
  exact ⟨z, hz, hyx.trans hxz⟩

theorem RetryStep.steady {s t : State} (h : RetryStep s t) : Steady s t := by
  obtain ⟨gs, cs, rfl, hc, -⟩ := h
  exact ⟨⟨⟨rfl, rfl, id⟩, rfl, rfl⟩, hc⟩

theorem RetryStep.launchOf {s t : State} (h : RetryStep s t) (g : Group) : t.launchOf g = s.launchOf g := by
  obtain ⟨gs, cs, rfl, -, -⟩ := h
  rfl

theorem RetryStep.unit? {s t : State} (h : RetryStep s t) (k : Nat) : t.unit? k = s.unit? k := by
  obtain ⟨gs, cs, rfl, -, -⟩ := h
  rfl

theorem RetryStep.launch? {s t : State} (h : RetryStep s t) (k : Nat) : t.launch? k = s.launch? k := by
  obtain ⟨gs, cs, rfl, -, -⟩ := h
  rfl

theorem Steady.drydown {s t : State} (h : Steady s t) (k : Nat) : t.drydown k = s.drydown k := by
  have key (u : State) : u.drydown k = ((u.ctx? k).map Context.bare).elim false (fun c => c.cmode.getLsbD 0) := by
    unfold State.drydown
    cases u.ctx? k <;> rfl
  rw [key, key, ctx?_of_bare h.ctxs k]

theorem Steady.handlerOf {s t : State} (h : Steady s t) (u : HUnit) (k cause : Nat) : t.handlerOf u k cause = s.handlerOf u k cause := by
  have key (v : State) : v.handlerOf u k cause = if cause == causePreempt then u.kd.preemptH
      else if u.kd.trapH != 0 then u.kd.trapH else ((v.ctx? k).map Context.bare).elim 0 (·.handler) := by
    unfold State.handlerOf
    cases v.ctx? k <;> rfl
  rw [key, key, ctx?_of_bare h.ctxs k]

/-- No sibling enters a handler where groups only issue again. -/
theorem RetryStep.wgInHandler {s t : State} (h : RetryStep s t) {g : Group} (hs : s.wgInHandler g = false) : t.wgInHandler g = false := by
  obtain ⟨gs, cs, rfl, -, hg⟩ := h
  simp only [State.wgInHandler, State.wgGroups, List.any_eq_false, List.mem_filter] at hs ⊢
  rintro y ⟨hy, hyg⟩
  obtain ⟨x, hx, hyx⟩ := hg y hy
  have hgi : y.gi = x.gi := (congrArg Group.gi hyx :)
  have hunit : y.unit = x.unit := (congrArg Group.unit hyx :)
  have hwg : y.wg = x.wg := (congrArg Group.wg hyx :)
  have hslot : y.slot = x.slot := (congrArg Group.slot hyx :)
  have hhdl : y.hdl = x.hdl := (congrArg Group.hdl hyx :)
  rw [hunit, hwg, Group.isGhost, hslot] at hyg
  rw [hgi, Group.inTrapHandler, hhdl]
  exact hs x ⟨hx, hyg⟩

/-! ## The end of one fault-wait -/

theorem State.putGroup_retryStep {s : State} {x g : Group} (hx : x ∈ s.sched.groups) (h : g.still = x.still) :
    RetryStep s (s.putGroup g) := by
  refine ⟨_, _, rfl, rfl, fun y hy => ?_⟩
  obtain ⟨z, hz, rfl⟩ := List.mem_map.1 hy
  split
  · exact ⟨x, hx, h⟩
  · exact ⟨z, hz, rfl⟩

theorem State.mem_of_group? {s : State} {k j : Nat} {x : Group} (h : s.group? k j = some x) : x ∈ s.sched.groups :=
  List.mem_of_find?_eq_some h

theorem State.addEvent_retryStep (s : State) (k : Nat) (e : ExtEvent) : RetryStep s (s.addEvent k e) :=
  ⟨_, _, rfl, (s.addEvent_steady k e).ctxs, fun y hy => ⟨y, hy, rfl⟩⟩

/-- A fault-wait that does not end in a trap: nothing happens, or the group is put back, waiting without an entry or issuing again. -/
theorem State.endFaultWait_cases (s : State) (core slot : Nat) :
    s.endFaultWait core slot false = s ∨
    (∃ x k e, s.group? core slot = some x ∧ s.endFaultWait core slot false = (s.putGroup x.detach).addEvent k e) ∨
    ∃ x, s.group? core slot = some x ∧ s.endFaultWait core slot false = s.putGroup x.retryFault := by
  unfold State.endFaultWait
  split
  · exact .inl rfl
  next x hx =>
  split
  · exact .inl rfl
  split
  · dsimp only
    split
    · exact .inl rfl
    · exact .inr (.inl ⟨x, _, _, hx, rfl⟩)
  · exact .inr (.inr ⟨x, hx, rfl⟩)

theorem State.endFaultWait_retryStep (s : State) (core slot : Nat) : RetryStep s (s.endFaultWait core slot false) := by
  rcases s.endFaultWait_cases core slot with h | ⟨x, k, e, hx, h⟩ | ⟨x, hx, h⟩
  · rw [h]; exact RetryStep.refl s
  · rw [h]
    exact (State.putGroup_retryStep (State.mem_of_group? hx) x.still_detach).trans (State.addEvent_retryStep _ k e)
  · rw [h]; exact State.putGroup_retryStep (State.mem_of_group? hx) x.still_retryFault

theorem Group.place_of_still {g h : Group} (e : g.still = h.still) : g.core = h.core ∧ g.slot = h.slot :=
  ⟨(congrArg Group.core e :), (congrArg Group.slot e :)⟩

theorem State.group?_addEvent (s : State) (n : Nat) (e : ExtEvent) (k j : Nat) : (s.addEvent n e).group? k j = s.group? k j := rfl

/-- The groups of other slots stay. -/
theorem State.endFaultWait_other (s : State) {core slot k j : Nat} (h : ¬(k = core ∧ j = slot)) :
    (s.endFaultWait core slot false).group? k j = s.group? k j := by
  have hput {x g : Group} (hx : s.group? core slot = some x) (hg : g.still = x.still) : (s.putGroup g).group? k j = s.group? k j := by
    obtain ⟨hc, hs⟩ := State.group?_some hx
    obtain ⟨gc, gs⟩ := Group.place_of_still hg
    exact State.group?_putGroup_other (by rw [gc, gs, hc, hs]; exact h)
  rcases s.endFaultWait_cases core slot with e | ⟨x, n, v, hx, e⟩ | ⟨x, hx, e⟩
  · rw [e]
  · rw [e, State.group?_addEvent]; exact hput hx x.still_detach
  · rw [e]; exact hput hx x.still_retryFault

/-- A group of the slot keeps what detaching and issuing again keep. -/
theorem State.endFaultWait_same {s : State} {P : Group → Prop} (hd : ∀ g, P g → P g.detach) (hr : ∀ g, P g → P g.retryFault)
    {core slot : Nat} {x : Group} (hx : s.group? core slot = some x) (hP : P x) :
    ∃ y, (s.endFaultWait core slot false).group? core slot = some y ∧ P y := by
  obtain ⟨hc, hs⟩ := State.group?_some hx
  have hput {g : Group} (hg : g.still = x.still) : (s.putGroup g).group? core slot = some g := by
    obtain ⟨gc, gs⟩ := Group.place_of_still hg
    exact State.group?_putGroup_same hx (gc.trans hc) (gs.trans hs)
  rcases s.endFaultWait_cases core slot with e | ⟨y, n, v, hy, e⟩ | ⟨y, hy, e⟩
  · rw [e]; exact ⟨x, hx, hP⟩
  · cases hx.symm.trans hy
    rw [e, State.group?_addEvent]; exact ⟨_, hput x.still_detach, hd x hP⟩
  · cases hx.symm.trans hy
    rw [e]; exact ⟨_, hput x.still_retryFault, hr x hP⟩

/-- A group of no Drydown context issues again at once. -/
theorem State.endFaultWait_retries {s : State} {core slot : Nat} {x : Group} {l : Launch} (hx : s.group? core slot = some x)
    (hl : s.launchOf x = some l) (hd : s.drydown l.ctx = false) : s.endFaultWait core slot false = s.putGroup x.retryFault := by
  simp [State.endFaultWait, hx, hl, hd]

/-- A group of no Drydown context takes the trap of its fault. -/
theorem State.endFaultWait_traps {s : State} {core slot : Nat} {x : Group} {l : Launch} (hx : s.group? core slot = some x)
    (hl : s.launchOf x = some l) (hd : s.drydown l.ctx = false) : s.endFaultWait core slot true = s.failFault x := by
  simp [State.endFaultWait, hx, hl, hd]

theorem State.failFault_kept (s : State) (g : Group) : Kept s (s.failFault g) := by
  unfold State.failFault
  split
  · exact Kept.refl s
  · exact (s.putGroup_steady _).toKept.trans (State.takeTrap_kept _ _ _ _)

theorem State.endFaultWait_kept (s : State) (core slot : Nat) (fail : Bool) : Kept s (s.endFaultWait core slot fail) := by
  cases fail with
  | false => exact (s.endFaultWait_retryStep core slot).steady.toKept
  | true =>
    unfold State.endFaultWait
    split
    · exact Kept.refl s
    split
    · exact Kept.refl s
    split
    · dsimp only
      split
      · exact Kept.refl s
      · exact (s.putGroup_steady _).toKept.trans (State.addEvent_steady _ _ _).toKept
    · exact s.failFault_kept _

/-! ## The end of the fault-waits of an entry -/

/-- The fault-waits of some groups end, one after another, in a trap where a test says so. -/
def State.endWaits (s : State) (trap : Group → Bool) (gs : List Group) : State :=
  gs.foldl (fun st g => st.endFaultWait g.core g.slot (trap g)) s

theorem State.endWaits_kept (s : State) (trap : Group → Bool) (gs : List Group) : Kept s (s.endWaits trap gs) :=
  foldl_rel Kept.refl Kept.trans (f := fun st (g : Group) => st.endFaultWait g.core g.slot (trap g))
    (fun s g => s.endFaultWait_kept g.core g.slot (trap g)) gs s

theorem State.endWaits_retryStep {trap : Group → Bool} {gs : List Group} (h : ∀ g ∈ gs, trap g = false) (s : State) :
    RetryStep s (s.endWaits trap gs) := by
  induction gs generalizing s with
  | nil => exact RetryStep.refl s
  | cons g gs ih =>
    have hstep := s.endFaultWait_retryStep g.core g.slot
    rw [← h g (List.mem_cons_self ..)] at hstep
    exact hstep.trans (ih (fun x hx => h x (List.mem_cons_of_mem _ hx)) _)

/-- A slot of which no fault-wait ends keeps its group. -/
theorem State.endWaits_other {trap : Group → Bool} {gs : List Group} {k j : Nat}
    (h : ∀ g ∈ gs, trap g = false ∧ ¬(k = g.core ∧ j = g.slot)) (s : State) : (s.endWaits trap gs).group? k j = s.group? k j := by
  induction gs generalizing s with
  | nil => rfl
  | cons g gs ih =>
    obtain ⟨htrap, hslot⟩ := h g (List.mem_cons_self ..)
    rw [State.endWaits, List.foldl_cons, htrap]
    exact (ih (fun x hx => h x (List.mem_cons_of_mem _ hx)) _).trans (s.endFaultWait_other hslot)

/-- A group keeps what detaching and issuing again keep. -/
theorem State.endWaits_keeps {P : Group → Prop} (hd : ∀ g, P g → P g.detach) (hr : ∀ g, P g → P g.retryFault) {trap : Group → Bool}
    {gs : List Group} (h : ∀ g ∈ gs, trap g = false) {s : State} {k j : Nat} {x : Group} (hx : s.group? k j = some x) (hP : P x) :
    ∃ y, (s.endWaits trap gs).group? k j = some y ∧ P y := by
  induction gs generalizing s x with
  | nil => exact ⟨x, hx, hP⟩
  | cons g gs ih =>
    have hrest := fun y hy => h y (List.mem_cons_of_mem _ hy)
    rw [State.endWaits, List.foldl_cons, h g (List.mem_cons_self ..)]
    by_cases hs : k = g.core ∧ j = g.slot
    · obtain ⟨rfl, rfl⟩ := hs
      obtain ⟨y, hy, hPy⟩ := State.endFaultWait_same hd hr hx hP
      exact ih hrest hy hPy
    · exact ih hrest ((s.endFaultWait_other hs).trans hx) hP

/-- A group that runs again is RUNNING or in its handler. -/
theorem Group.resumeSt_cases (g : Group) : g.resumeSt = .running ∨ g.resumeSt = .handler ∨ g.resumeSt = .phandler := by
  unfold Group.resumeSt
  split
  · exact .inl rfl
  · split
    · exact .inr (.inr rfl)
    · exact .inr (.inl rfl)

theorem Group.resumeSt_ne_held (g : Group) : g.resumeSt ≠ .held := by
  rcases g.resumeSt_cases with h | h | h <;> rw [h] <;> nofun

/-- A group that is in no fault-wait leaves none. -/
theorem Group.detach_of_awake {g : Group} (h : g.st = .running ∨ g.st = .handler ∨ g.st = .phandler) : g.detach = g := by
  have hnone : g.faultOf = none := by
    unfold Group.faultOf
    rcases h with h | h | h <;> rw [h] <;> split <;> rfl
  rw [Group.detach, hnone]

theorem Group.retryFault_of_ne_held {g : Group} (h : g.st ≠ .held) : g.retryFault = { g with st := g.resumeSt, lateTrap := none } := by
  rw [Group.retryFault, if_neg (by simpa using h)]

/-- A group that issues again has nothing more to do when a fault-wait of its slot ends again. -/
theorem Group.retryFault_retryFault {g : Group} (h : g.st ≠ .held) : g.retryFault.retryFault = g.retryFault := by
  rw [Group.retryFault_of_ne_held h, Group.retryFault_of_ne_held (by exact g.resumeSt_ne_held)]
  rfl

/-- A group whose fault-wait is among those that end issues again. -/
theorem State.endWaits_retries {trap : Group → Bool} {gs : List Group} (h : ∀ g ∈ gs, trap g = false) {s : State} {k j : Nat} {x : Group}
    {l : Launch} (hx : s.group? k j = some x) (hst : x.st ≠ .held) (hl : s.launchOf x = some l) (hd : s.drydown l.ctx = false)
    (hmem : ∃ g ∈ gs, k = g.core ∧ j = g.slot) : (s.endWaits trap gs).group? k j = some x.retryFault := by
  induction gs generalizing s with
  | nil => obtain ⟨g, hg, -⟩ := hmem; cases hg
  | cons g gs ih =>
    have hrest := fun y hy => h y (List.mem_cons_of_mem _ hy)
    have hstep := s.endFaultWait_retryStep g.core g.slot
    rw [State.endWaits, List.foldl_cons, h g (List.mem_cons_self ..)]
    by_cases hs : k = g.core ∧ j = g.slot
    · obtain ⟨rfl, rfl⟩ := hs
      have hput : (s.endFaultWait g.core g.slot false).group? g.core g.slot = some x.retryFault := by
        obtain ⟨hc, hj⟩ := State.group?_some hx
        obtain ⟨rc, rj⟩ := Group.place_of_still x.still_retryFault
        rw [State.endFaultWait_retries hx hl hd]
        exact State.group?_putGroup_same hx (rc.trans hc) (rj.trans hj)
      have hdetach : x.retryFault.detach = x.retryFault :=
        Group.detach_of_awake (by rw [Group.retryFault_of_ne_held hst]; exact x.resumeSt_cases)
      have hretry : x.retryFault.retryFault = x.retryFault := Group.retryFault_retryFault hst
      obtain ⟨y, hy, rfl⟩ := State.endWaits_keeps (P := fun y => y = x.retryFault) (by rintro _ rfl; exact hdetach)
        (by rintro _ rfl; exact hretry) hrest hput rfl
      exact hy
    · obtain ⟨y, hy, hslot⟩ := hmem
      rcases List.mem_cons.1 hy with rfl | hy
      · exact absurd hslot hs
      · exact ih hrest ((s.endFaultWait_other hs).trans hx) ((hstep.launchOf x).trans hl) ((hstep.steady.drydown _).trans hd)
          ⟨y, hy, hslot⟩

/-- The entries freed when a context drains: contexts keep all but their bookkeeping, launches, engines and the arbiter stay. -/
structure FreeStep (s t : State) : Prop where
  ctxs : t.sched.ctxs.map Context.bare = s.sched.ctxs.map Context.bare
  launches : t.sched.launches = s.sched.launches
  eng : t.eng = s.eng
  cmds : t.mgmt.cmds = s.mgmt.cmds

theorem FreeStep.refl (s : State) : FreeStep s s := ⟨rfl, rfl, rfl, rfl⟩

theorem FreeStep.trans {s t u : State} (h : FreeStep s t) (k : FreeStep t u) : FreeStep s u :=
  ⟨k.ctxs.trans h.ctxs, k.launches.trans h.launches, k.eng.trans h.eng, k.cmds.trans h.cmds⟩

theorem RetryStep.freeStep {s t : State} (h : RetryStep s t) : FreeStep s t := by
  obtain ⟨gs, cs, rfl, hc, -⟩ := h
  exact ⟨hc, rfl, rfl, rfl⟩

theorem State.entryFreed_retryStep (s : State) (p : Pfe) : RetryStep s (s.entryFreed p false) :=
  State.endWaits_retryStep (fun _ _ => rfl) s

theorem State.freeFaults_step (s : State) (ctx : Nat) : FreeStep s (s.freeFaults ctx) := by
  have hfree {s t : State} (h : FreeStep s t) (p : Pfe) : FreeStep s (t.entryFreed p false) := h.trans (t.entryFreed_retryStep p).freeStep
  exact foldl_rel FreeStep.refl FreeStep.trans (f := fun st (p : Pfe) => (st.putPfe { p with pending := false }).entryFreed p false)
    (fun s p => hfree (s := s) (t := s.putPfe { p with pending := false }) ⟨rfl, rfl, rfl, rfl⟩ p) _ s

/-! ## Resolution (R209) -/

/-- A fault entry after its resolution. -/
def Pfe.resolved (p : Pfe) : Pfe := { p with pending := false, gen := p.gen + 1 }

theorem State.pfe_congr {s t : State} (h : t.ms.pfes = s.ms.pfes) (b i : Nat) : t.pfe b i = s.pfe b i := by
  unfold State.pfe
  rw [h]

theorem State.pfe_putPfe (s : State) (p : Pfe) : (s.putPfe p).pfe p.base p.index = p := by
  have hfind : (s.putPfe p).ms.pfes.find? (fun q => q.base == p.base && q.index == p.index) = some p := by
    refine List.find?_append.trans ?_
    rw [List.find?_eq_none.2 fun q hq => by simpa only [Bool.not_eq_true', Bool.not_eq_true] using (List.mem_filter.1 hq).2]
    simp
  rw [State.pfe, hfind]

/-- A resolution of either mode leaves the entry FREE with the next generation, and what a reply goes by as it was. -/
theorem State.entryFreed_resolved {s t : State} {p : Pfe} (hpath : ReplyPath s t) (hcmds : t.mgmt.cmds = s.mgmt.cmds)
    (hpfes : t.ms.pfes = (s.putPfe p.resolved).ms.pfes) (fail : Bool) :
    ReplyPath s (t.entryFreed p fail) ∧ (t.entryFreed p fail).mgmt.cmds = s.mgmt.cmds ∧
      (t.entryFreed p fail).pfe p.base p.index = p.resolved := by
  have hkept : Kept t (t.entryFreed p fail) := t.endWaits_kept _ _
  refine ⟨hpath.trans hkept.toReplyPath, hkept.cmds.trans hcmds, ?_⟩
  rw [State.pfe_congr (hkept.pfes.trans hpfes)]
  exact s.pfe_putPfe p.resolved

theorem State.resolve_kept (s : State) (p : Pfe) (retry : Bool) :
    ReplyPath s (if retry then s.resolveRetry p else s.resolveFail p) ∧
      (if retry then s.resolveRetry p else s.resolveFail p).mgmt.cmds = s.mgmt.cmds ∧
      (if retry then s.resolveRetry p else s.resolveFail p).pfe p.base p.index = p.resolved := by
  cases retry with
  | true => exact State.entryFreed_resolved (s := s) (p := p) (t := (s.putPfe p.resolved).resumeTransfers p.token) ⟨rfl, rfl, id⟩ rfl rfl false
  | false => exact State.entryFreed_resolved (s := s) (p := p) (t := (s.putPfe p.resolved).failTransfers p.token) ⟨rfl, rfl, id⟩ rfl rfl true

theorem Group.attachedTo_of_faultWait {g : Group} {b i : Nat} (hst : g.st = .faultWait b (some i)) (hs : g.saved = none) :
    g.attachedTo b i = true := by
  simp [Group.attachedTo, Group.faultOf, hst, hs]

/-- RETRY: a group attached to the entry issues again. -/
theorem State.resolveRetry_group {s : State} {p : Pfe} {h : Group} {l : Launch} (hg : s.group? h.core h.slot = some h)
    (hst : h.st = .faultWait p.base (some p.index)) (hs : h.saved = none) (hl : s.launchOf h = some l) (hd : s.drydown l.ctx = false) :
    (s.resolveRetry p).group? h.core h.slot = some { h with st := h.resumeSt, lateTrap := none } := by
  have hheld : h.st ≠ .held := by rw [hst]; nofun
  have hfreed : h.freedBy p.base p.index = true := by rw [Group.freedBy, Group.attachedTo_of_faultWait hst hs]; rfl
  rw [← Group.retryFault_of_ne_held hheld]
  exact State.endWaits_retries (s := (s.putPfe p.resolved).resumeTransfers p.token) (fun _ _ => rfl) hg hheld hl hd
    ⟨h, List.mem_filter.2 ⟨State.mem_of_group? hg, hfreed⟩, rfl, rfl⟩

/-- A group in the handler of its fault, entered at an address. -/
def TrappedAt (a : Nat) (g : Group) : Prop :=
  g.st = .handler ∧ g.cause = 0x08 ∧ ∃ f, g.hdl = some f ∧ f.slot.pc = a ∧ f.pre = false

theorem TrappedAt.detach {a : Nat} {g : Group} (h : TrappedAt a g) : TrappedAt a g.detach := by
  rw [Group.detach_of_awake (.inr (.inl h.1))]; exact h

theorem TrappedAt.retryFault {a : Nat} {g : Group} (h : TrappedAt a g) : TrappedAt a g.retryFault := by
  obtain ⟨hst, hcause, f, hf, ha, hpre⟩ := h
  rw [Group.retryFault_of_ne_held (by rw [hst]; nofun)]
  exact ⟨by simp [Group.resumeSt, hf, hpre], hcause, f, hf, ha, hpre⟩

/-- The trap of a fault-wait, where a handler is free. -/
theorem State.failFault_group {s : State} {h : Group} {u : HUnit} {l : Launch} {y : TrapInfo} (hg : s.group? h.core h.slot = some h)
    (hst : h.st ≠ .held) (hhdl : h.hdl = none) (hy : h.lateTrap = some y) (hcause : y.cause = 0x08) (hu : s.unit? h.unit = some u)
    (hl : s.launch? u.launch = some l) (ha : s.handlerOf u l.ctx 0x08 ≠ 0) (hw : s.wgInHandler h = false) :
    ∃ n, (s.failFault h).group? h.core h.slot = some n ∧ TrappedAt (s.handlerOf u l.ctx 0x08) n := by
  have hr := Group.retryFault_of_ne_held hst
  have hput : (s.putGroup h.retryFault).group? h.core h.slot = some h.retryFault :=
    State.group?_putGroup_same hg (by rw [hr]) (by rw [hr])
  have hwg : (s.putGroup h.retryFault).wgInHandler h.retryFault = false := by
    have := (State.putGroup_retryStep (State.mem_of_group? hg) h.still_retryFault).wgInHandler hw
    rw [hr] at this ⊢
    exact this
  have hof : (s.putGroup h.retryFault).handlerOf u l.ctx y.cause = s.handlerOf u l.ctx 0x08 := by rw [hcause]; rfl
  have hpre : (y.cause == causePreempt) = false := by rw [hcause]; rfl
  have hfail : s.failFault h = ((s.putGroup h.retryFault).leaveBar h.retryFault).startHandler
      (h.retryFault.trapState (y.slot.getD 0) y) (s.handlerOf u l.ctx 0x08) false := by
    rw [State.failFault, hy, ← hof, ← hpre]
    exact State.takeTrap_enters _ (by rw [hr]; exact hu) hl (by rw [hr]; exact hhdl) (by rw [hof]; exact ha) hwg
  have hbar : ((s.putGroup h.retryFault).leaveBar h.retryFault).group? h.core h.slot = some h.retryFault := by
    obtain ⟨m, hm⟩ := (s.putGroup h.retryFault).leaveBar_eq h.retryFault
    rw [hm]; exact hput
  rw [hfail, (State.startHandler_spec (g := h.retryFault.trapState (y.slot.getD 0) y) hbar (by rw [hr]; rfl) (by rw [hr]; rfl) _ _).1]
  exact ⟨_, rfl, rfl, by show BitVec.ofNat 64 y.cause = 0x08; rw [hcause]; rfl, _, rfl, rfl, rfl⟩

theorem Group.attachedTo_of_only {gs : List Group} {b i : Nat} {h : Group} (hone : gs.filter (fun g => g.attachedTo b i) = [h]) :
    h.attachedTo b i = true := by
  have hmem : h ∈ gs.filter (fun g => g.attachedTo b i) := by rw [hone]; exact List.mem_singleton_self h
  exact (List.mem_filter.1 hmem).2

/-- Around the one group attached to an entry, the groups whose fault-waits end with the entry. -/
theorem State.freed_split {s : State} {p : Pfe} {h : Group}
    (hone : s.sched.groups.filter (fun g => g.attachedTo p.base p.index) = [h]) (hg : s.group? h.core h.slot = some h) :
    ∃ as bs, s.sched.groups.filter (fun g => g.freedBy p.base p.index) = as ++ h :: bs ∧
      (∀ g ∈ as, g.attachedTo p.base p.index = false ∧ ¬(h.core = g.core ∧ h.slot = g.slot)) ∧
      ∀ g ∈ bs, g.attachedTo p.base p.index = false := by
  obtain ⟨-, as, bs, hsplit, hbefore⟩ := List.find?_eq_some_iff_append.1 hg
  have hatt := Group.attachedTo_of_only hone
  have hfreed : h.freedBy p.base p.index = true := by rw [Group.freedBy, hatt]; rfl
  rw [hsplit, List.filter_append, List.filter_cons, if_pos hatt] at hone
  have hlen := congrArg List.length hone
  simp only [List.length_append, List.length_cons, List.length_nil] at hlen
  have hnil {gs : List Group} (e : (gs.filter (fun g => g.attachedTo p.base p.index)).length = 0) :
      ∀ g ∈ gs, g.attachedTo p.base p.index = false := by
    simpa using List.eq_nil_of_length_eq_zero e
  refine ⟨as.filter (fun g => g.freedBy p.base p.index), bs.filter (fun g => g.freedBy p.base p.index), ?_, fun g hmem => ?_,
    fun g hmem => hnil (by omega) g (List.mem_filter.1 hmem).1⟩
  · rw [hsplit, List.filter_append, List.filter_cons, if_pos hfreed]
  · refine ⟨hnil (by omega) g (List.mem_filter.1 hmem).1, fun e => ?_⟩
    simpa [← e.1, ← e.2] using hbefore g (List.mem_filter.1 hmem).1

theorem State.endWaits_append_cons (s : State) (trap : Group → Bool) (as bs : List Group) (h : Group) :
    s.endWaits trap (as ++ h :: bs) = ((s.endWaits trap as).endFaultWait h.core h.slot (trap h)).endWaits trap bs :=
  List.foldl_append

/-- FAIL: the one group attached to the entry takes its trap. -/
theorem State.resolveFail_group {s : State} {p : Pfe} {h : Group} {u : HUnit} {l : Launch} {y : TrapInfo} (hl : s.launchOf h = some l)
    (hd : s.drydown l.ctx = false) (hone : s.sched.groups.filter (fun g => g.attachedTo p.base p.index) = [h])
    (hg : s.group? h.core h.slot = some h) (hst : h.st = .faultWait p.base (some p.index)) (hhdl : h.hdl = none)
    (hy : h.lateTrap = some y) (hcause : y.cause = 0x08) (hu : s.unit? h.unit = some u) (ha : s.handlerOf u l.ctx 0x08 ≠ 0)
    (hw : s.wgInHandler h = false) :
    ∃ n, (s.resolveFail p).group? h.core h.slot = some n ∧ TrappedAt (s.handlerOf u l.ctx 0x08) n := by
  obtain ⟨as, bs, hsplit, has, hbs⟩ := State.freed_split hone hg
  have hatt := Group.attachedTo_of_only hone
  have hlaunch : s.launch? u.launch = some l := by rw [State.launchOf, hu] at hl; exact hl
  have hend (st : State) : st.endWaits (fun g => g.attachedTo p.base p.index) (as ++ h :: bs) =
      ((st.endWaits (fun g => g.attachedTo p.base p.index) as).endFaultWait h.core h.slot true).endWaits
        (fun g => g.attachedTo p.base p.index) bs := by
    rw [State.endWaits_append_cons, hatt]
  change ∃ n, State.group? (State.endWaits ((s.putPfe p.resolved).failTransfers p.token) (fun g => g.attachedTo p.base p.index)
    (s.sched.groups.filter (fun g => g.freedBy p.base p.index))) h.core h.slot = some n ∧ _
  rw [hsplit, hend]
  have hstep := State.endWaits_retryStep (fun g hg => (has g hg).1) ((s.putPfe p.resolved).failTransfers p.token)
  have hmid := (State.endWaits_other has ((s.putPfe p.resolved).failTransfers p.token)).trans hg
  have hof := hstep.steady.handlerOf u l.ctx 0x08
  obtain ⟨n, hn, htrapped⟩ := State.failFault_group hmid (by rw [hst]; nofun) hhdl hy hcause ((hstep.unit? _).trans hu)
    ((hstep.launch? _).trans hlaunch) (by rw [hof]; exact ha) (hstep.wgInHandler hw)
  rw [State.endFaultWait_traps hmid ((hstep.launchOf h).trans hl) ((hstep.steady.drydown _).trans hd)]
  exact State.endWaits_keeps (P := TrappedAt (s.handlerOf u l.ctx 0x08)) (fun _ => TrappedAt.detach) (fun _ => TrappedAt.retryFault)
    hbs hn (hof ▸ htrapped)

end Sys2Proof.Machine
end

section
/-! PROOFS. The command arbiter, the lookup of contexts, and the commands of a context: CREATE and DESTROY (R81 to R86). -/

namespace Sys2Proof.Machine

open Sys2Proof.Claims

/-! ## Lookup of contexts -/

theorem State.ctx?_id {s : State} {k : Nat} {x : Context} (h : s.ctx? k = some x) : x.id = k := by
  simpa using List.find?_some h

theorem State.ctx?_congr {s t : State} (h : t.sched.ctxs = s.sched.ctxs) (k : Nat) : t.ctx? k = s.ctx? k := by
  rw [State.ctx?, State.ctx?, h]

theorem State.ctx?_mapCtx (s : State) {k : Nat} {f : Context → Context} (hf : ∀ c, c.id = k → (f c).id = k) :
    (s.mapCtx k f).ctx? k = (s.ctx? k).map f := by
  have hid : (fun c : Context => c.id == k) ∘ (fun d => if d.id == k then f d else d) = fun c => c.id == k := by
    funext d
    by_cases h : d.id = k
    · simp [h, hf d h]
    · simp [h]
  rw [State.ctx?, State.mapCtx, List.find?_map, hid, State.ctx?]
  cases hx : s.sched.ctxs.find? (fun c => c.id == k) with
  | none => rfl
  | some x => simp [State.ctx?_id hx]

theorem State.ctx?_putCtx {s : State} {k : Nat} {x y : Context} (hx : s.ctx? k = some x) (hy : y.id = k) :
    (s.putCtx y).ctx? k = some y := by
  subst hy
  exact (s.ctx?_mapCtx (f := fun _ => y) fun _ _ => rfl).trans (by rw [hx]; rfl)

/-! ## The command at the head of the arbiter -/

theorem State.headCmd_of_headIs {s : State} {op : Nat} {c : Cmd} (h : HeadIs s op c) : s.headCmd op = some c := by
  obtain ⟨hready, hhead, hop⟩ := h
  simp [State.headCmd, hready, hhead, hop]

/-- A command that waits for nothing is carried out. -/
theorem State.command_next {s : State} {op : Nat} {c : Cmd} {gate : Cmd → Option State} (h : HeadIs s op c) (hg : gate c = none)
    (name : String) (next : Cmd → State) : s.command name op gate next = .next (next c) := by
  have hlive : s.mgmt.devState ≠ .fatal := by rw [h.1]; nofun
  simp [State.command, State.headCmd_of_headIs h, hg, State.afterGate, eventOf, hlive]

/-- The context that a command names, where it accepts it. -/
theorem State.cmdCtx_some {s : State} {c : Cmd} {x : Context} (hx : s.ctx? c.ctx = some x) (hp : x.port = c.port) (hst : x.st ≠ .draining) :
    s.cmdCtx c = some x := by
  simp [State.cmdCtx, hx, hp, hst]

theorem State.cmdCtx_none {s : State} {c : Cmd} (h : ∀ x, s.ctx? c.ctx = some x → x.port ≠ c.port ∨ x.st = .draining) :
    s.cmdCtx c = none := by
  unfold State.cmdCtx
  split
  · rfl
  · next x hx => rcases h x hx with h | h <;> simp [h]

theorem State.badState_answered (s : State) (c : Cmd) : Answered s (s.badState c) c 3 ∧ (s.badState c).sched = s.sched :=
  ⟨answered_self s c (by decide), s.answer_sched c 3⟩

/-- A word written for a command enters the arbiter, is dropped, or is answered at once (R460). -/
theorem exec_ctxcmdSubmit {s : State} {port : Nat} {word : BitVec 64} {p : Port} (hready : s.mgmt.devState = .ready)
    (hp : s.mgmt.ports.find? (fun q => q.id == port) = some p) :
    exec (.ctxcmdSubmit port word) s = .next (
      if 64 ≤ (s.mgmt.cmds.filter (fun k => k.port == port)).length then
        { s with mgmt := { s.mgmt with ports := s.mgmt.ports.map (fun q => if q.id == port then { q with cmdOvf := true } else q) } }
      else if (⟨port, word, p.cmdW1⟩ : Cmd).bad then s.reply (port, (⟨port, word, p.cmdW1⟩ : Cmd).tag) 6
      else { s with mgmt := { s.mgmt with cmds := s.mgmt.cmds ++ [⟨port, word, p.cmdW1⟩] } }) := by
  change execCtxcmdSubmit port word s = _
  simp only [execCtxcmdSubmit, eventOf, hready, beq_self_eq_true, if_true, hp]
  rfl

/-- R86: a command for a context that does not accept it is answered BAD_STATE. -/
theorem contextCommand_refused {i : Instr} {op : Nat} {s : State} {c : Cmd} (hi : contextCommands i = some op) (h : HeadIs s op c)
    (hctx : s.cmdCtx c = none) : exec i s = .next (s.badState c) := by
  cases i <;> cases hi
  case destroy =>
    exact (State.command_next h (by simp [State.destroyGate, hctx]) _ _).trans (by simp [hctx])
  case fence => exact (State.command_next h rfl _ _).trans (by simp [hctx])
  case resume =>
    have hnone : s.resumable c = none := by simp [State.resumable, hctx]
    exact (State.command_next h (by simp [State.resumeGate, hnone]) _ _).trans (by simp [hnone])
  case rupdate => exact (State.command_next h (by simp [State.rupdateGate, hctx]) _ _).trans (by simp [hctx])
  case qbind => exact (State.command_next h (by simp [State.qbindGate, hctx]) _ _).trans (by simp [hctx])
  case fresolve =>
    have hnone : s.fresolves c = none := by simp [State.fresolves, hctx]
    exact (State.command_next h (by simp [State.fresolveGate, hnone]) _ _).trans (by simp [hctx])
  case tlbinvCommand =>
    change execTlbinvCommand s = _
    have hlive : s.mgmt.devState ≠ .fatal := by rw [h.1]; nofun
    simp [execTlbinvCommand, State.headCmd_of_headIs h, hctx, eventOf, hlive]

/-! ## CREATE -/

/-- The context that CREATE makes of its descriptor. -/
def State.createdContext (s : State) (c : Cmd) (id : Nat) (rs : List Region) : Context :=
  contextOf id c.port (s.devRead c.w1.toNat 256) rs
    (if (wordAt (s.devRead c.w1.toNat 256) 1).testBit 2 then s.devLE (wordAt (s.devRead c.w1.toNat 256) 9) 8 else 0)

/-- The state with that context in it. -/
def State.created (s : State) (c : Cmd) (id : Nat) (rs : List Region) : State :=
  { s with sched := { s.sched with ctxs := s.sched.ctxs ++ [s.createdContext c id rs] } }.initContext (s.createdContext c id rs)

/-- What CREATE does where its accesses wait for nothing (R81 to R86). -/
theorem exec_create {s : State} {c : Cmd} (h : HeadIs s 1 c) (hg : s.createGate c = none) :
    exec .create s = .next (match (List.range 128).find? (fun i => (s.ctx? i).isNone) with
      | none => s.answer c 1
      | some id =>
        if devLimit < c.w1.toNat + 256 || descriptorBad (s.devRead c.w1.toNat 256) then s.answer c 2
        else
          match s.loadRegions (wordAt (s.devRead c.w1.toNat 256) 2) with
          | none => s.answer c 2
          | some rs => (s.created c id rs).answer c (id * 2 ^ 16)) :=
  State.command_next h hg _ _

theorem create_refused {s : State} {c : Cmd} (h : HeadIs s 1 c) (hg : s.createGate c = none)
    (hfull : ∀ id, id < 128 → (s.ctx? id).isSome = true) : exec .create s = .next (s.answer c 1) := by
  have hnone : (List.range 128).find? (fun i => (s.ctx? i).isNone) = none :=
    List.find?_range_eq_none.2 fun i hi => by simpa [Option.isSome_iff_ne_none] using hfull i hi
  rw [exec_create h hg, hnone]

theorem find?_free {s : State} {id : Nat} (hid : id < 128) (hfree : s.ctx? id = none) (hlow : ∀ j, j < id → (s.ctx? j).isSome = true) :
    (List.range 128).find? (fun i => (s.ctx? i).isNone) = some id :=
  List.find?_range_eq_some.2 ⟨by simp [hfree], List.mem_range.2 hid, fun j hj => by simpa [Option.isSome_iff_ne_none] using hlow j hj⟩

theorem create_bad {s : State} {c : Cmd} {id : Nat} (h : HeadIs s 1 c) (hg : s.createGate c = none)
    (hid : (List.range 128).find? (fun i => (s.ctx? i).isNone) = some id)
    (hbad : 2 ^ 39 < c.w1.toNat + 256 ∨ descriptorBad (s.devRead c.w1.toNat 256) = true ∨
      s.loadRegions (wordAt (s.devRead c.w1.toNat 256) 2) = none) : exec .create s = .next (s.answer c 2) := by
  rw [exec_create h hg, hid]
  dsimp only
  rcases hbad with hbad | hbad | hbad
  · rw [if_pos (by simp [show devLimit < c.w1.toNat + 256 from hbad])]
  · rw [if_pos (by simp [hbad])]
  · simp only [hbad, ite_self]

theorem create_good {s : State} {c : Cmd} {id : Nat} {rs : List Region} (h : HeadIs s 1 c) (hg : s.createGate c = none)
    (hid : (List.range 128).find? (fun i => (s.ctx? i).isNone) = some id) (hin : c.w1.toNat + 256 ≤ 2 ^ 39)
    (hgood : descriptorBad (s.devRead c.w1.toNat 256) = false)
    (hrs : s.loadRegions (wordAt (s.devRead c.w1.toNat 256) 2) = some rs) :
    exec .create s = .next ((s.created c id rs).answer c (id * 2 ^ 16)) := by
  have hlimit : ¬devLimit < c.w1.toNat + 256 := Nat.not_lt.2 hin
  rw [exec_create h hg, hid]
  simp [hlimit, hgood, hrs]

theorem State.ctx?_append {s : State} {k : Nat} {x : Context} (hfree : s.ctx? k = none) (hx : x.id = k) :
    (s.sched.ctxs ++ [x]).find? (fun c => c.id == k) = some x := by
  rw [List.find?_append, show s.sched.ctxs.find? (fun c => c.id == k) = none from hfree]
  simp [hx]

/-- The context that CREATE makes stands where it was free. -/
theorem State.created_ctx? {s : State} {id : Nat} (hfree : s.ctx? id = none) (c : Cmd) (rs : List Region) :
    (s.created c id rs).ctx? id = some (s.createdContext c id rs) := by
  have hstep := State.initContext_step { s with sched := { s.sched with ctxs := s.sched.ctxs ++ [s.createdContext c id rs] } }
    (s.createdContext c id rs)
  rw [State.ctx?, State.created, hstep.sched]
  exact State.ctx?_append hfree rfl

theorem State.created_kept (s : State) (c : Cmd) (id : Nat) (rs : List Region) : Kept s (s.created c id rs) := by
  have hentry (x : Context) : Kept s { s with sched := { s.sched with ctxs := s.sched.ctxs ++ [x] } } := ⟨⟨rfl, rfl, fun e => e⟩, rfl, rfl⟩
  exact (hentry _).trans (State.initContext_step _ _).steady.toKept

/-! ## DESTROY -/

theorem HostStep.freeStep {s t : State} (h : HostStep s t) : FreeStep s t := by
  obtain ⟨m, hs, rfl, -⟩ := h
  exact ⟨rfl, rfl, rfl, rfl⟩

theorem Steady.mapCtx_ctx? {s t : State} (h : t.sched.ctxs.map Context.bare = s.sched.ctxs.map Context.bare) {k : Nat} {x : Context}
    {f : Context → Context} (hx : s.ctx? k = some x) (hf : ∀ c, c.id = k → (f c).id = k) :
    ∃ y, y.bare = x.bare ∧ (t.mapCtx k f).ctx? k = some (f y) := by
  have hb := ctx?_of_bare h k
  rw [hx] at hb
  obtain ⟨y, hy, hyx⟩ := Option.map_eq_some_iff.1 hb
  exact ⟨y, hyx, by rw [State.ctx?_mapCtx _ hf, hy]; rfl⟩

/-- The launches of a context that are left after their cancellation have ended. -/
theorem State.cancelLaunches_ended {s : State} {k : Nat} {l : Launch} (hl : l ∈ (s.cancelLaunches k).sched.launches) (hk : l.ctx = k) :
    l.status.isSome = true := by
  obtain ⟨m, -, rfl⟩ := List.mem_map.1 hl
  by_cases hm : (m.ctx == k && m.status.isNone) = true
  · rw [if_pos hm]; rfl
  · rw [if_neg hm] at hk ⊢
    simpa [hk, Option.isSome_iff_ne_none] using hm

theorem State.cancelLaunches_steady (s : State) (k : Nat) : Steady s (s.cancelLaunches k) := by
  have hkill := foldl_rel KillStep.refl KillStep.trans (f := fun st i => st.killLaunch i) State.killLaunch_step
    ((s.sched.launches.filter (fun l => l.ctx == k)).map (·.id)) s
  exact ⟨⟨⟨hkill.ports, hkill.links, hkill.hosts⟩, hkill.cmds, hkill.pfes⟩, hkill.ctxs⟩

/-- The queues of a context that starts to drain: what they have not parsed is cancelled, and their headers are written. -/
def State.drainQueues (s : State) (x : Context) : State :=
  (s.ctxQueues x.id).foldl (fun st q => match st.queue? q.id with
    | some v => st.syncQueue { v with st := .draining }
    | none => st) ((s.ctxQueues x.id).foldl (fun st q => st.cancelUnparsed q) s)

theorem State.drainQueues_steady (s : State) (x : Context) : Steady s (s.drainQueues x) := by
  refine (foldl_rel Steady.refl Steady.trans State.cancelUnparsed_steady _ s).trans
    (foldl_rel Steady.refl Steady.trans (fun s q => ?_) _ _)
  split
  · exact s.syncQueue_steady _
  · exact Steady.refl s

/-- A context that drains. -/
def Context.drains (reply : Option (Nat × Nat)) (y : Context) : Context :=
  { y with st := .draining, fences := [], fqHeld := [], events := [], drainReply := reply }

/-- Once the launches and transfers of a draining context have ended, its fault entries are freed and its fences answered. -/
theorem State.drain_eq (s : State) (x : Context) (reply : Option (Nat × Nat)) :
    ∃ u, FreeStep (((s.drainQueues x).cancelLaunches x.id).cancelEngines x.id) u ∧
      s.drain x reply = u.mapCtx x.id (Context.drains reply) :=
  ⟨_, (State.freeFaults_step _ _).trans
    (foldl_rel FreeStep.refl FreeStep.trans (f := fun st r => st.reply r 3) (fun s r => (s.reply_step r 3).freeStep)
      (x.fences.flatMap (·.replies)) _), rfl⟩

theorem State.drain_spec {s : State} {k : Nat} {x : Context} (hx : s.ctx? k = some x) (reply : Option (Nat × Nat)) :
    (∃ y, (s.drain x reply).ctx? k = some y ∧ y.st = .draining ∧ y.drainReply = reply) ∧
      (s.drain x reply).mgmt.cmds = s.mgmt.cmds ∧ (∀ l ∈ (s.drain x reply).sched.launches, l.ctx = k → l.status.isSome = true) ∧
      (∀ m ∈ (s.drain x reply).eng.ceCmds, m.ctx ≠ k) ∧ (∀ m ∈ (s.drain x reply).eng.feCmds, m.ctx ≠ k) ∧
      ∀ e ∈ (s.drain x reply).eng.ctt, e.ctx ≠ k := by
  obtain rfl := State.ctx?_id hx
  obtain ⟨u, hu, hdrain⟩ := s.drain_eq x reply
  have hcancel := (s.drainQueues_steady x).trans (State.cancelLaunches_steady _ x.id)
  rw [hdrain]
  obtain ⟨y, -, hy⟩ := Steady.mapCtx_ctx? (hu.ctxs.trans hcancel.ctxs) (f := Context.drains reply) hx fun _ h => h
  refine ⟨⟨_, hy, rfl, rfl⟩, hu.cmds.trans hcancel.cmds, fun l hl hk => ?_, ?_⟩
  · rw [State.mapCtx_sched_launches, hu.launches] at hl
    exact State.cancelLaunches_ended (s := s.drainQueues x) hl hk
  · have hgone {α : Type} {xs : List α} {f : α → Nat} : ∀ a ∈ xs.filter (fun a => f a != x.id), f a ≠ x.id := by simp
    rw [State.mapCtx_eng, hu.eng]
    exact ⟨hgone, hgone, hgone⟩

/-- R86: DESTROY of a context. -/
theorem exec_destroy {s : State} {c : Cmd} {x : Context} (h : HeadIs s 2 c) (hx : s.ctx? c.ctx = some x) (hp : x.port = c.port)
    (hst : x.st ≠ .draining) (hg : s.destroyGate c = none) : exec .destroy s = .next (s.popCmd.drain x (some (c.port, c.tag))) :=
  (State.command_next h hg _ _).trans (by simp [State.cmdCtx_some hx hp hst])

/-! ## The end of a context -/

/-- Translations that an invalidation drops are held nowhere. -/
theorem State.dropTranslations_held {s : State} {k : Nat} {r : InvRange} {l : Leaf} (hl : l ∈ (s.dropTranslations k r).heldLeaves) :
    l.dropped k r = false := by
  simp only [State.heldLeaves, State.dropTranslations, List.mem_append, List.mem_map, List.mem_filter, List.mem_flatMap] at hl
  rcases hl with ((⟨e, ⟨-, he⟩, rfl⟩ | ⟨e, ⟨-, he⟩, rfl⟩) | ⟨_, ⟨k, -, rfl⟩, he⟩) | ⟨_, ⟨k, -, rfl⟩, he⟩
  · simpa using he
  · simpa using he
  · simpa using (List.mem_filter.1 he).2
  · simpa using (List.mem_filter.1 he).2

theorem State.dropTranslations_all {s : State} {k : Nat} {l : Leaf} (hl : l ∈ (s.dropTranslations k .all).heldLeaves) : l.ctx ≠ k := by
  simpa [Leaf.dropped, InvRange.meets] using State.dropTranslations_held hl

/-- The headers of a freed context's queues say UNBOUND. -/
def State.unbindQueues (s : State) (x : Context) : State :=
  (s.ctxQueues x.id).foldl (fun st q => (st.vwrite x.id (q.qbase + 24) (leBytes 8 0)).getD st) s

theorem State.unbindQueues_step (s : State) (x : Context) : MemStep s (s.unbindQueues x) :=
  foldl_rel MemStep.refl MemStep.trans (f := fun st (q : Queue) => (st.vwrite x.id (q.qbase + 24) (leBytes 8 0)).getD st)
    (fun s _ => s.vwrite_getD_step _ _ _) (s.ctxQueues x.id) s

/-- The state in which a context is gone, before its reply. -/
def State.withoutCtx (s : State) (x : Context) : State :=
  let s1 := (s.unbindQueues x).dropTranslations x.id .all
  { s1 with sched := { s1.sched with ctxs := s1.sched.ctxs.filter (fun (y : Context) => y.id != x.id),
                                     queues := s1.sched.queues.filter (fun (q : Queue) => q.ctx != x.id) } }

theorem State.freeContext_eq (s : State) (x : Context) :
    s.freeContext x = (match x.drainReply with
      | some r => (s.withoutCtx x).reply r 0
      | none => s.withoutCtx x) := rfl

theorem State.withoutCtx_replyPath (s : State) (x : Context) : ReplyPath s (s.withoutCtx x) :=
  have h := (s.unbindQueues_step x).steady
  ⟨h.ports, h.links, h.hosts⟩

theorem State.withoutCtx_spec (s : State) (x : Context) : (s.withoutCtx x).ctx? x.id = none ∧
    (∀ q ∈ (s.withoutCtx x).sched.queues, q.ctx ≠ x.id) ∧ ∀ l ∈ (s.withoutCtx x).heldLeaves, l.ctx ≠ x.id := by
  have hheld : (s.withoutCtx x).heldLeaves = ((s.unbindQueues x).dropTranslations x.id .all).heldLeaves := rfl
  refine ⟨List.find?_eq_none.2 fun y hy => ?_, fun q hq => ?_, fun l hl => State.dropTranslations_all (hheld ▸ hl)⟩
  · simpa using (List.mem_filter.1 hy).2
  · simpa using (List.mem_filter.1 hq).2

/-- A context of which nothing is under way is freed. -/
theorem exec_contextDrainComplete {s : State} {id : Nat} {x : Context} (hlive : s.mgmt.devState ≠ .fatal) (hx : s.ctx? id = some x)
    (hst : x.st = .draining) (hl : ∀ l ∈ s.sched.launches, l.ctx ≠ id) (hgroups : ∀ g ∈ s.sched.groups, s.anyCtx g ≠ some id)
    (hce : ∀ k ∈ s.eng.ceCmds, k.ctx ≠ id) (hfe : ∀ k ∈ s.eng.feCmds, k.ctx ≠ id)
    (hg : s.vgate id ((s.ctxQueues id).map (fun q => (q.qbase + 24, 8, Access.write))) = none) :
    exec (.contextDrainComplete id) s = .next (s.freeContext x) := by
  have hdrained : s.drained id = true := by
    simp only [State.drained, Bool.and_eq_true, Bool.not_eq_true', List.any_eq_false, beq_iff_eq]
    exact ⟨⟨⟨hl, hgroups⟩, hce⟩, hfe⟩
  change execContextDrainComplete id s = _
  simp [execContextDrainComplete, eventOf, hlive, hx, hst, hdrained, State.gated, hg, State.afterGate]

end Sys2Proof.Machine
end

section
/-! PROOFS. FENCE and RESUME of a subtree of regions (R93). -/

namespace Sys2Proof.Machine

open Sys2Proof.Claims

/-! ## Subtrees -/

theorem Context.region?_id {c : Context} {k : Nat} {r : Region} (h : c.region? k = some r) : r.id = k := by
  simpa using List.find?_some h

/-- The parent of a region. -/
def Context.parent? (c : Context) (r : Nat) : Option Nat := (c.region? r).map (·.parent)

/-- The path of a region goes by the parents alone. -/
theorem Context.path_eq (c : Context) (r : Nat) : c.path r = if r == 0 then [0] else match c.parent? r with
    | none => [r]
    | some a => if a == 0 then [r, 0] else match c.parent? a with
      | none => [r, a]
      | some b => if b == 0 then [r, a, 0] else [r, a, b, 0] := by
  unfold Context.path Context.parent?
  dsimp only
  cases c.region? r with
  | none => rfl
  | some p =>
    dsimp only [Option.map_some]
    cases c.region? p.parent <;> rfl

/-- Regions with other states form the same tree. -/
theorem Context.inSubtree_congr {x y : Context} {f : Region → Region} (hf : ∀ r, (f r).id = r.id ∧ (f r).parent = r.parent)
    (h : y.regions = x.regions.map f) (root r : Nat) : y.inSubtree root r = x.inSubtree root r := by
  have hregion (k : Nat) : y.region? k = (x.region? k).map f := by
    have hid : (fun r : Region => r.id == k) ∘ f = fun r => r.id == k := by
      funext r; simp [hf]
    rw [Context.region?, h, List.find?_map, hid, Context.region?]
  have hparent (k : Nat) : y.parent? k = x.parent? k := by
    rw [Context.parent?, hregion, Context.parent?]
    cases x.region? k with
    | none => rfl
    | some r => exact congrArg some (hf r).2
  unfold Context.inSubtree
  rw [Context.path_eq, Context.path_eq]
  simp only [hparent]

/-! ## FENCE -/

theorem State.logRecord_sched (s : State) (w0 addr detail : Nat) : (s.logRecord w0 addr detail).sched = s.sched := by
  unfold State.logRecord
  split <;> rfl

/-- A region that a fence of a subtree stops. -/
def Context.fenceRegion (c : Context) (root : Nat) (r : Region) : Region :=
  if r.st == .opened && c.inSubtree root r.id then { r with st := .fencing } else r

/-- A context of which a subtree is being fenced. -/
def Context.fencing (c : Context) (root : Nat) (fatal : Bool) (reply : Option (Nat × Nat)) : Context :=
  { c with regions := c.regions.map (c.fenceRegion root), fences := c.fences ++ [⟨root, .fencing, reply.toList, fatal⟩],
           st := if root == 0 then .fenced else c.st }

theorem Context.fenceRegion_keeps (c : Context) (root : Nat) (r : Region) :
    (c.fenceRegion root r).id = r.id ∧ (c.fenceRegion root r).parent = r.parent := by
  unfold Context.fenceRegion
  split <;> exact ⟨rfl, rfl⟩

theorem Context.fencing_spec (c : Context) (root : Nat) (fatal : Bool) (reply : Option (Nat × Nat)) :
    Fencing c root (c.fencing root fatal reply) := by
  refine ⟨fun r hr hin => ?_, ⟨_, List.mem_append_right _ (List.mem_singleton_self _), rfl, rfl⟩, fun h => by simp [Context.fencing, h]⟩
  obtain ⟨k, -, rfl⟩ := List.mem_map.1 hr
  rw [(c.fenceRegion_keeps root k).1] at hin
  unfold Context.fenceRegion
  by_cases hk : k.st = .opened
  · simp [hk, hin]
  · simp [hk]

/-- The start of a fence, of a context that stands. -/
theorem State.startFence_eq {s : State} {k : Nat} {x : Context} (hx : s.ctx? k = some x) (root : Nat) (fatal : Bool)
    (reply : Option (Nat × Nat)) :
    s.startFence k root fatal reply = (s.putCtx (x.fencing root fatal reply)).stopRegions k root := by
  rw [State.startFence, hx]; rfl

/-- What stands after a fence has stopped a subtree: its queues are held, its copies gone. -/
theorem State.stopRegions_spec {s : State} {k : Nat} {y : Context} (hy : s.ctx? k = some y) (root : Nat) :
    (s.stopRegions k root).ctx? k = some y ∧
      (∀ q ∈ (s.stopRegions k root).sched.queues, q.ctx = k → y.inSubtree root q.region = true → q.st ≠ .active) ∧
      ∀ m ∈ (s.stopRegions k root).eng.ceCmds, m.ctx = k → y.inSubtree root m.region = false := by
  simp only [State.stopRegions, hy]
  refine ⟨hy, fun q hq hk hin => ?_, fun m hm hk => ?_⟩
  · obtain ⟨p, -, rfl⟩ := List.mem_map.1 hq
    by_cases hp : (p.ctx == k && y.inSubtree root p.region && (p.st == .active || p.st == .stopped)) = true
    · rw [if_pos hp]; nofun
    · rw [if_neg hp] at hk hin ⊢
      intro hactive
      exact hp (by simp [hk, hin, hactive])
  · simpa [hk] using (List.mem_filter.1 hm).2

/-- A fence of a subtree is in progress. -/
theorem State.startFence_spec {s : State} {k : Nat} {x : Context} (hx : s.ctx? k = some x) (root : Nat) (reply : Option (Nat × Nat)) :
    ∃ y, (s.startFence k root false reply).ctx? k = some y ∧ Fencing x root y ∧
      (∀ f ∈ y.fences, f ∉ x.fences → f.replies = reply.toList) ∧
      (∀ q ∈ (s.startFence k root false reply).sched.queues, q.ctx = k → x.inSubtree root q.region = true → q.st ≠ .active) ∧
      ∀ m ∈ (s.startFence k root false reply).eng.ceCmds, m.ctx = k → x.inSubtree root m.region = false := by
  have hput : (s.putCtx (x.fencing root false reply)).ctx? k = some (x.fencing root false reply) :=
    State.ctx?_putCtx hx (show x.id = k from State.ctx?_id hx)
  have hin (r : Nat) : (x.fencing root false reply).inSubtree root r = x.inSubtree root r :=
    Context.inSubtree_congr (x.fenceRegion_keeps root) rfl root r
  obtain ⟨hy, hqueues, hcopies⟩ := State.stopRegions_spec hput root
  simp only [hin] at hqueues hcopies
  rw [State.startFence_eq hx]
  refine ⟨_, hy, x.fencing_spec root false reply, fun f hf hnew => ?_, hqueues, hcopies⟩
  rcases List.mem_append.1 hf with hf | hf
  · exact absurd hf hnew
  · rw [List.mem_singleton.1 hf]

/-- A context with one more reply of a fence. -/
def Context.joined (x : Context) (f : FenceOp) (d : Nat × Nat) : Context :=
  { x with fences := x.fences.map (fun g => if g.root == f.root then { g with replies := g.replies ++ [d] } else g) }

/-- R93: what FENCE does. -/
theorem exec_fence {s : State} {c : Cmd} {x : Context} {r : Region} (h : HeadIs s 3 c) (hx : s.ctx? c.ctx = some x) (hp : x.port = c.port)
    (hst : x.st ≠ .draining) (hr : x.region? c.idField = some r) :
    exec .fence s = .next (match x.enclosing r.id with
      | some f => s.popCmd.putCtx (x.joined f (c.port, c.tag))
      | none => if x.fenceContains r.id then s.answer c 0
        else (s.popCmd.logRegion 4 9 x.id r.id false 0).startFence x.id r.id false (some (c.port, c.tag))) := by
  rw [Context.region?_id hr]
  exact (State.command_next h rfl _ _).trans (by simp only [State.cmdCtx_some hx hp hst, hr]; rfl)

theorem fence_answered {s : State} {c : Cmd} {x : Context} {r : Region} (h : HeadIs s 3 c) (hx : s.ctx? c.ctx = some x)
    (hp : x.port = c.port) (hst : x.st ≠ .draining) (hr : x.region? c.idField = some r) (hout : x.enclosing r.id = none)
    (hdone : x.fenceContains r.id = true) : exec .fence s = .next (s.answer c 0) := by
  rw [exec_fence h hx hp hst hr, hout]
  simp [hdone]

theorem fence_joins {s : State} {c : Cmd} {x : Context} {r : Region} {f : FenceOp} (h : HeadIs s 3 c) (hx : s.ctx? c.ctx = some x)
    (hp : x.port = c.port) (hst : x.st ≠ .draining) (hr : x.region? c.idField = some r) (hin : x.enclosing r.id = some f) :
    ∃ t y, exec .fence s = .next t ∧ t.mgmt.cmds = s.mgmt.cmds.tail ∧ t.ctx? c.ctx = some y ∧ y.regions = x.regions ∧
      ∃ g ∈ y.fences, g.root = f.root ∧ (c.port, c.tag) ∈ g.replies := by
  have hexec : exec .fence s = .next (s.popCmd.putCtx (x.joined f (c.port, c.tag))) := by rw [exec_fence h hx hp hst hr, hin]
  have hput : (s.popCmd.putCtx (x.joined f (c.port, c.tag))).ctx? c.ctx = some (x.joined f (c.port, c.tag)) :=
    State.ctx?_putCtx (s := s.popCmd) hx (show x.id = c.ctx from State.ctx?_id hx)
  refine ⟨_, _, hexec, rfl, hput, rfl, { f with replies := f.replies ++ [(c.port, c.tag)] }, ?_, rfl, by simp⟩
  exact List.mem_map.2 ⟨f, List.mem_of_find?_eq_some hin, by simp⟩

theorem fence_starts {s : State} {c : Cmd} {x : Context} {r : Region} (h : HeadIs s 3 c) (hx : s.ctx? c.ctx = some x)
    (hp : x.port = c.port) (hst : x.st ≠ .draining) (hr : x.region? c.idField = some r) (hout : x.enclosing r.id = none)
    (hopen : x.fenceContains r.id = false) :
    ∃ t y, exec .fence s = .next t ∧ t.mgmt.cmds = s.mgmt.cmds.tail ∧ t.ctx? c.ctx = some y ∧ Fencing x r.id y ∧
      (∀ f ∈ y.fences, f ∉ x.fences → f.replies = [(c.port, c.tag)]) ∧
      (∀ q ∈ t.sched.queues, q.ctx = c.ctx → x.inSubtree r.id q.region = true → q.st ≠ .active) ∧
      ∀ k ∈ t.eng.ceCmds, k.ctx = c.ctx → x.inSubtree r.id k.region = false := by
  have hlogged : (s.popCmd.logRegion 4 9 x.id r.id false 0).ctx? c.ctx = some x :=
    (State.ctx?_congr (congrArg Sched.ctxs (State.logRecord_sched s.popCmd _ _ _)) _).trans hx
  have hcmds : (s.popCmd.logRegion 4 9 x.id r.id false 0).mgmt.cmds = s.mgmt.cmds.tail := (State.logRecord_kept s.popCmd _ _ _).cmds
  obtain ⟨y, hy, hfencing, hreplies, hqueues, hcopies⟩ := State.startFence_spec hlogged r.id (some (c.port, c.tag))
  have hexec : exec .fence s =
      .next ((s.popCmd.logRegion 4 9 x.id r.id false 0).startFence c.ctx r.id false (some (c.port, c.tag))) := by
    rw [exec_fence h hx hp hst hr, hout, ← State.ctx?_id hx]
    simp [hopen]
  exact ⟨_, y, hexec, (State.startFence_kept _ _ _ _ _).cmds.trans hcmds, hy, hfencing, hreplies, hqueues, hcopies⟩

/-! ## RESUME -/

/-- RESUME of a region that is no root of a fence that is over is answered BAD_STATE. -/
theorem resume_refused {s : State} {c : Cmd} {x : Context} {r : Region} (h : HeadIs s 4 c) (hx : s.ctx? c.ctx = some x)
    (hp : x.port = c.port) (hst : x.st ≠ .draining) (hr : x.region? c.idField = some r)
    (hbad : r.st ≠ .fenced ∨ r.fenceRoot ≠ r.id ∨ (x.enclosing r.id).isSome = true) : exec .resume s = .next (s.badState c) := by
  have hnone : s.resumable c = none := by
    simp only [State.resumable, State.cmdCtx_some hx hp hst, hr]
    rw [if_pos (by simpa [or_assoc] using hbad)]
  exact (State.command_next h (by rw [State.resumeGate, hnone]) _ _).trans (by rw [hnone])

theorem exec_resume {s : State} {c : Cmd} {x : Context} {r : Region} (h : HeadIs s 4 c) (hx : s.ctx? c.ctx = some x)
    (hp : x.port = c.port) (hst : x.st ≠ .draining) (hr : x.region? c.idField = some r) (hfenced : r.st = .fenced)
    (hroot : r.fenceRoot = r.id) (hout : x.enclosing r.id = none) (hg : s.resumeGate c = none) :
    exec .resume s = .next ((s.resume x r.id).answer c 0) := by
  have hsome : s.resumable c = some (x, r.id) := by
    simp [State.resumable, State.cmdCtx_some hx hp hst, hr, hfenced, hroot, hout]
  exact (State.command_next h hg _ _).trans (by rw [hsome])

/-- A context of which a subtree is open again. -/
def Context.reopened (r : Nat) (y : Context) : Context :=
  { y.setRegions r (fun k => { k with st := .opened }) with st := if r == 0 then .live else y.st }

/-- The units and queues of a subtree that goes on, once its dumped groups are killed. -/
def State.resumeQueues (s : State) (x : Context) (r : Nat) : State :=
  let s1 := (s.sched.units.filter (fun u => s.unitIn x r u.id)).foldl (fun st u => st.killUnit u) s
  { s1 with sched := { s1.sched with
    selectDue := true,
    launches := s1.sched.launches.filter (fun (l : Launch) => !(l.done && l.ctx == x.id && x.inSubtree r l.region)),
    queues := s1.sched.queues.map (fun (q : Queue) => if q.ctx == x.id && x.inSubtree r q.region && q.st == QState.held then
      { q with st := q.heldFrom } else q) } }

theorem State.resumeQueues_spec (s : State) (x : Context) (r : Nat) : Steady s (s.resumeQueues x r) ∧
    ∀ u ∈ s.sched.units, s.unitIn x r u.id = true → (s.resumeQueues x r).unit? u.id = none := by
  obtain ⟨hkill, hgone⟩ := State.killUnits_step (s.sched.units.filter (fun u => s.unitIn x r u.id)) s
  exact ⟨⟨⟨⟨hkill.ports, hkill.links, hkill.hosts⟩, hkill.cmds, hkill.pfes⟩, hkill.ctxs⟩,
    fun u hu hin => hgone u (List.mem_filter.2 ⟨hu, hin⟩)⟩

theorem State.syncQueues_steady (s : State) (x : Context) (r : Nat) : Steady s (s.syncQueues x r) := by
  refine foldl_rel Steady.refl Steady.trans (fun s q => ?_) _ s
  split
  · exact s.syncQueue_steady _
  · exact Steady.refl s

theorem State.syncQueues_units (s : State) (x : Context) (r : Nat) : (s.syncQueues x r).sched.units = s.sched.units := by
  refine foldl_rel (R := fun s t : State => t.sched.units = s.sched.units) (fun _ => rfl) (fun h k => k.trans h) (fun s q => ?_) _ s
  split
  · exact s.syncQueue_units _
  · rfl

/-- A RESUME: groups killed, control blocks marked, regions opened, headers written. -/
theorem State.resume_eq (s : State) (x : Context) (r : Nat) : s.resume x r =
    (((s.resumeQueues x r).markRegions x ((x.regions.filter (fun k => x.inSubtree r k.id)).map (·.id)) (r * 256)).mapCtx x.id
      (Context.reopened r)).syncQueues x r := rfl

theorem State.resume_spec {s : State} {k : Nat} {x : Context} (hx : s.ctx? k = some x) (r : Nat) :
    (s.resume x r).mgmt.cmds = s.mgmt.cmds ∧
      (∃ y, (s.resume x r).ctx? k = some y ∧ (∀ m ∈ y.regions, x.inSubtree r m.id = true → m.st = .opened) ∧ (r = 0 → y.st = .live)) ∧
      ∀ u ∈ s.sched.units, s.unitIn x r u.id = true → (s.resume x r).unit? u.id = none := by
  obtain rfl := State.ctx?_id hx
  obtain ⟨hkill, hgone⟩ := s.resumeQueues_spec x r
  have hmark := (s.resumeQueues x r).markRegions_step x ((x.regions.filter (fun k => x.inSubtree r k.id)).map (·.id)) (r * 256)
  have hstep := hkill.trans hmark.steady
  obtain ⟨y, hyx, hy⟩ := Steady.mapCtx_ctx? hstep.ctxs (f := Context.reopened r) hx fun _ h => h
  rw [State.resume_eq]
  have hsync := State.syncQueues_steady (((s.resumeQueues x r).markRegions x
    ((x.regions.filter (fun k => x.inSubtree r k.id)).map (·.id)) (r * 256)).mapCtx x.id (Context.reopened r)) x r
  obtain ⟨z, hz, hzy⟩ := hsync.ctx? hy
  have hregions : y.regions = x.regions := (congrArg Context.regions hyx :)
  have hzregions : z.regions = (Context.reopened r y).regions := (congrArg Context.regions hzy :)
  have hzst : z.st = (Context.reopened r y).st := (congrArg Context.st hzy :)
  refine ⟨hsync.cmds.trans hstep.cmds, ⟨z, hz, fun m hm hin => ?_, fun h0 => by rw [hzst, h0]; rfl⟩, fun u hu hin => ?_⟩
  · have hsub (n : Nat) : y.inSubtree r n = x.inSubtree r n :=
      Context.inSubtree_congr (f := id) (fun _ => ⟨rfl, rfl⟩) (by rw [hregions, List.map_id]) r n
    rw [hzregions] at hm
    obtain ⟨n, -, rfl⟩ := List.mem_map.1 hm
    by_cases hn : y.inSubtree r n.id = true
    · rw [if_pos hn]
    · rw [if_neg hn, ← hsub] at hin
      exact absurd hin hn
  · rw [State.unit?, State.syncQueues_units, State.mapCtx_sched_units, hmark.sched]
    exact hgone u hu hin

end Sys2Proof.Machine
end

section
/-! PROOFS. RUPDATE, FRESOLVE and TLBINV (R88, R209, R211, R212). -/

namespace Sys2Proof.Machine

open Sys2Proof.Claims

theorem State.answer_ctx? (s : State) (c : Cmd) (v k : Nat) : (s.answer c v).ctx? k = s.ctx? k :=
  State.ctx?_congr (by rw [State.answer_sched]) k

theorem State.answer_group? (s : State) (c : Cmd) (v k j : Nat) : (s.answer c v).group? k j = s.group? k j := by
  rw [State.group?, State.answer_sched, State.group?]

theorem State.answer_pfe (s : State) (c : Cmd) (v k j : Nat) : (s.answer c v).pfe k j = s.pfe k j :=
  State.pfe_congr (by rw [State.answer, State.reply_pfes]; rfl) k j

/-! ## RUPDATE -/

/-- The state in which a context has taken other regions. -/
def State.regionsTaken (s : State) (y : Context) : State := { s with sched := { s.sched with selectDue := true } }.putCtx y

/-- R88: what RUPDATE does. -/
theorem exec_rupdate {s : State} {c : Cmd} {x : Context} {b : List Byte} (h : HeadIs s 5 c) (hx : s.ctx? c.ctx = some x)
    (hp : x.port = c.port) (hst : x.st ≠ .draining) (hid : c.idField < 256) (hb : b = s.rcbBytes x.rtab c.idField)
    (hg : s.rupdateGate c = none) :
    exec .rupdate s = .next (
      if !rcbValid b then
        (if (x.region? c.idField).isNone then s.answer c 0
         else if x.regions.any (fun r => r.id != 0 && r.parent == c.idField) ||
             s.sched.queues.any (fun q => q.ctx == x.id && q.region == c.idField) then s.badState c
         else if c.idField == 0 then s.answer c 2
         else (s.regionsTaken { x with regions := x.regions.filter (fun r => r.id != c.idField) }).answer c 0)
      else if rcbBad c.idField b || !treeOk (x.withRegion c.idField b) then s.answer c 2
      else (s.regionsTaken { x with regions := x.withRegion c.idField b }).answer c 0) := by
  subst hb
  have hsmall : ¬256 ≤ c.idField := Nat.not_le.2 hid
  exact (State.command_next h hg _ _).trans (by simp only [State.cmdCtx_some hx hp hst, if_neg hsmall]; rfl)

/-- A context that has taken other regions stands, and the command is answered OK. -/
theorem State.regionsTaken_answered {s : State} {c : Cmd} {x y : Context} (hx : s.ctx? c.ctx = some x) (hy : y.id = x.id) :
    Answered s ((s.regionsTaken y).answer c 0) c 0 ∧ ((s.regionsTaken y).answer c 0).ctx? c.ctx = some y := by
  have hpath : ReplyPath s (s.regionsTaken y) := ⟨rfl, rfl, id⟩
  have hcmds : (s.regionsTaken y).mgmt.cmds = s.mgmt.cmds := rfl
  refine ⟨answered_of hcmds hpath c (by decide), ?_⟩
  rw [State.answer_ctx?]
  exact State.ctx?_putCtx (s := { s with sched := { s.sched with selectDue := true } }) hx (hy.trans (State.ctx?_id hx))

/-! ## FRESOLVE -/

theorem State.fresolves_none {s : State} {c : Cmd} {x : Context} (hctx : s.cmdCtx c = some x)
    (h : ∀ p, s.tokenEntry c.w1.toNat = some p → p.ctx ≠ x.id) : s.fresolves c = none := by
  simp only [State.fresolves, hctx]
  split
  · rfl
  · next p hp => rw [if_neg (by simpa using h p hp)]

theorem fresolve_unknown {s : State} {c : Cmd} {x : Context} (h : HeadIs s 10 c) (hctx : s.cmdCtx c = some x)
    (htoken : ∀ p, s.tokenEntry c.w1.toNat = some p → p.ctx ≠ x.id) : exec .fresolve s = .next (s.answer c 5) := by
  have hnone := State.fresolves_none hctx htoken
  exact (State.command_next h (by simp [State.fresolveGate, hnone]) _ _).trans (by simp [hctx, hnone])

/-- R209: what FRESOLVE does with an entry. -/
theorem exec_fresolve {s : State} {c : Cmd} {x : Context} {p : Pfe} (h : HeadIs s 10 c) (hctx : s.cmdCtx c = some x)
    (htoken : s.tokenEntry c.w1.toNat = some p) (hp : p.ctx = x.id) (hwait : c.mode ≠ 0 → s.failWaits p = false) :
    exec .fresolve s = .next ((if c.mode == 0 then s.resolveRetry p else s.resolveFail p).answer c 0) := by
  have hsome : s.fresolves c = some p := by simp [State.fresolves, hctx, htoken, hp]
  have hgate : s.fresolveGate c = none := by
    simp only [State.fresolveGate, hsome]
    exact if_neg (by simpa using hwait)
  exact (State.command_next h hgate _ _).trans (by simp [hctx, hsome])

/-! ## TLBINV -/

/-- The range of an invalidation starts at the multiple of its size that holds the address. -/
theorem alignedRange_eq (va size : Nat) :
    alignedRange va size = .range (va / 2 ^ sizeLog size * 2 ^ sizeLog size) (va / 2 ^ sizeLog size * 2 ^ sizeLog size + 2 ^ sizeLog size) := by
  rw [alignedRange, Nat.div_mul_self_eq_mod_sub_self]

theorem State.dropTranslations_noneHeld (s : State) (k lo hi : Nat) : NoneHeld (s.dropTranslations k (.range lo hi)) k lo hi := by
  intro l hl hk
  have hdropped := State.dropTranslations_held hl
  simp only [Leaf.dropped, hk, InvRange.meets, beq_self_eq_true, Bool.true_and, Bool.and_eq_false_iff, decide_eq_false_iff_not] at hdropped
  omega

/-- The state in which a TLBINV has dropped its translations and waits. -/
def State.invalidated (s : State) (c : Cmd) (x : Context) : State :=
  let s1 := s.popCmd.dropTranslations x.id (if c.mode == 0 then alignedRange c.w1.toNat c.size else .all)
  { s1 with mgmt := { s1.mgmt with invals := s1.mgmt.invals ++ [c] } }

theorem State.invalidated_heldLeaves (s : State) (c : Cmd) (x : Context) : (s.invalidated c x).heldLeaves =
    (s.popCmd.dropTranslations x.id (if c.mode == 0 then alignedRange c.w1.toNat c.size else .all)).heldLeaves := rfl

/-- R211: the translations that a TLBINV covers are dropped, and the command waits outside the arbiter. -/
theorem exec_tlbinvCommand_head {s : State} {c : Cmd} {x : Context} (h : HeadIs s 11 c) (hctx : s.cmdCtx c = some x) :
    exec .tlbinvCommand s = .next (s.invalidated c x) := by
  change execTlbinvCommand s = _
  have hlive : s.mgmt.devState ≠ .fatal := by rw [h.1]; nofun
  simp only [execTlbinvCommand, State.headCmd_of_headIs h, hctx, eventOf, beq_eq_false_iff_ne.2 hlive, Bool.false_eq_true, if_false]
  rfl

/-- A state of which memory has changed, and no partial. -/
def PartialsKept (s t : State) : Prop := MemStep s t ∧ t.ms.partials = s.ms.partials ∧ t.ms.pendings = s.ms.pendings

theorem PartialsKept.refl (s : State) : PartialsKept s s := ⟨MemStep.refl s, rfl, rfl⟩

theorem PartialsKept.trans {s t u : State} (h : PartialsKept s t) (k : PartialsKept t u) : PartialsKept s u :=
  ⟨h.1.trans k.1, k.2.1.trans h.2.1, k.2.2.trans h.2.2⟩

/-- Partials that are applied to a line leave the others. -/
theorem State.applyToLine_kept (s : State) (a n : Nat) (ops : List PartialOp) : PartialsKept s (s.applyToLine a n ops) := by
  obtain ⟨ls, h⟩ := s.serveWrite_eq a ((applyPartials s.ms.mem a n ops).readN a n)
  refine ⟨s.applyToLine_step a n ops, ?_⟩
  rw [State.applyToLine, h]
  exact ⟨rfl, rfl⟩

/-- The partials of a core taken out, to be applied. -/
def State.withoutPartials (s : State) (k : Nat) : State :=
  { s with ms := { s.ms with partials := s.ms.partials.filter (fun p => p.core != k),
                             pendings := s.ms.pendings.filter (fun p => p.core != k) } }

/-- A release to device scope applies the partials of a core: the others stay. -/
theorem State.releasePartials_kept (s : State) (k : Nat) : PartialsKept (s.withoutPartials k) (s.releasePartials k 8) := by
  have hpending := foldl_rel PartialsKept.refl PartialsKept.trans (f := fun s (p : PendPartial) => s.applyToLine p.pa p.n p.ops)
    (fun s p => s.applyToLine_kept p.pa p.n p.ops) (s.ms.pendings.filter (fun p => p.core == k)) (s.withoutPartials k)
  exact hpending.trans (foldl_rel PartialsKept.refl PartialsKept.trans (f := fun s (p : L1Partial) => s.applyToLine p.pa p.n p.ops)
    (fun s p => s.applyToLine_kept p.pa p.n p.ops) (s.ms.partials.filter (fun p => p.core == k)) _)

/-- Releases of several cores leave only partials of others. -/
theorem State.releaseAll_spec (ks : List Nat) (s : State) :
    MemStep s (ks.foldl (fun st k => st.releasePartials k 8) s) ∧
      (∀ p ∈ (ks.foldl (fun st k => st.releasePartials k 8) s).ms.partials, p ∈ s.ms.partials ∧ p.core ∉ ks) ∧
      ∀ p ∈ (ks.foldl (fun st k => st.releasePartials k 8) s).ms.pendings, p ∈ s.ms.pendings ∧ p.core ∉ ks := by
  induction ks generalizing s with
  | nil => exact ⟨MemStep.refl s, fun p hp => ⟨hp, List.not_mem_nil⟩, fun p hp => ⟨hp, List.not_mem_nil⟩⟩
  | cons k ks ih =>
    obtain ⟨hstep, hpartials, hpendings⟩ := s.releasePartials_kept k
    obtain ⟨hrest, hp1, hp2⟩ := ih (s.releasePartials k 8)
    have hout : MemStep s (s.withoutPartials k) := ⟨rfl, rfl, rfl, rfl, id, rfl⟩
    refine ⟨(hout.trans hstep).trans hrest, fun p hp => ?_, fun p hp => ?_⟩
    · obtain ⟨hmem, hnot⟩ := hp1 p hp
      rw [hpartials] at hmem
      obtain ⟨hmem, hk⟩ := List.mem_filter.1 hmem
      exact ⟨hmem, List.not_mem_cons_of_ne_of_not_mem (by simpa using hk) hnot⟩
    · obtain ⟨hmem, hnot⟩ := hp2 p hp
      rw [hpendings] at hmem
      obtain ⟨hmem, hk⟩ := List.mem_filter.1 hmem
      exact ⟨hmem, List.not_mem_cons_of_ne_of_not_mem (by simpa using hk) hnot⟩

/-- R211: once every partial is applied, none is left. -/
theorem State.flushPartials_spec (s : State) :
    MemStep s s.flushPartials ∧ s.flushPartials.ms.partials = [] ∧ s.flushPartials.ms.pendings = [] := by
  obtain ⟨hstep, hpartials, hpendings⟩ := State.releaseAll_spec s.partialCores s
  refine ⟨hstep, List.eq_nil_iff_forall_not_mem.2 fun p hp => ?_, List.eq_nil_iff_forall_not_mem.2 fun p hp => ?_⟩
  · obtain ⟨hmem, hnot⟩ := hpartials p hp
    exact hnot (List.mem_eraseDups.2 (List.mem_append_left _ (List.mem_map_of_mem hmem)))
  · obtain ⟨hmem, hnot⟩ := hpendings p hp
    exact hnot (List.mem_eraseDups.2 (List.mem_append_right _ (List.mem_map_of_mem hmem)))

/-- The state in which a TLBINV is over, before its reply. -/
def State.invalFinished (s : State) (c : Cmd) : State :=
  { s.flushPartials with mgmt := { s.flushPartials.mgmt with invals := s.flushPartials.mgmt.invals.erase c } }

/-- R211: a TLBINV of whose context no access is under way is answered. -/
theorem exec_tlbinvCommand_done {s : State} {c : Cmd} (hlive : s.mgmt.devState ≠ .fatal) (hhead : s.headCmd 11 = none)
    (hdone : s.invalDone = some c) (hg : s.flushGate = none) :
    exec .tlbinvCommand s = .next ((s.invalFinished c).reply (c.port, c.tag) 0) := by
  change execTlbinvCommand s = _
  simp only [execTlbinvCommand, hhead, hdone, hg, eventOf, beq_eq_false_iff_ne.2 hlive, Bool.false_eq_true, if_false, Option.bind_some,
    State.afterGate]
  rfl

end Sys2Proof.Machine
end

section
/-! PROOFS. The commands of contexts together (O31). -/

namespace Sys2Proof.Machine

open Sys2Proof.Claims

/-- What the arbiter does with a word written for a command (R460). -/
theorem ctxcmdSubmit_outcomes {s : State} {port : Nat} {word : BitVec 64} {p : Port} (hready : s.mgmt.devState = .ready)
    (hp : s.mgmt.ports.find? (fun q => q.id == port) = some p) :
    let c : Cmd := ⟨port, word, p.cmdW1⟩
    let n := (s.mgmt.cmds.filter (fun k => k.port == port)).length
    (64 ≤ n → ∃ t, exec (.ctxcmdSubmit port word) s = .next t ∧ t.mgmt.cmds = s.mgmt.cmds ∧
      ∀ q ∈ t.mgmt.ports, q.id = port → q.cmdOvf = true) ∧
    (n < 64 → c.bad = false → exec (.ctxcmdSubmit port word) s = .next { s with mgmt := { s.mgmt with cmds := s.mgmt.cmds ++ [c] } }) ∧
    (n < 64 → c.bad = true → ∃ t, exec (.ctxcmdSubmit port word) s = .next t ∧ t.mgmt.cmds = s.mgmt.cmds ∧
      (s.linkDead (0x300 + port) = false → s.ms.hostLines = [] → (t.hostOf port).readLE (s.statBase port + 8 * c.tag) 8 = 6)) := by
  intro c n
  rw [exec_ctxcmdSubmit hready hp]
  refine ⟨fun hfull => ?_, fun hroom hgood => ?_, fun hroom hbad => ?_⟩
  · rw [if_pos hfull]
    refine ⟨_, rfl, rfl, fun q hq hid => ?_⟩
    obtain ⟨r, -, rfl⟩ := List.mem_map.1 hq
    by_cases hr : r.id = port
    · simp [hr]
    · simp [hr] at hid
  · rw [if_neg (Nat.not_le.2 hroom), if_neg (by rw [hgood]; decide)]
  · rw [if_neg (Nat.not_le.2 hroom), if_pos hbad]
    exact ⟨_, rfl, by rw [State.reply_mgmt], fun hlink hhost => State.reply_reads (d := (port, c.tag)) hlink hhost (by decide)⟩

theorem create_outcomes {s : State} {c : Cmd} (h : HeadIs s 1 c) (hg : s.createGate c = none) :
    ((∀ id, id < 128 → (s.ctx? id).isSome = true) → ∃ t, exec .create s = .next t ∧ Answered s t c 1 ∧ t.sched = s.sched) ∧
    (∀ id, id < 128 → s.ctx? id = none → (∀ j, j < id → (s.ctx? j).isSome = true) →
      (let b := s.devRead c.w1.toNat 256
       (2 ^ 39 < c.w1.toNat + 256 ∨ descriptorBad b = true ∨ s.loadRegions (wordAt b 2) = none →
         ∃ t, exec .create s = .next t ∧ Answered s t c 2 ∧ t.sched = s.sched) ∧
       (∀ rs, c.w1.toNat + 256 ≤ 2 ^ 39 → descriptorBad b = false → s.loadRegions (wordAt b 2) = some rs →
         ∃ t x, exec .create s = .next t ∧ Answered s t c (id * 2 ^ 16) ∧ t.ctx? id = some x ∧ x.st = .live ∧ x.port = c.port ∧
           x.ptroot = wordAt b 0 ∧ x.cmode = BitVec.ofNat 10 (wordAt b 1) ∧ x.saveBase = wordAt b 3 ∧ x.saveSize = wordAt b 4 ∧
           x.fqBase = wordAt b 5 ∧ x.fqLog = wordAt b 6 ∧ x.handler = wordAt b 7 ∧ x.hangRpt = wordAt b 8 ∧ x.regions = rs ∧
           x.fences = [] ∧ x.fqProd = 0 ∧ x.fqCons = 0 ∧ x.hang = 0))) := by
  refine ⟨fun hfull => ⟨_, create_refused h hg hfull, answered_self s c (by decide), s.answer_sched c 1⟩,
    fun id hid hfree hlow => ⟨fun hbad => ?_, fun rs hin hgood hrs => ?_⟩⟩
  · exact ⟨_, create_bad h hg (find?_free hid hfree hlow) hbad, answered_self s c (by decide), s.answer_sched c 2⟩
  · have hkept := s.created_kept c id rs
    refine ⟨_, s.createdContext c id rs, create_good h hg (find?_free hid hfree hlow) hin hgood hrs,
      answered_of hkept.cmds hkept.toReplyPath c (by omega), (State.answer_ctx? _ _ _ _).trans (State.created_ctx? hfree c rs), ?_⟩
    exact ⟨rfl, rfl, rfl, rfl, rfl, rfl, rfl, rfl, rfl, rfl, rfl, rfl, rfl, rfl, rfl⟩

/-- The end of a drain: the context is gone, and its DESTROY is answered. -/
theorem State.freeContext_spec {s : State} {k : Nat} {x : Context} (hx : s.ctx? k = some x) :
    (s.freeContext x).ctx? k = none ∧ (∀ q ∈ (s.freeContext x).sched.queues, q.ctx ≠ k) ∧
      (∀ l ∈ (s.freeContext x).heldLeaves, l.ctx ≠ k) ∧
      ∀ p n, x.drainReply = some (p, n) → s.linkDead (0x300 + p) = false → s.ms.hostLines = [] →
        ((s.freeContext x).hostOf p).readLE (s.statBase p + 8 * n) 8 = 0 := by
  obtain rfl := State.ctx?_id hx
  obtain ⟨hctx, hqueues, hleaves⟩ := s.withoutCtx_spec x
  rw [State.freeContext_eq]
  cases hr : x.drainReply with
  | none => exact ⟨hctx, hqueues, hleaves, nofun⟩
  | some r =>
    refine ⟨(State.ctx?_congr (by rw [State.reply_sched]) _).trans hctx, by rw [State.reply_sched]; exact hqueues,
      by rw [State.reply_heldLeaves]; exact hleaves, ?_⟩
    rintro p n hpn hlink hhost
    cases hpn
    exact (s.withoutCtx_replyPath x).reads (d := (p, n)) (by decide) hlink hhost

theorem rupdate_outcomes {s : State} {c : Cmd} {x : Context} {b : List Byte} (h : HeadIs s 5 c) (hx : s.ctx? c.ctx = some x)
    (hp : x.port = c.port) (hst : x.st ≠ .draining) (hid : c.idField < 256) (hb : b = s.rcbBytes x.rtab c.idField)
    (hg : s.rupdateGate c = none) :
    (rcbValid b = true → rcbBad c.idField b = true ∨ treeOk (x.withRegion c.idField b) = false →
      ∃ t, exec .rupdate s = .next t ∧ Answered s t c 2) ∧
    (rcbValid b = true → rcbBad c.idField b = false → treeOk (x.withRegion c.idField b) = true → ∃ t y, exec .rupdate s = .next t ∧
      Answered s t c 0 ∧ t.ctx? c.ctx = some y ∧ y = { x with regions := x.withRegion c.idField b }) ∧
    (rcbValid b = false → (x.region? c.idField).isSome = true →
      ((∃ r ∈ x.regions, r.id ≠ 0 ∧ r.parent = c.idField) ∨ (∃ q ∈ s.sched.queues, q.ctx = x.id ∧ q.region = c.idField) →
        ∃ t, exec .rupdate s = .next t ∧ Answered s t c 3 ∧ t.sched = s.sched) ∧
      ((∀ r ∈ x.regions, r.id = 0 ∨ r.parent ≠ c.idField) → (∀ q ∈ s.sched.queues, q.ctx ≠ x.id ∨ q.region ≠ c.idField) →
        (c.idField = 0 → ∃ t, exec .rupdate s = .next t ∧ Answered s t c 2) ∧
        (c.idField ≠ 0 → ∃ t y, exec .rupdate s = .next t ∧ Answered s t c 0 ∧ t.ctx? c.ctx = some y ∧
          y = { x with regions := x.regions.filter (fun r => r.id != c.idField) }))) := by
  rw [exec_rupdate h hx hp hst hid hb hg]
  have htaken (rs : List Region) := State.regionsTaken_answered (y := { x with regions := rs }) hx rfl
  refine ⟨fun hvalid hbad => ?_, fun hvalid hgood htree => ?_, fun hinvalid hregion => ?_⟩
  · exact ⟨_, by simp [hvalid, hbad], answered_self s c (by decide)⟩
  · exact ⟨_, _, by simp [hvalid, hgood, htree], (htaken _).1, (htaken _).2, rfl⟩
  · rw [if_pos (by simp [hinvalid]), if_neg (by simpa using Option.isSome_iff_ne_none.1 hregion)]
    refine ⟨fun hbusy => ?_, fun hleaf hidle => ?_⟩
    · rw [if_pos (by simpa using hbusy)]
      exact ⟨_, rfl, s.badState_answered c⟩
    · have hfree : ¬(x.regions.any (fun r => r.id != 0 && r.parent == c.idField) ||
          s.sched.queues.any (fun q => q.ctx == x.id && q.region == c.idField)) = true := by
        simp only [Bool.or_eq_true, List.any_eq_true, Bool.and_eq_true, bne_iff_ne, beq_iff_eq]
        rintro (⟨r, hr, hr0, hrp⟩ | ⟨q, hq, hqc, hqr⟩)
        · exact (hleaf r hr).elim hr0 fun e => e hrp
        · exact (hidle q hq).elim (fun e => e hqc) fun e => e hqr
      rw [if_neg hfree]
      refine ⟨fun h0 => ?_, fun h0 => ?_⟩
      · rw [if_pos (by simpa using h0)]
        exact ⟨_, rfl, answered_self s c (by decide)⟩
      · rw [if_neg (by simpa using h0)]
        exact ⟨_, _, rfl, (htaken _).1, (htaken _).2, rfl⟩

/-- R209: an entry that FRESOLVE resolves is FREE with the next generation, and its groups issue again or trap. -/
theorem fresolve_outcomes {s : State} {c : Cmd} {x : Context} {p : Pfe} (h : HeadIs s 10 c) (hctx : s.cmdCtx c = some x)
    (htoken : s.tokenEntry c.w1.toNat = some p) (hp : p.ctx = x.id) (hwait : c.mode ≠ 0 → s.failWaits p = false) :
    ∃ t, exec .fresolve s = .next t ∧ t.mgmt.cmds = s.mgmt.cmds.tail ∧
      t.pfe p.base p.index = { p with pending := false, gen := p.gen + 1 } ∧ Answered s t c 0 ∧
      (c.mode = 0 → ∀ h l, s.group? h.core h.slot = some h → h.st = .faultWait p.base (some p.index) → h.saved = none →
        s.launchOf h = some l → s.drydown l.ctx = false → t.group? h.core h.slot = some { h with st := h.resumeSt, lateTrap := none }) ∧
      ∀ h u l a y, c.mode = 1 → s.launchOf h = some l → s.drydown l.ctx = false →
        s.sched.groups.filter (fun g => g.attachedTo p.base p.index) = [h] → s.group? h.core h.slot = some h →
        h.st = .faultWait p.base (some p.index) → h.hdl = none → h.lateTrap = some y → y.cause = 0x08 → s.unit? h.unit = some u →
        s.handlerOf u l.ctx 0x08 = a → a ≠ 0 → s.wgInHandler h = false →
        ∃ n f, t.group? h.core h.slot = some n ∧ n.st = .handler ∧ n.cause = 0x08 ∧ n.hdl = some f ∧ f.slot.pc = a := by
  obtain ⟨hpath, hcmds, hpfe⟩ := s.resolve_kept p (c.mode == 0)
  have hanswered := answered_of hcmds hpath c (v := 0) (by decide)
  refine ⟨_, exec_fresolve h hctx htoken hp hwait, hanswered.1, (State.answer_pfe _ _ _ _ _).trans hpfe, hanswered,
    fun hmode g l hg hst hs hl hd => ?_, fun g u l a y hmode hl hd hone hg hst hhdl hy hcause hu ha hne hw => ?_⟩
  · rw [State.answer_group?, if_pos (by simp [hmode])]
    exact State.resolveRetry_group hg hst hs hl hd
  · subst ha
    rw [State.answer_group?, if_neg (by simp [hmode])]
    obtain ⟨n, hn, hnst, hncause, f, hf, ha, -⟩ := State.resolveFail_group hl hd hone hg hst hhdl hy hcause hu hne hw
    exact ⟨n, f, hn, hnst, hncause, hf, ha⟩

/-- R211: what is held nowhere once a TLBINV has left the arbiter. -/
theorem State.invalidated_spec (s : State) (c : Cmd) (x : Context) :
    (c.mode ≠ 0 → ∀ l ∈ (s.invalidated c x).heldLeaves, l.ctx ≠ x.id) ∧
      (c.mode = 0 → NoneHeld (s.invalidated c x) x.id (c.w1.toNat / 2 ^ sizeLog c.size * 2 ^ sizeLog c.size)
        (c.w1.toNat / 2 ^ sizeLog c.size * 2 ^ sizeLog c.size + 2 ^ sizeLog c.size)) := by
  unfold NoneHeld
  rw [State.invalidated_heldLeaves]
  refine ⟨fun hmode => ?_, fun hmode => ?_⟩
  · rw [if_neg (by simpa using hmode)]
    exact fun l hl => State.dropTranslations_all hl
  · rw [if_pos (by simpa using hmode), alignedRange_eq]
    exact State.dropTranslations_noneHeld _ _ _ _

theorem State.invalFinished_replyPath (s : State) (c : Cmd) : ReplyPath s (s.invalFinished c) :=
  have h := s.flushPartials_spec.1.steady
  ⟨h.ports, h.links, h.hosts⟩

/-- The completion of a TLBINV. -/
theorem tlbinvCommand_completes {s : State} {c : Cmd} (hlive : s.mgmt.devState ≠ .fatal) (hhead : s.headCmd 11 = none)
    (hdone : s.invalDone = some c) (hg : s.flushGate = none) :
    ∃ t, exec .tlbinvCommand s = .next t ∧ t.mgmt.invals = s.mgmt.invals.erase c ∧ t.mgmt.cmds = s.mgmt.cmds ∧
      t.ms.partials = [] ∧ t.ms.pendings = [] ∧
      (s.linkDead (0x300 + c.port) = false → s.ms.hostLines = [] →
        (t.hostOf c.port).readLE (s.statBase c.port + 8 * c.tag) 8 = 0) := by
  obtain ⟨hstep, hpartials, hpendings⟩ := s.flushPartials_spec
  refine ⟨_, exec_tlbinvCommand_done hlive hhead hdone hg, ?_, ?_, ?_, ?_,
    (s.invalFinished_replyPath c).reads (d := (c.port, c.tag)) (by decide)⟩
  · rw [State.reply_mgmt, ← hstep.mgmt]; rfl
  · rw [State.reply_mgmt, ← hstep.mgmt]; rfl
  · rw [State.reply_partials]; exact hpartials
  · rw [State.reply_pendings]; exact hpendings

/-- Settles O31: every command is carried out as its own equation says; what each keeps of the arbiter and of the reply's path makes its
status word stand. -/
theorem contextCommands : Obligations.ContextCommands := by
  refine ⟨fun s port word p hready hp => ctxcmdSubmit_outcomes hready hp, fun i op s c hi h hctx => ?_, fun s c h hg => create_outcomes h hg,
    fun s c x h hx hp hst hg => ?_, fun s id x hlive hx hst hl hgroups hce hfe hg => ?_, fun s c x r h hx hp hst hr => ⟨fun hout hdone => ?_,
    fence_starts h hx hp hst hr, fun f hin => fence_joins h hx hp hst hr hin⟩, fun s c x r h hx hp hst hr => ⟨fun hbad => ?_,
    fun hfenced hroot hout hg => ?_⟩, fun s c x b h hx hp hst hid hb hg => rupdate_outcomes h hx hp hst hid hb hg,
    fun s c x h hx hp hst => ⟨fun htoken => ?_, fun p htoken hp' hwait => ?_⟩, fun s c x h hx hp hst => ?_,
    fun s c hlive hhead hdone hg => tlbinvCommand_completes hlive hhead hdone hg⟩
  · exact ⟨_, contextCommand_refused hi h (State.cmdCtx_none hctx), s.badState_answered c⟩
  · obtain ⟨⟨y, hy, hyst, hyr⟩, hcmds, hrest⟩ := State.drain_spec (s := s.popCmd) hx (some (c.port, c.tag))
    exact ⟨_, y, exec_destroy h hx hp hst hg, hy, hyst, hyr, hcmds, hrest⟩
  · exact ⟨_, exec_contextDrainComplete hlive hx hst hl hgroups hce hfe hg, State.freeContext_spec hx⟩
  · exact ⟨_, fence_answered h hx hp hst hr hout hdone, answered_self s c (by decide), s.answer_sched c 0⟩
  · exact ⟨_, resume_refused h hx hp hst hr hbad, s.badState_answered c⟩
  · obtain ⟨hcmds, ⟨y, hy, hopen, hlive⟩, hunits⟩ := State.resume_spec hx r.id
    refine ⟨_, y, exec_resume h hx hp hst hr hfenced hroot hout hg, ?_, (State.answer_ctx? _ _ _ _).trans hy, hopen, hlive,
      fun u hu hin => ?_⟩
    · rw [State.answer, State.reply_mgmt]; exact congrArg List.tail hcmds
    · rw [State.unit?, State.answer_sched]; exact hunits u hu hin
  · exact ⟨_, fresolve_unknown h (State.cmdCtx_some hx hp hst) htoken, answered_self s c (by decide), s.answer_sched c 5⟩
  · exact fresolve_outcomes h (State.cmdCtx_some hx hp hst) htoken hp' hwait
  · exact ⟨_, exec_tlbinvCommand_head h (State.cmdCtx_some hx hp hst), rfl, rfl, s.invalidated_spec c x⟩

end Sys2Proof.Machine
end

section
/-! PROOFS. A fence whose outstanding operations are over: the dump starts, and the headers of the subtree's queues are written, which recalls
their line from a die that holds it and strikes the checks that groups have pending on that line (R223, R232). So O34 fails: the groups
are not those of before. -/

namespace Sys2Proof.Machine

open Sys2Proof.Claims

/-- R93, R96: when the subtree of a fence has nothing under way, the event starts its dump. -/
theorem exec_fenceOutstandingComplete {s : State} {id root : Nat} {c : Context} {f : FenceOp} (hlive : s.mgmt.devState ≠ .fatal)
    (hctx : s.ctx? id = some c) (hfence : c.fences.find? (fun g => g.root == root) = some f) (hst : f.st = .fencing)
    (hquiet : s.subtreeQuiet c root = true) (hgate : s.headersGate c root = none) :
    exec (.fenceOutstandingComplete id root) s = .next (s.startDump c root) := by
  change execFenceOutstandingComplete id root s = _
  simp [execFenceOutstandingComplete, eventOf, hlive, hctx, hfence, hst, hquiet, hgate, State.afterGate]

/-! ## The refuting state -/

/-- Page tables of `stageContext` that map the page of address 0x4000. -/
def recalledTables : Memory :=
  [(0x100000, 1), (0x100003, 2), (0x100004, 1), (0x102000, 1), (0x102003, 4), (0x102004, 1), (0x104000, 1), (0x104003, 6),
    (0x104004, 1), (0x106000, 31), (0x106001, 81)]

/-- A context whose region 0 is being fenced. -/
def recallingContext : Context :=
  { stageContext with st := .fenced, regions := [{ stageRegion with st := .fencing }], fences := [⟨0, .fencing, [], false⟩] }

/-- A held queue of the context, whose header (R116) stands in line 0x80. -/
def recalledQueue : Queue :=
  { id := 1, ctx := 0, qbase := 0x4000, qlog := 6, producer := true, stopOnErr := false, region := 0, st := .held,
    heldFrom := .active, err := 0, wptr := 0, parsed := 0, retired := 0, doneIdx := [], doorbell := false, polled := 0 }

/-- A group that waits for the answer of the check of line 0x80. -/
def watchingGroup : Group :=
  { stageGroup with watch := [{ st := .pending, lines := [{ line := 0x80, version := 0, answer := none, st := .pending }] }] }

/-- The fence of `recallingContext` has nothing under way, and line 0x80 is held by die 1. -/
def recallingPart : State :=
  { State.reset.staged [] with
    sched := { stageSched with ctxs := [recallingContext], queues := [recalledQueue], groups := [watchingGroup] },
    ms := { MemSys.reset with mem := recalledTables, lines := [{ LineRec.fresh 0x80 with holder := some 1, recorded := true }] } }

/-- The start of the dump strikes the check that the group has pending. -/
theorem startDump_strikes_pending_check :
    (recallingPart.startDump recallingContext 0).sched.groups ≠ recallingPart.sched.groups := by
  decide +kernel

/-- Refutes O34: the first clause says that the groups stay when a fence starts its dump, but the write of a queue's header recalls its
line from the die that holds it, and a group's pending check of the line is struck. -/
theorem not_fencesAndRounds : ¬ Obligations.FencesAndRounds := by
  intro ⟨hfence, _⟩
  have hgate : recallingPart.headersGate recallingContext 0 = none := Option.isNone_iff_eq_none.mp (by decide +kernel)
  obtain ⟨t, _, hexec, _, hgroups, _⟩ := hfence recallingPart 0 0 recallingContext ⟨0, .fencing, [], false⟩ (by decide +kernel)
    (by decide +kernel) (by decide +kernel) rfl (by decide +kernel) (by decide +kernel) hgate
  have hdump := exec_fenceOutstandingComplete (s := recallingPart) (id := 0) (root := 0) (c := recallingContext)
    (f := ⟨0, .fencing, [], false⟩) (by decide +kernel) (by decide +kernel) (by decide +kernel) rfl (by decide +kernel) hgate
  rw [hdump] at hexec
  injection hexec with ht
  exact startDump_strikes_pending_check (ht ▸ hgroups)

end Sys2Proof.Machine
end
